-- ==== Sys2Proof/Word.lean ====
section
/-! DEFINITION. The words of the device and the data its commands carry from outside (operands). -/

namespace Sys2Proof

/-- A byte. -/
abbrev Byte := BitVec 8

/-- A register word: every register is 64 bits wide (R12). -/
abbrev Word := BitVec 64

/-- A string of bytes, byte 0 first (R11). -/
abbrev Bytes := List (BitVec 8)

/-- Who makes a register access (R383, R384, R489): the host through PF0, partition p's virtual function, a capability, or the board over I3C. -/
inductive Req where
  | pf0
  | vf (p : Fin 8)
  | cap (c : BitVec 4)
  | i3c
  deriving DecidableEq, Repr

/-- A unit that an error record names, by its type and index (R31). -/
inductive UnitId where
  | core (n : Fin 384)
  | cluster (n : Fin 32)
  | mch (n : Fin 768)
  | link (n : Fin 64)
  | slice (n : Fin 768)
  | channel (n : Fin 64)
  | stream (n : Fin 65536)
  | mgmt (n : Fin 8)
  | halo
  | security
  | die (n : Fin 10)
  deriving DecidableEq, Repr

/-- UNIT_ID (R31): the type in bits [15:12], the index in bits [11:0]; a stream's index is its number [11:0]. -/
def UnitId.word : UnitId → Nat
  | .core n => 0x1000 + n
  | .cluster n => 0x2000 + n
  | .mch n => 0x3000 + n
  | .link n => 0x4000 + n
  | .slice n => 0x5000 + n
  | .channel n => 0x6000 + n
  | .stream n => 0x7000 + n % 4096
  | .mgmt n => 0x8000 + n
  | .halo => 0x9000
  | .security => 0xA000
  | .die n => 0xB000 + n

/-- The stream number that a record of the unit carries; 0 for a unit that is no stream. -/
def UnitId.streamNo : UnitId → Nat
  | .stream n => n
  | _ => 0

/-- A memory access: a read of `len` bytes, or a write of bytes. -/
inductive MemAcc where
  | read (len : Nat)
  | write (data : Bytes)
  deriving DecidableEq, Repr

/-- The stream and the sequence number of the work a request is made for (R214); 0 for a requester that has none. -/
structure ReqId where
  stream : BitVec 16
  seq : BitVec 32
  deriving DecidableEq, Repr

/-- What the SECDED of an LLC slice finds in the words that a request touches (R173, R174). -/
inductive SliceEcc where
  | good | corrected | uncorrectable
  deriving DecidableEq, Repr

/-- A request as an LLC slice receives it (R174, R183): for whom, the access, what the SECDED finds. -/
structure SliceReq where
  who : ReqId
  acc : MemAcc
  ecc : SliceEcc
  deriving DecidableEq, Repr

/-- Symbol errors of one stored codeword: the symbol's place (0-71) and the bits flipped in it (R197). -/
abbrev SymErrs := List (Fin 72 × BitVec 8)

/-- A burst read as an MCH meets it (R199, R214): for whom, and the symbol errors of the codeword. -/
structure MchRead where
  who : ReqId
  errs : SymErrs
  deriving DecidableEq, Repr

/-- Logical pins found bad by a training run (R201). -/
abbrev BadPins := List (Fin 37)

/-- Who waits for a host-window request (R220): a core's DMA queue, a stream's COPY, its NETWRITE at the head, its descriptor fetch, or its oldest completion record. -/
inductive HostReq where
  | dma (core : Fin 384) (q : Fin 8)
  | copy (stream : Fin 65536) (seq : BitVec 32)
  | netwrite (stream : Fin 65536)
  | fetch (stream : Fin 65536)
  | record (stream : Fin 65536)
  deriving DecidableEq, Repr

/-- The protocol the host offers in link training (R216, R218). -/
inductive CxlGen where
  | cxl3 | cxl2 | cxl11 | pcie
  deriving DecidableEq, Repr

/-- Widths and rates of the CXL link (R216). -/
inductive CxlWidth where
  | x16 | x8 | x4
  deriving DecidableEq, Repr

inductive CxlRate where
  | gt64 | gt32 | gt16
  deriving DecidableEq, Repr

/-- FEC codewords that a receiver has corrected and found uncorrectable (R249, R277). -/
structure FecCount where
  corr : BitVec 32
  uncorr : BitVec 16
  deriving DecidableEq, Repr

/-- Queue pairs that management firmware has created on a port: number and partition (R244). -/
abbrev QpList := List (Fin 1024 × Fin 8)

/-- An Ethernet port that comes up, with the queue pairs created on it (R243, R244). -/
structure EthRise where
  port : Fin 2
  qps : QpList
  deriving DecidableEq, Repr

/-- An Ethernet port that goes down, with what its FEC has counted (R249). -/
structure EthFall where
  port : Fin 2
  fec : FecCount
  deriving DecidableEq, Repr

/-- A flit as the receiver has it: its bytes, and what FEC has counted on the way (R252, R277). -/
structure RxFlit where
  data : Bytes
  fec : FecCount
  deriving DecidableEq, Repr

/-- One fabric message as its header fields spell it (R254): destination, source, class, sub-channel, flags, TTL, type, the 16 class bytes, and the data. -/
structure Msg where
  dst : BitVec 15
  src : BitVec 15
  cls : BitVec 2
  sub : BitVec 2
  ordered : Bool
  det : Bool
  ttl : BitVec 6
  typ : BitVec 8
  hdr : Bytes
  data : Bytes
  deriving DecidableEq, Repr

/-- One collective operation of this device: its group, the kind (0 a group collective, 1 a send pair, 2 a receive pair), the peer of a pair, and the sequence number (R285, R290). -/
structure OpId where
  grp : Fin 4096
  kind : Fin 3
  peer : BitVec 15
  seq : BitVec 32
  deriving DecidableEq, Repr

/-- Where a management session message comes from (R354). -/
inductive Endpoint where
  | eth (port : Fin 2) (ip : BitVec 128) (udp : BitVec 16)
  | fabric (devid : BitVec 15)
  deriving DecidableEq, Repr

/-- How step 3 of a Transit ends (R391): every record imported and every component started, or a failure named by capability. -/
inductive FwFail where
  | ok
  | failed (cap : BitVec 4)
  deriving DecidableEq, Repr

/-- The outcomes of the attempts of a flash rewrite, first attempt first; true is a failure (R395). -/
abbrev FlashFails := List Bool

/-- Microcode packets lost in a round: core and packet number (R388). -/
abbrev LostPackets := List (Fin 384 × Fin 65)

/-- Cores, by physical number. -/
abbrev CoreList := List (Fin 384)

/-- What Halo measures of a bring-up stage: its start and end in microseconds from the start of S0 (R403). -/
structure StageTime where
  t0 : BitVec 64
  t1 : BitVec 64
  deriving DecidableEq, Repr

/-- Findings of S0 (R404): each part's self-test. -/
structure S0Env where
  haloOk : Bool
  refOk : Bool
  pllOk : Bool
  secOk : Bool
  deriving DecidableEq, Repr

/-- Findings of S1 (R381): the flash answers SFDP. Every other check of the stage is computed from the flash and the fuses. -/
structure S1Env where
  flashOk : Bool
  deriving DecidableEq, Repr

/-- Findings of S2 (R402, R404): a die that does not answer, an unreadable fuse array, a crossing without a working module, a root PLL without lock; and the crossings that trained with some modules less than all, with the number out of service. -/
structure S2Env where
  dieAbsent : Option (Fin 10)
  fuseBad : Option (Fin 10)
  crossDead : Option (Fin 12)
  pllBad : Option (Fin 10)
  modulesOut : List (Fin 12 × BitVec 6)
  deriving DecidableEq, Repr

/-- Findings of S3 (R404): a silent regulator, a rail off tolerance, an ACLK that fails its check. -/
structure S3Env where
  railSilent : Option (Fin 16)
  railOff : Option (Fin 16)
  aclkBad : Option (Fin 4)
  deriving DecidableEq, Repr

/-- Findings of S4 (R201, R404, R406): a stack that does not answer, and the pins each training found bad. -/
structure S4Env where
  stackSilent : Option (Fin 12)
  bad : List (Fin 768 × BadPins)
  temps : List (Fin 12 × BitVec 8)
  deriving DecidableEq, Repr

/-- Findings of S5 (R404): the digest of the MGT copy, and a component that did not start. -/
structure S5Env where
  mgtOk : Bool
  compBad : Option (BitVec 4)
  deriving DecidableEq, Repr

/-- Findings of S6 (R407): the UNIT_IDs whose known-answer run failed, and the reducers that failed, bits as in the floor plan's REDUCERS. -/
structure S6Env where
  failed : List (BitVec 16)
  reducers : BitVec 8
  deriving DecidableEq, Repr

/-- One AVSBus poll: for each rail its millivolts and milliamperes, or no answer (R431). -/
abbrev RailReads := List (Option (BitVec 16 × BitVec 32))

/-- One Halo sample: the readings of each die's temperature sensors, of each stack's sensor, and each rail's current in percent of its rating (R434). -/
structure TempReads where
  tj : Vector (List Int) 10
  stk : Vector Int 12
  cur : Vector Nat 16
  deriving DecidableEq, Repr

/-- A Tail packet as its source makes it (R445): an EVENT with its code, or another kind. -/
structure TailPkt where
  kind : BitVec 4
  src : BitVec 12
  event : BitVec 8
  die : BitVec 4
  part : Option (Fin 8)
  ts : BitVec 32
  payload : BitVec 64
  deriving DecidableEq, Repr

/-- The instructions of the test port (R477). -/
inductive JtagIns where
  | bypass | idcode | sample | extest | intest | clamp | access
  deriving DecidableEq, Repr

end Sys2Proof
end

