-- ==== Sys2Proof/Syntax.lean ====
section
/-! DEFINITION. The commands of the block: one constructor per row of the opcode table. -/

namespace Sys2Proof

/-- A command sent to the device, or an event on it; each constructor names its row of the table and the rule that governs it. -/
inductive Instr where
  /-- BUNDLE_ISSUE (R39). -/
  | bundleIssue (core : Fin 384)
  /-- SCALAR_NOP (R43). -/
  | scalarNop (core : Fin 384)
  /-- ADD (R43). -/
  | add (core : Fin 384) (rd : Fin 64) (rs1 : Fin 64) (rs2 : Fin 64)
  /-- SUB (R43). -/
  | sub (core : Fin 384) (rd : Fin 64) (rs1 : Fin 64) (rs2 : Fin 64)
  /-- AND (R43). -/
  | and (core : Fin 384) (rd : Fin 64) (rs1 : Fin 64) (rs2 : Fin 64)
  /-- OR (R43). -/
  | or (core : Fin 384) (rd : Fin 64) (rs1 : Fin 64) (rs2 : Fin 64)
  /-- XOR (R43). -/
  | xor (core : Fin 384) (rd : Fin 64) (rs1 : Fin 64) (rs2 : Fin 64)
  /-- SHL (R43). -/
  | shl (core : Fin 384) (rd : Fin 64) (rs1 : Fin 64) (rs2 : Fin 64)
  /-- SHR (R43). -/
  | shr (core : Fin 384) (rd : Fin 64) (rs1 : Fin 64) (rs2 : Fin 64)
  /-- SRA (R43). -/
  | sra (core : Fin 384) (rd : Fin 64) (rs1 : Fin 64) (rs2 : Fin 64)
  /-- MUL (R43). -/
  | mul (core : Fin 384) (rd : Fin 64) (rs1 : Fin 64) (rs2 : Fin 64)
  /-- MIN (R43). -/
  | min (core : Fin 384) (rd : Fin 64) (rs1 : Fin 64) (rs2 : Fin 64)
  /-- MAX (R43). -/
  | max (core : Fin 384) (rd : Fin 64) (rs1 : Fin 64) (rs2 : Fin 64)
  /-- SLT (R43). -/
  | slt (core : Fin 384) (rd : Fin 64) (rs1 : Fin 64) (rs2 : Fin 64)
  /-- SLTU (R43). -/
  | sltu (core : Fin 384) (rd : Fin 64) (rs1 : Fin 64) (rs2 : Fin 64)
  /-- ADD_IMM (R43). -/
  | addImm (core : Fin 384) (rd : Fin 64) (rs1 : Fin 64) (imm : BitVec 28)
  /-- SUB_IMM (R43). -/
  | subImm (core : Fin 384) (rd : Fin 64) (rs1 : Fin 64) (imm : BitVec 28)
  /-- AND_IMM (R43). -/
  | andImm (core : Fin 384) (rd : Fin 64) (rs1 : Fin 64) (imm : BitVec 28)
  /-- OR_IMM (R43). -/
  | orImm (core : Fin 384) (rd : Fin 64) (rs1 : Fin 64) (imm : BitVec 28)
  /-- XOR_IMM (R43). -/
  | xorImm (core : Fin 384) (rd : Fin 64) (rs1 : Fin 64) (imm : BitVec 28)
  /-- SHL_IMM (R43). -/
  | shlImm (core : Fin 384) (rd : Fin 64) (rs1 : Fin 64) (imm : BitVec 28)
  /-- SHR_IMM (R43). -/
  | shrImm (core : Fin 384) (rd : Fin 64) (rs1 : Fin 64) (imm : BitVec 28)
  /-- SRA_IMM (R43). -/
  | sraImm (core : Fin 384) (rd : Fin 64) (rs1 : Fin 64) (imm : BitVec 28)
  /-- MUL_IMM (R43). -/
  | mulImm (core : Fin 384) (rd : Fin 64) (rs1 : Fin 64) (imm : BitVec 28)
  /-- MIN_IMM (R43). -/
  | minImm (core : Fin 384) (rd : Fin 64) (rs1 : Fin 64) (imm : BitVec 28)
  /-- MAX_IMM (R43). -/
  | maxImm (core : Fin 384) (rd : Fin 64) (rs1 : Fin 64) (imm : BitVec 28)
  /-- SLT_IMM (R43). -/
  | sltImm (core : Fin 384) (rd : Fin 64) (rs1 : Fin 64) (imm : BitVec 28)
  /-- SLTU_IMM (R43). -/
  | sltuImm (core : Fin 384) (rd : Fin 64) (rs1 : Fin 64) (imm : BitVec 28)
  /-- LI (R43). -/
  | li (core : Fin 384) (rd : Fin 64) (imm : BitVec 28)
  /-- LIH (R43). -/
  | lih (core : Fin 384) (rd : Fin 64) (imm : BitVec 28)
  /-- BR (R43). -/
  | br (core : Fin 384) (imm : BitVec 28)
  /-- BEQZ (R43). -/
  | beqz (core : Fin 384) (rs1 : Fin 64) (imm : BitVec 28)
  /-- BNEZ (R43). -/
  | bnez (core : Fin 384) (rs1 : Fin 64) (imm : BitVec 28)
  /-- BLTZ (R43). -/
  | bltz (core : Fin 384) (rs1 : Fin 64) (imm : BitVec 28)
  /-- BGEZ (R43). -/
  | bgez (core : Fin 384) (rs1 : Fin 64) (imm : BitVec 28)
  /-- JR (R43). -/
  | jr (core : Fin 384) (rs1 : Fin 64)
  /-- CALL (R43). -/
  | call (core : Fin 384) (imm : BitVec 28)
  /-- CSRR (R44). -/
  | csrr (core : Fin 384) (rd : Fin 64) (num : BitVec 8)
  /-- END (R43). -/
  | scalarEnd (core : Fin 384)
  /-- INSTANCE_END (R43). -/
  | instanceEnd (core : Fin 384)
  /-- MOVE_NOP (R45). -/
  | moveNop (core : Fin 384)
  /-- DMA (R51). -/
  | dma (core : Fin 384) (ab : Fin 16) (q : Fin 8) (imm : BitVec 32)
  /-- VLD (R45). -/
  | vld (core : Fin 384) (ab : Fin 16) (v : Fin 32) (imm : BitVec 32)
  /-- VST (R45). -/
  | vst (core : Fin 384) (ab : Fin 16) (v : Fin 32) (imm : BitVec 32)
  /-- TLD (R49). -/
  | tld (core : Fin 384) (ab : Fin 16) (t : Fin 16) (imm : BitVec 32)
  /-- TST (R45). -/
  | tst (core : Fin 384) (ab : Fin 16) (t : Fin 16) (imm : BitVec 32)
  /-- TSETB (R45). -/
  | tsetb (core : Fin 384) (ab : Fin 16) (t : Fin 16) (imm : BitVec 32)
  /-- LD (R45). -/
  | ld (core : Fin 384) (ab : Fin 16) (r : Fin 64) (imm : BitVec 32)
  /-- ST (R45). -/
  | st (core : Fin 384) (ab : Fin 16) (r : Fin 64) (imm : BitVec 32)
  /-- MATRIX_NOP (R46). -/
  | matrixNop (core : Fin 384)
  /-- MCFG (R81). -/
  | mcfg (core : Fin 384)
  /-- MLOAD (R83). -/
  | mload (core : Fin 384)
  /-- MSWAP (R80). -/
  | mswap (core : Fin 384)
  /-- MSTREAM (R86). -/
  | mstream (core : Fin 384)
  /-- MDRAIN (R114). -/
  | mdrain (core : Fin 384)
  /-- MPADD (R114). -/
  | mpadd (core : Fin 384)
  /-- MLOAD_DONE (R102). -/
  | mloadDone (core : Fin 384)
  /-- MSTREAM_DONE (R102). -/
  | mstreamDone (core : Fin 384)
  /-- DRAIN_DONE (R102). -/
  | drainDone (core : Fin 384)
  /-- VECTOR_NOP (R146). -/
  | vectorNop (core : Fin 384)
  /-- VADD (R148). -/
  | vadd (core : Fin 384)
  /-- VSUB (R148). -/
  | vsub (core : Fin 384)
  /-- VMUL (R148). -/
  | vmul (core : Fin 384)
  /-- VFMA (R148). -/
  | vfma (core : Fin 384)
  /-- VMIN (R149). -/
  | vmin (core : Fin 384)
  /-- VMAX (R149). -/
  | vmax (core : Fin 384)
  /-- VABS (R148). -/
  | vabs (core : Fin 384)
  /-- VNEG (R148). -/
  | vneg (core : Fin 384)
  /-- VDIV (R148). -/
  | vdiv (core : Fin 384)
  /-- VSQRT (R148). -/
  | vsqrt (core : Fin 384)
  /-- VCMP (R149). -/
  | vcmp (core : Fin 384)
  /-- VSEL (R148). -/
  | vsel (core : Fin 384)
  /-- VAND (R148). -/
  | vand (core : Fin 384)
  /-- VOR (R148). -/
  | vor (core : Fin 384)
  /-- VXOR (R148). -/
  | vxor (core : Fin 384)
  /-- VSHL (R148). -/
  | vshl (core : Fin 384)
  /-- VSHR (R148). -/
  | vshr (core : Fin 384)
  /-- VIOTA (R148). -/
  | viota (core : Fin 384)
  /-- VCVT (R150). -/
  | vcvt (core : Fin 384)
  /-- VEXP (R151). -/
  | vexp (core : Fin 384)
  /-- VEXP2 (R151). -/
  | vexp2 (core : Fin 384)
  /-- VLOG (R151). -/
  | vlog (core : Fin 384)
  /-- VLOG2 (R151). -/
  | vlog2 (core : Fin 384)
  /-- VRCP (R151). -/
  | vrcp (core : Fin 384)
  /-- VRSQRT (R151). -/
  | vrsqrt (core : Fin 384)
  /-- VTANH (R151). -/
  | vtanh (core : Fin 384)
  /-- VSIGM (R151). -/
  | vsigm (core : Fin 384)
  /-- VSIN (R151). -/
  | vsin (core : Fin 384)
  /-- VCOS (R151). -/
  | vcos (core : Fin 384)
  /-- VERF (R151). -/
  | verf (core : Fin 384)
  /-- VGELUT (R151). -/
  | vgelut (core : Fin 384)
  /-- VGELUE (R151). -/
  | vgelue (core : Fin 384)
  /-- VSILU (R151). -/
  | vsilu (core : Fin 384)
  /-- VRSUM (R152). -/
  | vrsum (core : Fin 384)
  /-- VRSSQ (R152). -/
  | vrssq (core : Fin 384)
  /-- VRMAX (R152). -/
  | vrmax (core : Fin 384)
  /-- VRMIN (R152). -/
  | vrmin (core : Fin 384)
  /-- VPERM (R148). -/
  | vperm (core : Fin 384)
  /-- VBCAST (R148). -/
  | vbcast (core : Fin 384)
  /-- VSLIDE (R148). -/
  | vslide (core : Fin 384)
  /-- VGATHER (R153). -/
  | vgather (core : Fin 384)
  /-- VSCATTER (R153). -/
  | vscatter (core : Fin 384)
  /-- VSCADD (R153). -/
  | vscadd (core : Fin 384)
  /-- VRBITS (R154). -/
  | vrbits (core : Fin 384)
  /-- VURAND (R154). -/
  | vurand (core : Fin 384)
  /-- VNRAND (R154). -/
  | vnrand (core : Fin 384)
  /-- VMOM1 (R155). -/
  | vmom1 (core : Fin 384)
  /-- VMOM2 (R155). -/
  | vmom2 (core : Fin 384)
  /-- VADAMU (R155). -/
  | vadamu (core : Fin 384)
  /-- VWDEC (R155). -/
  | vwdec (core : Fin 384)
  /-- VCUPD (R139). -/
  | vcupd (core : Fin 384)
  /-- VECTOR_OP_FINISH (R156). -/
  | vectorOpFinish (core : Fin 384)
  /-- SYNC_NOP (R48). -/
  | syncNop (core : Fin 384)
  /-- EVINC (R48). -/
  | evinc (core : Fin 384) (ec : Fin 64) (rs : Fin 64) (imm : BitVec 8)
  /-- EVSET (R48). -/
  | evset (core : Fin 384) (ec : Fin 64) (rs : Fin 64) (imm : BitVec 8)
  /-- EVWAIT (R48). -/
  | evwait (core : Fin 384) (ec : Fin 64) (rs : Fin 64) (imm : BitVec 8)
  /-- EVREM (R59). -/
  | evrem (core : Fin 384) (ec : Fin 64) (rs : Fin 64) (imm : BitVec 8)
  /-- EVREM_ARRIVAL (R59). -/
  | evremArrival (core : Fin 384)
  /-- BAR (R60). -/
  | bar (core : Fin 384)
  /-- BAR_ARRIVAL (R60). -/
  | barArrival (core : Fin 384)
  /-- FENCE (R48). -/
  | fence (core : Fin 384) (imm : BitVec 8)
  /-- TB (R67). -/
  | tb (core : Fin 384) (imm : BitVec 8)
  /-- DMA_COPY (R52). -/
  | dmaCopy (core : Fin 384) (q : Fin 8)
  /-- DMA_GATHER (R52). -/
  | dmaGather (core : Fin 384) (q : Fin 8)
  /-- DMA_SCATTER (R52). -/
  | dmaScatter (core : Fin 384) (q : Fin 8)
  /-- DMA_FILL (R52). -/
  | dmaFill (core : Fin 384) (q : Fin 8)
  /-- DMA_PREEMPTION_POINT (R341). -/
  | dmaPreemptionPoint (core : Fin 384) (q : Fin 8)
  /-- DMA_REQUEST_REFUSED (R54). -/
  | dmaRequestRefused (core : Fin 384) (q : Fin 8) (status : BitVec 8)
  /-- DMA_COMPLETE (R55). -/
  | dmaComplete (core : Fin 384) (q : Fin 8)
  /-- FADD32 (R185). -/
  | fadd32 (addr : BitVec 40) (x : BitVec 32)
  /-- BFADD16 (R185). -/
  | bfadd16 (addr : BitVec 40) (x : BitVec 16)
  /-- FMIN32 (R185). -/
  | fmin32 (addr : BitVec 40) (x : BitVec 32)
  /-- FMAX32 (R185). -/
  | fmax32 (addr : BitVec 40) (x : BitVec 32)
  /-- UMIN32 (R185). -/
  | umin32 (addr : BitVec 40) (x : BitVec 32)
  /-- UMAX32 (R185). -/
  | umax32 (addr : BitVec 40) (x : BitVec 32)
  /-- CAS32 (R185). -/
  | cas32 (addr : BitVec 40) (x : BitVec 64)
  /-- REPLAY (R69). -/
  | replay (core : Fin 384) (code : BitVec 8) (word : Fin 262144)
  /-- LLC_REQUEST (R174). -/
  | llcRequest (addr : BitVec 48) (req : SliceReq)
  /-- NARROW_REQUEST (R183). -/
  | narrowRequest (addr : BitVec 48) (req : SliceReq)
  /-- MCH_BURST_READ (R199). -/
  | mchBurstRead (mch : Fin 768) (burst : BitVec 24) (rd : MchRead)
  /-- MCH_BURST_WRITE (R197). -/
  | mchBurstWrite (mch : Fin 768) (burst : BitVec 24) (data : Bytes) (poison : Bool)
  /-- REFRESH (R203). -/
  | refresh (mch : Fin 768)
  /-- STACK_TEMP_READ (R203). -/
  | stackTempRead (stack : Fin 12) (temp : Int)
  /-- SCRUB_READ (R204). -/
  | scrubRead (mch : Fin 768) (errs : SymErrs)
  /-- PIN_THRESHOLD_REACHED (R207). -/
  | pinThresholdReached (mch : Fin 768) (pin : Fin 38)
  /-- RETRAIN_PERIOD_EXPIRY (R207). -/
  | retrainPeriodExpiry (mch : Fin 768)
  /-- MEM_RETRAIN_GO (R208). -/
  | memRetrainGo (req : Req) (v : BitVec 64)
  /-- RETRAIN_START (R209). -/
  | retrainStart
  /-- RETRAIN_END (R209). -/
  | retrainEnd (bad : BadPins) (bad2 : BadPins)
  /-- AUTO_RETIRE (R212). -/
  | autoRetire (mch : Fin 768)
  /-- MEM_RETIRE_GO (R212). -/
  | memRetireGo (req : Req) (v : BitVec 64)
  /-- MEM_MAP_COMMIT (R213). -/
  | memMapCommit (req : Req) (v : BitVec 64)
  /-- MAP_SWITCH_DONE (R213). -/
  | mapSwitchDone
  /-- PRT_RGN_A_WRITE (R167). -/
  | prtRgnAWrite (req : Req) (p : Fin 8) (i : Fin 4096) (v : BitVec 64)
  /-- REGION_WRITE_COMPLETE (R169). -/
  | regionWriteComplete (p : Fin 8) (i : Fin 4096)
  /-- LLC_COMMIT (R176). -/
  | llcCommit (req : Req) (v : BitVec 64)
  /-- LLC_COMMIT_DONE (R177). -/
  | llcCommitDone
  /-- CROSSING_FLIT_CRC_FAIL (R182). -/
  | crossingFlitCrcFail (x : Fin 12)
  /-- MODULE_REMOVED (R182). -/
  | moduleRemoved (x : Fin 12)
  /-- CXL_MEM_READ (R219). -/
  | cxlMemRead (k : Fin 16) (off : BitVec 48) (len : Fin 65)
  /-- CXL_MEM_WRITE (R219). -/
  | cxlMemWrite (k : Fin 16) (off : BitVec 48) (data : Bytes) (poison : Bool)
  /-- BISNP_RESPONSE (R188). -/
  | bisnpResponse (line : BitVec 48) (dirty : Bool) (data : Bytes)
  /-- SNPDATA (R220). -/
  | snpdata (line : BitVec 48)
  /-- SNPINV (R220). -/
  | snpinv (line : BitVec 48)
  /-- SNPCUR (R220). -/
  | snpcur (line : BitVec 48)
  /-- HOST_WINDOW_TIMEOUT (R220). -/
  | hostWindowTimeout (who : HostReq)
  /-- CXL_LINK_TRAINED (R216). -/
  | cxlLinkTrained (gen : CxlGen) (width : CxlWidth) (rate : CxlRate)
  /-- CXL_LINK_DOWN (R245). -/
  | cxlLinkDown
  /-- CXL_UNCORRECTABLE (R245). -/
  | cxlUncorrectable
  /-- CXL_PERST_N_ASSERT (R474). -/
  | cxlPerstNAssert
  /-- CXL_PERST_N_DEASSERT (R474). -/
  | cxlPerstNDeassert
  /-- DOORBELL (R224). -/
  | doorbell (f : Fin 9) (v : BitVec 64)
  /-- DESCRIPTOR_FETCH (R225). -/
  | descriptorFetch (k : Fin 65536)
  /-- DESCRIPTOR_CHECK (R230). -/
  | descriptorCheck (k : Fin 65536)
  /-- STREAM_NOP (R227). -/
  | streamNop (k : Fin 65536)
  /-- LAUNCH (R228). -/
  | streamLaunch (k : Fin 65536)
  /-- LAUNCH_COMPLETE (R228). -/
  | launchComplete (k : Fin 65536) (seq : BitVec 32)
  /-- COPY (R229). -/
  | streamCopy (k : Fin 65536)
  /-- COPY_COMPLETE (R229). -/
  | copyComplete (k : Fin 65536) (seq : BitVec 32)
  /-- STREAM_FENCE (R233). -/
  | streamFence (k : Fin 65536)
  /-- COMMIT (R234). -/
  | streamCommit (k : Fin 65536)
  /-- SIGNAL (R235). -/
  | streamSignal (k : Fin 65536)
  /-- WAIT (R235). -/
  | waitSignal (k : Fin 65536)
  /-- WAIT_TIMEOUT (R235). -/
  | waitTimeout (k : Fin 65536)
  /-- NETWRITE (R229). -/
  | streamNetwrite (k : Fin 65536)
  /-- NETWRITE_ACK (R229). -/
  | netwriteAck (k : Fin 65536) (seq : BitVec 32)
  /-- NETWRITE_TIMEOUT (R229). -/
  | netwriteTimeout (k : Fin 65536) (seq : BitVec 32)
  /-- STREAM_ENABLE (R223). -/
  | streamEnable (req : Req) (k : Fin 65536) (v : BitVec 64)
  /-- STREAM_DISABLE (R236). -/
  | streamDisable (req : Req) (k : Fin 65536) (v : BitVec 64)
  /-- STREAM_RESUME (R242). -/
  | streamResume (req : Req) (k : Fin 65536) (v : BitVec 64)
  /-- STREAM_HALT (R236). -/
  | streamHalt (req : Req) (k : Fin 65536) (v : BitVec 64)
  /-- STR_CQ_WRITE (R242). -/
  | strCqWrite (req : Req) (k : Fin 65536) (v : BitVec 64)
  /-- STR_HEAD_WRITE (R246). -/
  | strHeadWrite (req : Req) (k : Fin 65536) (v : BitVec 64)
  /-- HEARTBEAT (R239). -/
  | heartbeat (req : Req) (f : Fin 9) (v : BitVec 64)
  /-- HOST_LOST (R239). -/
  | hostLost (f : Fin 9)
  /-- DETACH (R239). -/
  | detach (req : Req) (f : Fin 9)
  /-- ATTACH (R242). -/
  | attach (req : Req) (f : Fin 9)
  /-- HOST_LOSS_GATE (R240). -/
  | hostLossGate (p : Fin 8)
  /-- ETH_LINK_DOWN (R245). -/
  | ethLinkDown (e : EthFall)
  /-- FLIT_RECEIVE (R256). -/
  | flitReceive (link : Fin 64) (flit : RxFlit)
  /-- LINK_REPLAY (R256). -/
  | linkReplay (link : Fin 64)
  /-- FRAME_RECEIVE (R253). -/
  | frameReceive (link : Fin 64) (frame : Bytes)
  /-- MESSAGE_ROUTE (R266). -/
  | messageRoute (link : Fin 64) (m : Msg)
  /-- FABRIC_READ (R165). -/
  | fabricRead (link : Fin 64) (m : Msg)
  /-- FABRIC_WRITE (R165). -/
  | fabricWrite (link : Fin 64) (m : Msg)
  /-- FABRIC_RESPONSE (R254). -/
  | fabricResponse (link : Fin 64) (m : Msg)
  /-- FABRIC_REQUEST_TIMEOUT (R256). -/
  | fabricRequestTimeout (tag : BitVec 32)
  /-- ESC_WAIT_EXPIRY (R267). -/
  | escWaitExpiry (link : Fin 64)
  /-- WAVELENGTH_LOSS (R251). -/
  | wavelengthLoss (link : Fin 64) (w : Fin 4)
  /-- WAVELENGTH_RETRAIN_END (R251). -/
  | wavelengthRetrainEnd (link : Fin 64) (w : Fin 4) (recovered : Bool)
  /-- LINK_DOWN (R269). -/
  | linkDown (link : Fin 64)
  /-- HELLO (R260). -/
  | helloMsg (link : Fin 64) (hello : Bytes)
  /-- HELLO_RETRY (R260). -/
  | helloRetry (link : Fin 64)
  /-- HELLO_REPEAT (R261). -/
  | helloRepeat (link : Fin 64)
  /-- CERT (R353). -/
  | certMsg (link : Fin 64) (cert : Bytes)
  /-- LINK_KEM (R275). -/
  | linkKem (link : Fin 64) (kem : Bytes)
  /-- REKEY (R275). -/
  | rekey (link : Fin 64)
  /-- LNK_MAP_SWAP (R262). -/
  | lnkMapSwap
  /-- LNK_CFG_WRITE (R277). -/
  | lnkCfgWrite (req : Req) (l : Fin 64) (v : BitVec 64)
  /-- LNK_EXPECT_WRITE (R261). -/
  | lnkExpectWrite (req : Req) (l : Fin 64) (v : BitVec 64)
  /-- LNK_MAP_WRITE (R278). -/
  | lnkMapWrite (req : Req) (l : Fin 64) (v : BitVec 64)
  /-- RTE_ENTC_WRITE (R265). -/
  | rteEntcWrite (req : Req) (d : BitVec 15) (v : BitVec 64)
  /-- RTE_CFG_WRITE (R279). -/
  | rteCfgWrite (req : Req) (v : BitVec 64)
  /-- ECLIPSE_FORCE (R271). -/
  | eclipseForce (req : Req) (pair : Fin 30) (v : BitVec 64)
  /-- ECLIPSE_SWITCH_SETTLED (R271). -/
  | eclipseSwitchSettled (pair : Fin 30)
  /-- MARKER_SEND (R457). -/
  | markerSend (link : Fin 64)
  /-- ALL_REDUCE (R297). -/
  | allReduce (k : Fin 65536)
  /-- REDUCE_SCATTER (R297). -/
  | reduceScatter (k : Fin 65536)
  /-- ALL_GATHER (R297). -/
  | allGather (k : Fin 65536)
  /-- ALL_TO_ALL (R299). -/
  | allToAll (k : Fin 65536)
  /-- ALL_TO_ALLV (R300). -/
  | allToAllv (k : Fin 65536)
  /-- BROADCAST (R297). -/
  | broadcastOp (k : Fin 65536)
  /-- REDUCE (R297). -/
  | reduceOp (k : Fin 65536)
  /-- BARRIER (R305). -/
  | barrierOp (k : Fin 65536)
  /-- SEND (R285). -/
  | sendOp (k : Fin 65536)
  /-- RECV (R285). -/
  | recvOp (k : Fin 65536)
  /-- COLLECTIVE_OP_START (R295). -/
  | collectiveOpStart (g : Fin 4096)
  /-- CHUNK_GRANT (R295). -/
  | chunkGrant
  /-- PARTIAL (R297). -/
  | partialMsg (link : Fin 64) (m : Msg)
  /-- FINAL (R302). -/
  | finalMsg (link : Fin 64) (m : Msg)
  /-- DATA (R302). -/
  | dataMsg (link : Fin 64) (m : Msg)
  /-- CREDIT_REQ (R293). -/
  | creditReqMsg (link : Fin 64) (m : Msg)
  /-- CREDIT (R293). -/
  | creditMsg (link : Fin 64) (m : Msg)
  /-- ACK (R302). -/
  | ackMsg (link : Fin 64) (m : Msg)
  /-- NACK (R302). -/
  | nackMsg (link : Fin 64) (m : Msg)
  /-- COUNTS (R300). -/
  | countsMsg (link : Fin 64) (m : Msg)
  /-- STATUS (R305). -/
  | statusMsg (link : Fin 64) (m : Msg)
  /-- DECISION (R305). -/
  | decisionMsg (link : Fin 64) (m : Msg)
  /-- ABORT (R305). -/
  | abortMsg (link : Fin 64) (m : Msg)
  /-- COLLECTIVE_LOCAL_COMPLETE (R305). -/
  | collectiveLocalComplete (op : OpId)
  /-- CHUNK_RESEND_TIMEOUT (R302). -/
  | chunkResendTimeout (op : OpId) (chunk : BitVec 32) (rank : BitVec 15)
  /-- CREDIT_RETRY (R293). -/
  | creditRetry (op : OpId) (chunk : BitVec 32) (rank : BitVec 15)
  /-- AGREEMENT_RESEND (R305). -/
  | agreementResend (op : OpId)
  /-- AGREE_TIMEOUT (R306). -/
  | agreeTimeout (op : OpId)
  /-- COLLECTIVE_STALL (R307). -/
  | collectiveStall (op : OpId)
  /-- STALL_ABORT (R307). -/
  | stallAbort (op : OpId)
  /-- COL_GCMD_READ (R311). -/
  | colGcmdRead (req : Req) (g : Fin 4096)
  /-- COL_GCMD_WRITE (R283). -/
  | colGcmdWrite (req : Req) (g : Fin 4096)
  /-- ACTIVATE (R284). -/
  | activate (req : Req) (g : Fin 4096)
  /-- DEACTIVATE (R284). -/
  | deactivate (req : Req) (g : Fin 4096)
  /-- REFORM (R308). -/
  | reform (req : Req) (g : Fin 4096)
  /-- FATAL_TO_PARTITION (R313). -/
  | fatalToPartition (p : Fin 8) (unit : UnitId) (code : BitVec 8) (addr : BitVec 64)
  /-- FATAL_TO_DEVICE (R314). -/
  | fatalToDevice (unit : UnitId) (code : BitVec 8) (addr : BitVec 64)
  /-- ERROR_RING_ENABLE (R319). -/
  | errorRingEnable (req : Req) (r : Fin 9) (v : BitVec 64)
  /-- UMBRA_FOLD_WINDOW (R326). -/
  | umbraFoldWindow (p : Fin 8)
  /-- UMBRA_WINDOW_APPLY (R326). -/
  | umbraWindowApply (p : Fin 8)
  /-- UMB_APPLY (R327). -/
  | umbApply (req : Req) (p : Fin 8)
  /-- UMB_DISCARD (R327). -/
  | umbDiscard (req : Req) (p : Fin 8)
  /-- UMB_REBUILD (R331). -/
  | umbRebuild (req : Req) (p : Fin 8) (idx : BitVec 4)
  /-- UMB_RESUME (R333). -/
  | umbResume (req : Req) (p : Fin 8)
  /-- UMB_SET_WRITE (R333). -/
  | umbSetWrite (req : Req) (p : Fin 8) (v : BitVec 64)
  /-- ARB_COMMIT (R343). -/
  | arbCommit (req : Req) (d : Fin 10)
  /-- CREATE (R347). -/
  | prtCreate (req : Req) (p : Fin 8)
  /-- SEAL (R361). -/
  | prtSeal (req : Req) (p : Fin 8)
  /-- DESTROY (R348). -/
  | prtDestroy (req : Req) (p : Fin 8)
  /-- ZERO (R347). -/
  | prtZero (req : Req) (p : Fin 8)
  /-- ZERO_COMPLETE (R347). -/
  | zeroComplete
  /-- SEC_ZEROIZE (R352). -/
  | secZeroize (req : Req)
  /-- SEC_FAIL (R351). -/
  | secFail (test : BitVec 64)
  /-- ATTEST (R364). -/
  | attest (req : Req) (f : Fin 9) (p : Fin 8)
  /-- GETCERT (R364). -/
  | getcert (req : Req) (f : Fin 9)
  /-- UNSEAL (R366). -/
  | unseal (req : Req) (f : Fin 9) (p : Fin 8)
  /-- OPEN (R356). -/
  | openSession (ep : Endpoint) (msg : Bytes)
  /-- ACCEPT (R354). -/
  | acceptMsg (ep : Endpoint) (msg : Bytes)
  /-- SESSION_READ (R358). -/
  | sessionRead (ep : Endpoint) (msg : Bytes)
  /-- SESSION_WRITE (R358). -/
  | sessionWrite (ep : Endpoint) (msg : Bytes)
  /-- SESSION_WINDOW (R358). -/
  | sessionWindow (ep : Endpoint) (msg : Bytes)
  /-- SESSION_NOP (R358). -/
  | sessionNop (ep : Endpoint) (msg : Bytes)
  /-- CLOSE (R357). -/
  | closeSession (ep : Endpoint) (msg : Bytes)
  /-- SESSION_IDLE_TIMEOUT (R357). -/
  | sessionIdleTimeout (sess : BitVec 16)
  /-- SESSION_LIFETIME_EXPIRY (R357). -/
  | sessionLifetimeExpiry (sess : BitVec 16)
  /-- STAGE (R391). -/
  | fwStage (req : Req)
  /-- TRANSIT (R391). -/
  | fwTransit (req : Req) (allow : Bool)
  /-- TRANSIT_COMMIT (R391). -/
  | transitCommit (fail : FwFail)
  /-- FW_ABORT (R393). -/
  | fwAbort (req : Req)
  /-- FLASH_WRITE (R395). -/
  | flashWrite (req : Req)
  /-- FLASH_REWRITE (R395). -/
  | flashRewrite (fails : FlashFails)
  /-- UCODE_SWAP (R392). -/
  | ucodeSwap (core : Fin 384) (bad : Fin 4)
  /-- FW_WINDOW_WRITE (R401). -/
  | fwWindowWrite (req : Req) (off : BitVec 16) (data : Bytes)
  /-- BEGIN_IMAGE (R396). -/
  | beginImage (req : Req)
  /-- BEGIN_CONFIG (R396). -/
  | beginConfig (req : Req)
  /-- WRITE (R396). -/
  | recoveryWrite (req : Req)
  /-- RECOVERY_END (R396). -/
  | recoveryEnd (req : Req)
  /-- REBOOT (R396). -/
  | recoveryReboot (req : Req)
  /-- ENTER (R396). -/
  | recoveryEnter (req : Req)
  /-- ROLLBACK_INCREMENT (R382). -/
  | rollbackIncrement (req : Req) (v : BitVec 64)
  /-- SEALPOL_CHANGE (R374). -/
  | sealpolChange (req : Req) (v : BitVec 64)
  /-- FW_COMPONENT_FAULT (R386). -/
  | fwComponentFault (cap : BitVec 4)
  /-- FW_KERNEL_RESTART (R386). -/
  | fwKernelRestart
  /-- HANDOVER_RECORD (R386). -/
  | handoverRecord (cap : BitVec 4) (body : Bytes)
  /-- UCODE_ROUND (R389). -/
  | ucodeRound (lost : LostPackets)
  /-- UCODE_DIGEST_CHECK (R389). -/
  | ucodeDigestCheck (bad : CoreList)
  /-- UCODE_NACK (R389). -/
  | ucodeNack (core : Fin 384)
  /-- STAGE_S0 (R402). -/
  | stageS0 (env : S0Env) (t : StageTime)
  /-- STAGE_S1 (R381). -/
  | stageS1 (env : S1Env) (t : StageTime)
  /-- STAGE_S2 (R402). -/
  | stageS2 (env : S2Env) (t : StageTime)
  /-- STAGE_S3 (R402). -/
  | stageS3 (env : S3Env) (t : StageTime)
  /-- STAGE_S4 (R406). -/
  | stageS4 (env : S4Env) (t : StageTime)
  /-- STAGE_S5 (R402). -/
  | stageS5 (env : S5Env) (t : StageTime)
  /-- STAGE_S6 (R407). -/
  | stageS6 (env : S6Env) (t : StageTime)
  /-- STAGE_S7 (R402). -/
  | stageS7 (t : StageTime)
  /-- STAGE_S8 (R411). -/
  | stageS8 (t : StageTime)
  /-- RESET_CORE (R414). -/
  | resetCore (req : Req) (target : Fin 384)
  /-- RESET_CLUSTER (R414). -/
  | resetCluster (req : Req) (target : Fin 32)
  /-- RESET_PARTITION (R417). -/
  | resetPartition (req : Req) (target : Fin 8)
  /-- RESET_DEVICE (R420). -/
  | resetDevice (req : Req)
  /-- RESET_DONE (R414). -/
  | resetDone
  /-- PKG_RST_N_ASSERT (R473). -/
  | pkgRstNAssert (ns : Nat)
  /-- PKG_RST_N_DEASSERT (R473). -/
  | pkgRstNDeassert
  /-- SETPOINT_WRITE (R421). -/
  | setpointWrite (req : Req) (src : Fin 3) (v : BitVec 64)
  /-- LEASE_EXPIRY (R422). -/
  | leaseExpiry (src : Fin 3)
  /-- GOVERNOR_TICK (R424). -/
  | governorTick (ps : Nat) (pd : Nat)
  /-- RAMP_WINDOW (R426). -/
  | rampWindow (est : Nat) (meas : Nat)
  /-- PARK_GATE (R427). -/
  | parkGate
  /-- STACK_SELF_REFRESH (R427). -/
  | stackSelfRefresh (stack : Fin 12)
  /-- AVSBUS_POLL (R431). -/
  | avsbusPoll (rails : RailReads)
  /-- HALO_TEMP_SAMPLE (R434). -/
  | haloTempSample (env : TempReads)
  /-- DMIN_RELEASE (R434). -/
  | dminRelease
  /-- OVERCURRENT_HOLD_END (R434). -/
  | overcurrentHoldEnd
  /-- CLOCK_FAULT (R434). -/
  | clockFault (die : Fin 10)
  /-- WATCHDOG_KICK (R433). -/
  | watchdogKick
  /-- WATCHDOG_EXPIRY (R433). -/
  | watchdogExpiry
  /-- LOCKSTEP_MISMATCH (R436). -/
  | lockstepMismatch
  /-- SAFETY_SELF_CHECK (R436). -/
  | safetySelfCheck (seen : Bool) (pinOk : Bool)
  /-- SAF_REQ (R437). -/
  | safReq (req : Req)
  /-- OPEN_FIBRE_DETECT (R439). -/
  | openFibreDetect (link : Fin 64)
  /-- OFC_PROBE (R439). -/
  | ofcProbe (link : Fin 64) (light : Bool)
  /-- VDD_HALO_LOW (R483). -/
  | vddHaloLow
  /-- VDD_ECL_LOSS (R483). -/
  | vddEclLoss
  /-- I3C_READ (R440). -/
  | i3cRead (off : BitVec 28)
  /-- I3C_WRITE (R440). -/
  | i3cWrite (off : BitVec 28) (v : BitVec 64)
  /-- ENTDAA (R440). -/
  | entdaa (addr : BitVec 7)
  /-- TAIL_PACKET_ADMIT (R449). -/
  | tailPacketAdmit (b : Fin 9) (pkt : TailPkt)
  /-- POST_WINDOW_END (R449). -/
  | postWindowEnd (b : Fin 9)
  /-- CRASH_FREEZE (R451). -/
  | crashFreeze (b : Fin 9)
  /-- SYNC_PACKET (R456). -/
  | syncPacket (d : Fin 10)
  /-- TRC_ENABLE (R448). -/
  | trcEnable (req : Req) (b : Fin 9) (v : BitVec 64)
  /-- TRC_STOP (R454). -/
  | trcStop (req : Req) (b : Fin 9) (v : BitVec 64)
  /-- REARM (R454). -/
  | trcRearm (req : Req) (b : Fin 9)
  /-- TRIGGER (R450). -/
  | trcTrigger (req : Req) (b : Fin 9)
  /-- SAMPLER_ENABLE (R458). -/
  | samplerEnable (req : Req) (r : Fin 9) (v : BitVec 64)
  /-- SAMPLER_SNAPSHOT (R460). -/
  | samplerSnapshot (r : Fin 9)
  /-- NUMERIC_WATCH_CLEAR (R463). -/
  | numericWatchClear (req : Req) (v : BitVec 64)
  /-- DEBUG_HALT (R466). -/
  | debugHalt (req : Req) (core : Fin 384)
  /-- DEBUG_RESUME (R466). -/
  | debugResume (req : Req) (core : Fin 384)
  /-- STEP (R466). -/
  | debugStep (req : Req) (core : Fin 384)
  /-- CORE_DREG_WRITE (R466). -/
  | coreDregWrite (req : Req) (core : Fin 384) (i : Fin 145) (v : BitVec 64)
  /-- RC_READ (R15). -/
  | rcRead (req : Req) (off : BitVec 28) (len : Nat)
  /-- PARTITION_COUNTER_READ (R369). -/
  | partitionCounterRead (p : Fin 8) (off : BitVec 28)
  /-- REGISTER_WRITE (R490). -/
  | registerWrite (req : Req) (off : BitVec 28) (data : Bytes)
  /-- FEC_LOCK (R260). -/
  | fecLock (link : Fin 64)
  /-- ETH_LINK_UP (R243). -/
  | ethLinkUp (e : EthRise)
  /-- RESPONSE (R354). -/
  | responseMsg (ep : Endpoint) (msg : Bytes)
  /-- UNSEAL_COMPLETE (R366). -/
  | unsealComplete (f : Fin 9)
  /-- DESTROY_COMPLETE (R348). -/
  | destroyComplete
  /-- HCLK_FAULT (R436). -/
  | hclkFault
  /-- VDD_HALO_UP (R26). -/
  | vddHaloUp
  /-- SPDM_IDE_KM (R353). -/
  | spdmIdeKm (msg : Bytes) (ok : Bool)
  /-- GLOBAL_PERSISTENT_FLUSH (R216). -/
  | globalPersistentFlush
  /-- JTAG_INSTRUCTION_LOAD (R477). -/
  | jtagInstructionLoad (ins : JtagIns)
  deriving DecidableEq, Repr

end Sys2Proof
end

