-- ==== Sys2Proof/Machine/Bits.lean ====
section
/-! DEFINITION. Bit fields of words, byte lists in little-endian order (R11), and small list helpers. -/

namespace Sys2Proof.Machine

/-- Bits `hi` down to `lo` of `n`, as a number. -/
def bitsOf (n hi lo : Nat) : Nat := (n / 2 ^ lo) % 2 ^ (hi + 1 - lo)

/-- `n` with bits `hi` down to `lo` replaced by the low bits of `v`. -/
def setBits (n hi lo v : Nat) : Nat :=
  n - bitsOf n hi lo * 2 ^ lo + (v % 2 ^ (hi + 1 - lo)) * 2 ^ lo

/-- Bit `i` of `n`. -/
def bitAt (n i : Nat) : Bool := (n / 2 ^ i) % 2 = 1

/-- `n` with bit `i` set to `b`. -/
def setBit (n i : Nat) (b : Bool) : Nat := setBits n i i (if b then 1 else 0)

/-- The number a byte list spells, byte 0 least significant (R11). -/
def leVal : List (BitVec 8) → Nat
  | [] => 0
  | b :: bs => b.toNat + 256 * leVal bs

/-- The `k` bytes of `n`, byte 0 least significant (R11). -/
def leBytes : Nat → Nat → List (BitVec 8)
  | 0, _ => []
  | k + 1, n => BitVec.ofNat 8 n :: leBytes k (n / 256)

/-- The number in bytes `off` to `off + len - 1` of a record. -/
def recField (bs : List (BitVec 8)) (off len : Nat) : Nat := leVal ((bs.drop off).take len)

/-- A record with bytes `off` onwards replaced by `v`. -/
def recPut (bs : List (BitVec 8)) (off : Nat) (v : List (BitVec 8)) : List (BitVec 8) :=
  bs.take off ++ v ++ bs.drop (off + v.length)

/-- A record of `n` zero bytes. -/
def zeroBytes (n : Nat) : List (BitVec 8) := List.replicate n 0

/-- A record of `n` zero bytes with fields (offset, length, value) placed in it. -/
def mkRec (n : Nat) (fs : List (Nat × Nat × Nat)) : List (BitVec 8) :=
  fs.foldl (fun bs f => recPut bs f.1 (leBytes f.2.1 f.2.2)) (zeroBytes n)

/-- `a / b` rounded up. -/
def ceilDiv (a b : Nat) : Nat := (a + b - 1) / b

/-- `n` rounded up to a multiple of `k`. -/
def roundUp (n k : Nat) : Nat := ceilDiv n k * k

/-- The two's-complement value of the low `w` bits of `n`. -/
def sextN (w n : Nat) : Int :=
  let m := n % 2 ^ w
  if m < 2 ^ (w - 1) then (m : Int) else (m : Int) - (2 ^ w : Nat)

/-- The low `w` bits of an integer, two's complement. -/
def wrapI (w : Nat) (i : Int) : Nat := (i % (2 ^ w : Nat)).toNat

/-- Addition that stays at the all-ones value of `w` bits. -/
def satAdd (w a b : Nat) : Nat := min (a + b) (2 ^ w - 1)

/-- The number of ones among the low `w` bits of `n`. -/
def popCount : Nat → Nat → Nat
  | 0, _ => 0
  | w + 1, n => n % 2 + popCount w (n / 2)

/-- The bits `i < w` of `n` that are 1, in increasing order. -/
def onesOf (w n : Nat) : List Nat := (List.range w).filter (bitAt n)

/-- The greatest `k ≤ w` with `2 ^ k ≤ n`, for `0 < n < 2 ^ (w + 1)`; 0 for 0. -/
def log2Nat (n : Nat) : Nat := Nat.log2 n

/-- The list with element `i` replaced (unchanged past the end). -/
def putAt {α : Type} (l : List α) (i : Nat) (a : α) : List α := l.set i a

/-- Exclusive or of two byte lists, the shorter one's length. -/
def xorBytes (a b : List (BitVec 8)) : List (BitVec 8) := List.zipWith (· ^^^ ·) a b

/-- Cut a list into pieces of `k`, with at most `fuel` pieces. -/
def chunksOf {α : Type} (k : Nat) : Nat → List α → List (List α)
  | 0, _ => []
  | fuel + 1, l => if l.isEmpty then [] else l.take k :: chunksOf k fuel (l.drop k)

/-- The first element that satisfies `p`, with its place. -/
def findIdx? {α : Type} (p : α → Bool) (l : List α) : Option Nat :=
  (List.range l.length).find? fun i => match l[i]? with | some a => p a | none => false

end Sys2Proof.Machine
end

