-- ==== Sys2Proof/Machine/Crc.lean ====
section
/-! DEFINITION. The check sums of the spec: CRC-32C (R226), CRC-64/XZ (R229), and the burst code RS(72,64) over GF(2^8) (R197-R200). -/

namespace Sys2Proof.Machine

/-- One bit of a reflected CRC. -/
def crcBit (poly c : Nat) : Nat := if c % 2 = 1 then c / 2 ^^^ poly else c / 2

/-- One byte of a reflected CRC. -/
def crcByte (poly c : Nat) (b : BitVec 8) : Nat :=
  (List.range 8).foldl (fun c _ => crcBit poly c) (c ^^^ b.toNat)

/-- CRC-32C over bytes (R226): polynomial 0x1EDC6F41 reflected. -/
def crc32c (bs : List (BitVec 8)) : Nat := bs.foldl (crcByte 0x82F63B78) 0xFFFFFFFF ^^^ 0xFFFFFFFF

/-- CRC-64/XZ over bytes (R229): polynomial 0x42F0E1EBA9EA3693 reflected. -/
def crc64xz (bs : List (BitVec 8)) : Nat :=
  bs.foldl (crcByte 0xC96C5795D7870F42) 0xFFFFFFFFFFFFFFFF ^^^ 0xFFFFFFFFFFFFFFFF

/-! ### GF(2^8) with x^8 + x^4 + x^3 + x^2 + 1 (R197) -/

/-- Times alpha. -/
def gfDouble (a : Nat) : Nat := if 128 ≤ a then (2 * a) % 256 ^^^ 0x1D else 2 * a

/-- The product, from the low `k` bits of `b`. -/
def gfMulK : Nat → Nat → Nat → Nat
  | 0, _, _ => 0
  | k + 1, a, b => (if b % 2 = 1 then a else 0) ^^^ gfMulK k (gfDouble a) (b / 2)

/-- The product in GF(2^8). -/
def gfMul (a b : Nat) : Nat := gfMulK 8 a b

/-- alpha^k. -/
def gfPow (k : Nat) : Nat := (List.range k).foldl (fun a _ => gfDouble a) 1

/-- The inverse a^254. -/
def gfInv (a : Nat) : Nat :=
  (List.range 7).foldl (fun (p : Nat × Nat) _ => let q := gfMul p.2 p.2; (gfMul p.1 q, q)) (1, a) |>.1

/-- The generator polynomial of R197 without its leading 1, highest power first. -/
def rsGen : List Nat :=
  ((List.range 8).foldl (fun g i =>
    let r := gfPow i
    List.zipWith (· ^^^ ·) (g ++ [0]) (0 :: g.map (gfMul r))) [1]).tail

/-- The eight check symbols of 64 data symbols (R197). -/
def rsCheck (d : List Nat) : List Nat :=
  d.foldl (fun r c =>
    let f := c ^^^ r.headD 0
    List.zipWith (· ^^^ ·) (r.tail ++ [0]) (rsGen.map (gfMul f))) (List.replicate 8 0)

/-- The word of a poisoned burst: data symbols 0x00, check symbols 0x9C (R200). -/
def poisonWord : List Nat := List.replicate 64 0 ++ List.replicate 8 0x9C

/-- Syndrome `i`: the word's value at alpha^i. -/
def rsSyndrome (c : List Nat) (i : Nat) : Nat := let a := gfPow i; c.foldl (fun s x => gfMul s a ^^^ x) 0

/-- Evaluate a polynomial given lowest power first. -/
def gfEval (p : List Nat) (x : Nat) : Nat := p.foldr (fun c s => c ^^^ gfMul s x) 0

/-- One row operation of elimination: rows are lists with the constant last. -/
def gfReduce (p : List Nat) (k : Nat) (r : List Nat) : List Nat :=
  let f := r.getD k 0
  List.zipWith (fun a b => a ^^^ gfMul f b) r p

/-- Gauss-Jordan elimination of a square system of `n` rows with the constant last, from column `k`; `none` when it is singular. -/
def gfSolve : Nat → Nat → List (List Nat) → Option (List (List Nat))
  | 0, _, rows => some rows
  | fuel + 1, k, rows =>
    match (rows.drop k).find? fun r => r.getD k 0 ≠ 0 with
    | none => none
    | some p =>
      let p' := p.map (gfMul (gfInv (p.getD k 0)))
      let rest := rows.take k ++ (rows.drop k).erase p
      let rows' := (rest.map (gfReduce p' k))
      gfSolve fuel (k + 1) (rows'.take k ++ [p'] ++ rows'.drop k)

/-- The locators alpha^(71 - j) of symbol places. -/
def rsLoc (j : Nat) : Nat := gfPow (71 - j)

/-- The magnitudes at known places that give the syndromes `s`, from the first equations. -/
def rsMagnitudes (s : List Nat) (places : List Nat) : Option (List Nat) :=
  let n := places.length
  let pw := fun (x k : Nat) => (List.range k).foldl (fun a _ => gfMul a x) 1
  let rows := (List.range n).map fun i => places.map (fun j => pw (rsLoc j) i) ++ [s.getD i 0]
  (gfSolve n 0 rows).map fun r => r.map fun row => row.getD n 0

/-- The error pattern a word with syndromes `s` shows when some `v` symbol errors beside the erased places explain it (R199). -/
def rsTry (s : List Nat) (erased : List Nat) (v : Nat) : Option (List (Nat × Nat)) :=
  let e := erased.length
  -- modified syndromes: the erasure locator times the syndromes
  let el := erased.foldl (fun p j => List.zipWith (· ^^^ ·) (p ++ [0]) (0 :: p.map (gfMul (rsLoc j)))) [1]
  let t := fun (i : Nat) => (List.range (e + 1)).foldl (fun a k => a ^^^ gfMul (el.getD k 0) (s.getD (i - k) 0)) 0
  let rows := (List.range v).map fun i => ((List.range v).map fun k => t (e + i + k)) ++ [t (e + i + v)]
  match gfSolve v 0 rows with
  | none => none
  | some r =>
    -- locator polynomial, lowest power first: 1 + c1 x + ... with c_(v-k) from row k
    let lam := 1 :: ((List.range v).map fun k => (r.getD (v - 1 - k) []).getD v 0)
    let roots := (List.range 72).filter fun j => gfEval lam (gfInv (rsLoc j)) = 0
    let places := erased ++ roots.filter (!erased.contains ·)
    if roots.length ≠ v then none
    else
      match rsMagnitudes s places with
      | none => none
      | some ms =>
        let pat := places.zip ms
        let word := pat.foldl (fun w p => w.set p.1 p.2) (List.replicate 72 0)
        if (List.range 8).all fun i => rsSyndrome word i = s.getD i 0 then some (pat.filter (·.2 ≠ 0)) else none

/-- The decoder of R199 on an error pattern of 72 symbols: the pattern it corrects, or `none` for uncorrectable. A pin erased means two erased symbols. -/
def rsDecode (errs : List Nat) (erasedPin : Option Nat) : Option (List (Nat × Nat)) :=
  let s := (List.range 8).map (rsSyndrome errs)
  if s.all (· = 0) then some []
  else match erasedPin with
    | none => rsTry s [] 1 <|> rsTry s [] 2 <|> rsTry s [] 3 <|> rsTry s [] 4
    | some p =>
      let er := [2 * p, 2 * p + 1]
      rsTry s er 0 <|> rsTry s er 1 <|> rsTry s er 2 <|> rsTry s er 3

end Sys2Proof.Machine
end

