-- ==== Sys2Proof/Config.lean ====
section
/-! DEFINITION. What an implementation fixes and the free values: constants without a body, so that nothing can evaluate them or prove a value of them. Each is named in the assumption log. -/

namespace Sys2Proof.Config

/-- A fresh free word for each count of State.free. -/
opaque freeWord : Nat → Word

/-- GELU of the output path (R119, ACT 3) on a finite W48 value. -/
opaque gelu48 : BitVec 48 → BitVec 48

/-- SiLU of the output path (R119, ACT 4) on a finite W48 value. -/
opaque silu48 : BitVec 48 → BitVec 48

/-- The FP32 result of transcendental opcode `op` (R151) on an operand outside its special cases. -/
opaque transcend : BitVec 8 → BitVec 32 → BitVec 32

/-- The fixed hash of a source and a target port number that chooses a module of a crossing, and a column between the I/O dies (R21, R179). -/
opaque portHash : Nat → Nat → Nat

/-- The SHAKE256 digest, 64 bytes, of a message (R9, R374). -/
opaque shake256 : Bytes → BitVec 512

/-- Bytes 64 to 71 of the SHAKE256 output, after the 64 of `shake256` (R356). -/
opaque shakeTail : Bytes → BitVec 64

/-- An Ed448 signature (114 bytes) with the key of a given number over a message. -/
opaque ed448Sign : Nat → Bytes → BitVec 912

/-- AES-256-GCM encryption: key number, nonce, additional data, plaintext; the ciphertext. -/
opaque gcmSeal : Nat → Bytes → Bytes → Bytes → Bytes

/-- AES-256-GCM tag of the same inputs, 16 bytes. -/
opaque gcmTag : Nat → Bytes → Bytes → Bytes → BitVec 128

/-- AES-256-GCM decryption: key number, nonce, additional data, ciphertext; the plaintext. -/
opaque gcmOpen : Nat → Bytes → Bytes → Bytes → Bytes

/-- A key derived from a secret and a label. -/
opaque deriveKey : Nat → Bytes → Nat

/-- An Ed448 signature verifies: public key, message, signature (R259, R356). -/
opaque ed448Verify : Bytes → Bytes → Bytes → Bool

/-- A management certificate verifies under the fleet CA root (R353); the serial number and the public key it certifies. -/
opaque certVerify : Bytes → Bool
opaque certSerial : Bytes → BitVec 48
opaque certKey : Bytes → Bytes

/-- The link key establishment message made from a secret, and whether one received is authentic under the peer's key (R275). -/
opaque kemMessage : Nat → Bytes
opaque kemVerify : Bytes → Bytes → Bool

/-- The TYPE of RSP and of COL messages, which the source does not give (R254). -/
opaque rspType : BitVec 8
opaque colType : BitVec 8

/-- Ouvfen's firmware key in the boot ROM (R380), and the digest of that ROM (R364). -/
opaque romKey : Bytes
opaque romDigest : BitVec 512

/-- ML-KEM-1024 encapsulation to a key with a random number: ciphertext and shared secret (R356). -/
opaque kemEncaps : Bytes → Nat → Bytes × Bytes

/-- ML-KEM-1024: the encapsulation key of key pair `k`, and decapsulation of a ciphertext under it (R361, R365). -/
opaque kemKey : Nat → Bytes
opaque kemDecaps : Nat → Bytes → Bytes

/-- AES-256 key unwrap of 40 bytes under a key of 32 bytes; none when the integrity check fails (R366). -/
opaque kwUnwrap : Bytes → Bytes → Option Bytes

/-- AES-256-GCM under a key given as bytes: plaintext of a segment, or none when its tag fails: key, nonce, additional data, ciphertext, tag (R365). -/
opaque gcmOpenTagged : Bytes → Bytes → Bytes → Bytes → Bytes → Option Bytes

/-- The device identity and management certificates' place in flash's identity sector: offset and length of each (R353, R376). -/
opaque identCert : Nat × Nat
opaque mgmtCert : Nat × Nat

/-- Whether the configuration block of a digest leaves the test port's internal-access instructions unlocked (R360, R465); the spec gives no register for it. -/
opaque jtagUnlocked : Nat → Bool

/-- The format version of a component's handover record (R390), by capability. -/
opaque handoverVersion : Nat → BitVec 16

/-- The body of a component's handover record, its own format (R390): capability and a free number. -/
opaque handoverBody : Nat → Nat → Bytes

end Sys2Proof.Config
end

