-- ==== Sys2Proof/Machine/Regs.lean ====
section
/-! DEFINITION. The register space (R162, R488, R497): every register's name, offset, fields, access codes and reset value. -/

namespace Sys2Proof.Machine

/-- The access codes of R15. -/
inductive Acc where
  | ro | rw | wo | w1c | w1s | rc | rwh | rwl | rwf | rws
  deriving DecidableEq, Repr

/-- One field of a register: its bits, its access code from the operator's view and from a partition's view (R15). -/
structure FldSpec where
  hi : Nat
  lo : Nat
  op : Acc
  pt : Acc
  rst : Nat
  deriving DecidableEq, Repr

/-- The arbiter types present on die `d` (R334): scratchpad banks and DMA generators on the compute dies 0-3, mesh outputs and crossings on every die, slices and MCHs on the memory dies 4-7, link transmit and collective issue on the I/O dies 8 and 9, and stream fetch on the north I/O die 8. -/
def arbPresent (d t : Nat) : Bool :=
  match t with
  | 0 | 1 => d < 4
  | 2 | 3 => d < 10
  | 4 | 5 => 4 ≤ d && d < 8
  | 6 | 7 => d = 8 || d = 9
  | 8 => d = 8
  | _ => false

/-- The registers of R497, one constructor each; the arguments number repeated registers. -/
inductive Reg where
  | strRing (s : Nat)
  | strCq (s : Nat)
  | strCtl (s : Nat)
  | strCqhead (s : Nat)
  | strStat (s : Nat)
  | strHead (s : Nat)
  | strScnt (s : Nat)
  | strCtx
  | strDb
  | cntScfg (r : Nat)
  | cntSbase (r : Nat)
  | cntSlist (r : Nat)
  | cntShead (r : Nat)
  | cntSstat (r : Nat)
  | cntCtag (n : Nat)
  | cntCbund (n : Nat)
  | cntCstall (n : Nat)
  | cntCrows (n : Nat)
  | cntNw (p : Nat) (t : Nat) (w : Nat)
  | cntTrap (n : Nat) (w : Nat)
  | cntTrapst (n : Nat)
  | cntNwclr
  | coreStatus (n : Nat)
  | coreErr (n : Nat)
  | coreFence (n : Nat)
  | coreDbg (n : Nat)
  | coreBkpt (n : Nat)
  | coreDreg (n : Nat) (i : Nat)
  | coreVcfg (p : Nat)
  | coreVmap (p : Nat) (v : Nat)
  | mxeCtl (n : Nat)
  | mxeStat (n : Nat)
  | mxeCkctl (n : Nat)
  | mxeCkcnt (n : Nat)
  | mxeCklast (n : Nat)
  | mxePerf (n : Nat)
  | vxeStat (n : Nat)
  | vxeFlags (n : Nat)
  | vxePerf (n : Nat)
  | spmEcc (n : Nat)
  | rteCfg
  | rteShape
  | rtePrimary (d : Nat)
  | rteDetour (d : Nat)
  | rteEntc (d : Nat)
  | prtCfg (p : Nat)
  | prtStat (p : Nat)
  | prtCmd
  | prtCmdarg
  | prtRgnA (p : Nat) (i : Nat)
  | prtRgnB (p : Nat) (i : Nat)
  | mgtFwstat
  | mgtFwcmd
  | mgtFwarg
  | mgtFwarea
  | mgtRollback
  | mgtLimits
  | mgtCapstat
  | mgtRcmd
  | mgtFwwin (w : Nat)
  | mgtErrbase (r : Nat)
  | mgtErrhead (r : Nat)
  | mgtErrstat (r : Nat)
  | mgtErrirq (r : Nat)
  | memMchStat (m : Nat)
  | memMchEcc (m : Nat)
  | memMchPin (m : Nat)
  | memCfg
  | memRetrain
  | memRetire
  | memMap
  | memLive (i : Nat)
  | memStack (s : Nat)
  | nocXstat (x : Nat)
  | llcGrp (g : Nat)
  | llcCommit
  | lnkCfg (l : Nat)
  | lnkStat (l : Nat)
  | lnkPeerId (l : Nat)
  | lnkPeerInfo (l : Nat)
  | lnkExpect (l : Nat)
  | lnkCnt (l : Nat)
  | lnkFec (l : Nat)
  | lnkMap (l : Nat)
  | lnkEcl (p : Nat)
  | colCfg
  | colPool
  | colPriv
  | colPoolstat
  | colStat
  | colGcmd
  | colGdata0
  | colGdata1
  | colGdata2
  | colGdata3
  | colChcfg (c : Nat)
  | colChcnt (c : Nat)
  | colChdrop (c : Nat)
  | hstHb (f : Nat)
  | hstHbcfg (f : Nat)
  | hstAttach (f : Nat)
  | hstFstat (f : Nat)
  | hstHdm (k : Nat)
  | hstId0
  | hstId1
  | ethCfg (p : Nat)
  | ethStat (p : Nat)
  | safStat
  | safAlert
  | safThr0
  | safThr1
  | safProp0
  | safProp1
  | safReq
  | safLaser
  | safStore (w : Nat)
  | secStat
  | secSealpol
  | secZeroize
  | secMsess
  | secOpauth (i : Nat)
  | mbxCmd (f : Nat)
  | mbxArg (f : Nat) (a : Nat)
  | trcBcfg (b : Nat)
  | trcBbase (b : Nat)
  | trcBctl (b : Nat)
  | trcBstat (b : Nat)
  | trcBtrig (b : Nat)
  | trcBloss (b : Nat)
  | trcTrig (b : Nat) (i : Nat)
  | trcSrcen (b : Nat) (w : Nat)
  | trcMkr
  | trcRdpos
  | trcRdwin (w : Nat)
  | pwrSp (s : Nat)
  | pwrStat
  | pwrTel
  | pwrGov
  | pwrTen
  | pwrRail (r : Nat)
  | pwrVf (i : Nat)
  | rstCmd
  | rstStat
  | bootStatus
  | bootCtl
  | bootReport (s : Nat) (w : Nat)
  | bootFloorplan (w : Nat)
  | bootFdr (w : Nat)
  | arbCommit (d : Nat)
  | arbCls (d : Nat) (t : Nat) (j : Nat)
  | arbMaxwait (d : Nat) (t : Nat)
  | umbSet (p : Nat)
  | umbProt (p : Nat)
  | umbRows (p : Nat)
  | umbPar (p : Nat)
  | umbWin (p : Nat)
  | umbStat (p : Nat)
  | umbCmd (p : Nat)
  | umbRange (p : Nat)
  deriving DecidableEq, Repr

/-- The offset of a register within the register space (R488, R497). -/
def Reg.off : Reg → Nat
  | .strRing s => 0x0 + s * 0x40
  | .strCq s => 0x8 + s * 0x40
  | .strCtl s => 0x10 + s * 0x40
  | .strCqhead s => 0x18 + s * 0x40
  | .strStat s => 0x20 + s * 0x40
  | .strHead s => 0x28 + s * 0x40
  | .strScnt s => 0x30 + s * 0x40
  | .strCtx => 0x400000
  | .strDb => 0x400100
  | .cntScfg r => 0x800000 + r * 0x40
  | .cntSbase r => 0x800008 + r * 0x40
  | .cntSlist r => 0x800010 + r * 0x40
  | .cntShead r => 0x800018 + r * 0x40
  | .cntSstat r => 0x800020 + r * 0x40
  | .cntCtag n => 0x900000 + n * 0x20
  | .cntCbund n => 0x900008 + n * 0x20
  | .cntCstall n => 0x900010 + n * 0x20
  | .cntCrows n => 0x900018 + n * 0x20
  | .cntNw p t w => 0xa00000 + p * 0x40000 + t * 0x40 + w * 0x8
  | .cntTrap n w => 0xc00000 + n * 0x40 + w * 0x8
  | .cntTrapst n => 0xc10000 + n * 0x8
  | .cntNwclr => 0xc20000
  | .coreStatus n => 0x1000000 + n * 0x1000
  | .coreErr n => 0x1000008 + n * 0x1000
  | .coreFence n => 0x1000010 + n * 0x1000
  | .coreDbg n => 0x1000018 + n * 0x1000
  | .coreBkpt n => 0x1000020 + n * 0x1000
  | .coreDreg n i => 0x1000400 + n * 0x1000 + i * 0x8
  | .coreVcfg p => 0x1180000 + p * 0x1000
  | .coreVmap p v => 0x1180100 + p * 0x1000 + v * 0x8
  | .mxeCtl n => 0x1200000 + n * 0x1000
  | .mxeStat n => 0x1200008 + n * 0x1000
  | .mxeCkctl n => 0x1200010 + n * 0x1000
  | .mxeCkcnt n => 0x1200018 + n * 0x1000
  | .mxeCklast n => 0x1200020 + n * 0x1000
  | .mxePerf n => 0x1200028 + n * 0x1000
  | .vxeStat n => 0x1400000 + n * 0x1000
  | .vxeFlags n => 0x1400008 + n * 0x1000
  | .vxePerf n => 0x1400010 + n * 0x1000
  | .spmEcc n => 0x1600000 + n * 0x1000
  | .rteCfg => 0x1800000
  | .rteShape => 0x1800008
  | .rtePrimary d => 0x1900000 + d * 0x20
  | .rteDetour d => 0x1900008 + d * 0x20
  | .rteEntc d => 0x1900010 + d * 0x20
  | .prtCfg p => 0x1a00000 + p * 0x100
  | .prtStat p => 0x1a00008 + p * 0x100
  | .prtCmd => 0x1a01000
  | .prtCmdarg => 0x1a01008
  | .prtRgnA p i => 0x1b00000 + p * 0x10000 + i * 0x10
  | .prtRgnB p i => 0x1b00008 + p * 0x10000 + i * 0x10
  | .mgtFwstat => 0x1c00000
  | .mgtFwcmd => 0x1c00008
  | .mgtFwarg => 0x1c00010
  | .mgtFwarea => 0x1c00018
  | .mgtRollback => 0x1c00020
  | .mgtLimits => 0x1c00028
  | .mgtCapstat => 0x1c00030
  | .mgtRcmd => 0x1c00038
  | .mgtFwwin w => 0x1c10000 + w * 0x8
  | .mgtErrbase r => 0x1c20000 + r * 0x20
  | .mgtErrhead r => 0x1c20008 + r * 0x20
  | .mgtErrstat r => 0x1c20010 + r * 0x20
  | .mgtErrirq r => 0x1c20018 + r * 0x20
  | .memMchStat m => 0x1d00000 + m * 0x40
  | .memMchEcc m => 0x1d00008 + m * 0x40
  | .memMchPin m => 0x1d00010 + m * 0x40
  | .memCfg => 0x1d10000
  | .memRetrain => 0x1d10008
  | .memRetire => 0x1d10010
  | .memMap => 0x1d10018
  | .memLive i => 0x1d10100 + i * 0x8
  | .memStack s => 0x1d10200 + s * 0x8
  | .nocXstat x => 0x1e00000 + x * 0x8
  | .llcGrp g => 0x1e10000 + g * 0x8
  | .llcCommit => 0x1e10300
  | .lnkCfg l => 0x1e20000 + l * 0x100
  | .lnkStat l => 0x1e20008 + l * 0x100
  | .lnkPeerId l => 0x1e20010 + l * 0x100
  | .lnkPeerInfo l => 0x1e20018 + l * 0x100
  | .lnkExpect l => 0x1e20020 + l * 0x100
  | .lnkCnt l => 0x1e20028 + l * 0x100
  | .lnkFec l => 0x1e20030 + l * 0x100
  | .lnkMap l => 0x1e24000 + l * 0x8
  | .lnkEcl p => 0x1e25000 + p * 0x8
  | .colCfg => 0x1e30000
  | .colPool => 0x1e30008
  | .colPriv => 0x1e30010
  | .colPoolstat => 0x1e30018
  | .colStat => 0x1e30020
  | .colGcmd => 0x1e30028
  | .colGdata0 => 0x1e30030
  | .colGdata1 => 0x1e30038
  | .colGdata2 => 0x1e30040
  | .colGdata3 => 0x1e30048
  | .colChcfg c => 0x1e31000 + c * 0x20
  | .colChcnt c => 0x1e31008 + c * 0x20
  | .colChdrop c => 0x1e31010 + c * 0x20
  | .hstHb f => 0x1e40000 + f * 0x100
  | .hstHbcfg f => 0x1e40008 + f * 0x100
  | .hstAttach f => 0x1e40010 + f * 0x100
  | .hstFstat f => 0x1e40018 + f * 0x100
  | .hstHdm k => 0x1e41000 + k * 0x8
  | .hstId0 => 0x1e42000
  | .hstId1 => 0x1e42008
  | .ethCfg p => 0x1e50000 + p * 0x100
  | .ethStat p => 0x1e50008 + p * 0x100
  | .safStat => 0x1e60000
  | .safAlert => 0x1e60008
  | .safThr0 => 0x1e60010
  | .safThr1 => 0x1e60018
  | .safProp0 => 0x1e60020
  | .safProp1 => 0x1e60028
  | .safReq => 0x1e60030
  | .safLaser => 0x1e60038
  | .safStore w => 0x1e60800 + w * 0x8
  | .secStat => 0x1e70000
  | .secSealpol => 0x1e70008
  | .secZeroize => 0x1e70010
  | .secMsess => 0x1e70018
  | .secOpauth i => 0x1e70040 + i * 0x8
  | .mbxCmd f => 0x1e71000 + f * 0x40
  | .mbxArg f a => 0x1e71008 + f * 0x40 + a * 0x8
  | .trcBcfg b => 0x1e80000 + b * 0x100
  | .trcBbase b => 0x1e80008 + b * 0x100
  | .trcBctl b => 0x1e80010 + b * 0x100
  | .trcBstat b => 0x1e80018 + b * 0x100
  | .trcBtrig b => 0x1e80020 + b * 0x100
  | .trcBloss b => 0x1e80028 + b * 0x100
  | .trcTrig b i => 0x1e80040 + b * 0x100 + i * 0x8
  | .trcSrcen b w => 0x1e84000 + b * 0x200 + w * 0x8
  | .trcMkr => 0x1e82000
  | .trcRdpos => 0x1e82008
  | .trcRdwin w => 0x1e83000 + w * 0x8
  | .pwrSp s => 0x1e90000 + s * 0x8
  | .pwrStat => 0x1e90018
  | .pwrTel => 0x1e90020
  | .pwrGov => 0x1e90028
  | .pwrTen => 0x1e90030
  | .pwrRail r => 0x1e90100 + r * 0x8
  | .pwrVf i => 0x1e90200 + i * 0x8
  | .rstCmd => 0x1ea0000
  | .rstStat => 0x1ea0008
  | .bootStatus => 0x1eb0000
  | .bootCtl => 0x1eb0008
  | .bootReport s w => 0x1eb0100 + s * 0x40 + w * 0x8
  | .bootFloorplan w => 0x1eb1000 + w * 0x8
  | .bootFdr w => 0x1eb2000 + w * 0x8
  | .arbCommit d => 0x1ec0000 + d * 0x1000
  | .arbCls d t j => 0x1ec0100 + d * 0x1000 + t * 0x10 + j * 0x8
  | .arbMaxwait d t => 0x1ec0200 + d * 0x1000 + t * 0x8
  | .umbSet p => 0x1ed0000 + p * 0x100
  | .umbProt p => 0x1ed0008 + p * 0x100
  | .umbRows p => 0x1ed0010 + p * 0x100
  | .umbPar p => 0x1ed0018 + p * 0x100
  | .umbWin p => 0x1ed0020 + p * 0x100
  | .umbStat p => 0x1ed0028 + p * 0x100
  | .umbCmd p => 0x1ed0030 + p * 0x100
  | .umbRange p => 0x1ed0038 + p * 0x100

/-- The register numbers of `r` exist (R497). -/
def Reg.inRange : Reg → Bool
  | .strRing s => s < 65536
  | .strCq s => s < 65536
  | .strCtl s => s < 65536
  | .strCqhead s => s < 65536
  | .strStat s => s < 65536
  | .strHead s => s < 65536
  | .strScnt s => s < 65536
  | .strCtx => true
  | .strDb => true
  | .cntScfg r => r < 9
  | .cntSbase r => r < 9
  | .cntSlist r => r < 9
  | .cntShead r => r < 9
  | .cntSstat r => r < 9
  | .cntCtag n => n < 384
  | .cntCbund n => n < 384
  | .cntCstall n => n < 384
  | .cntCrows n => n < 384
  | .cntNw p t w => p < 8 && t < 4096 && w < 8
  | .cntTrap n w => n < 384 && w < 8
  | .cntTrapst n => n < 384
  | .cntNwclr => true
  | .coreStatus n => n < 384
  | .coreErr n => n < 384
  | .coreFence n => n < 384
  | .coreDbg n => n < 384
  | .coreBkpt n => n < 384
  | .coreDreg n i => n < 384 && i < 145
  | .coreVcfg p => p < 8
  | .coreVmap p v => p < 8 && v < 384
  | .mxeCtl n => n < 384
  | .mxeStat n => n < 384
  | .mxeCkctl n => n < 384
  | .mxeCkcnt n => n < 384
  | .mxeCklast n => n < 384
  | .mxePerf n => n < 384
  | .vxeStat n => n < 384
  | .vxeFlags n => n < 384
  | .vxePerf n => n < 384
  | .spmEcc n => n < 384
  | .rteCfg => true
  | .rteShape => true
  | .rtePrimary d => d < 32768
  | .rteDetour d => d < 32768
  | .rteEntc d => d < 32768
  | .prtCfg p => p < 8
  | .prtStat p => p < 8
  | .prtCmd => true
  | .prtCmdarg => true
  | .prtRgnA p i => p < 8 && i < 4096
  | .prtRgnB p i => p < 8 && i < 4096
  | .mgtFwstat => true
  | .mgtFwcmd => true
  | .mgtFwarg => true
  | .mgtFwarea => true
  | .mgtRollback => true
  | .mgtLimits => true
  | .mgtCapstat => true
  | .mgtRcmd => true
  | .mgtFwwin w => w < 8192
  | .mgtErrbase r => r < 9
  | .mgtErrhead r => r < 9
  | .mgtErrstat r => r < 9
  | .mgtErrirq r => r < 9
  | .memMchStat m => m < 768
  | .memMchEcc m => m < 768
  | .memMchPin m => m < 768
  | .memCfg => true
  | .memRetrain => true
  | .memRetire => true
  | .memMap => true
  | .memLive i => i < 12
  | .memStack s => s < 12
  | .nocXstat x => x < 12
  | .llcGrp g => g < 96
  | .llcCommit => true
  | .lnkCfg l => l < 64
  | .lnkStat l => l < 64
  | .lnkPeerId l => l < 64
  | .lnkPeerInfo l => l < 64
  | .lnkExpect l => l < 64
  | .lnkCnt l => l < 64
  | .lnkFec l => l < 64
  | .lnkMap l => l < 64
  | .lnkEcl p => p < 30
  | .colCfg => true
  | .colPool => true
  | .colPriv => true
  | .colPoolstat => true
  | .colStat => true
  | .colGcmd => true
  | .colGdata0 => true
  | .colGdata1 => true
  | .colGdata2 => true
  | .colGdata3 => true
  | .colChcfg c => c < 64
  | .colChcnt c => c < 64
  | .colChdrop c => c < 64
  | .hstHb f => f < 9
  | .hstHbcfg f => f < 9
  | .hstAttach f => f < 9
  | .hstFstat f => f < 9
  | .hstHdm k => k < 16
  | .hstId0 => true
  | .hstId1 => true
  | .ethCfg p => p < 2
  | .ethStat p => p < 2
  | .safStat => true
  | .safAlert => true
  | .safThr0 => true
  | .safThr1 => true
  | .safProp0 => true
  | .safProp1 => true
  | .safReq => true
  | .safLaser => true
  | .safStore w => w < 256
  | .secStat => true
  | .secSealpol => true
  | .secZeroize => true
  | .secMsess => true
  | .secOpauth i => i < 8
  | .mbxCmd f => f < 9
  | .mbxArg f a => f < 9 && a < 4
  | .trcBcfg b => b < 9
  | .trcBbase b => b < 9
  | .trcBctl b => b < 9
  | .trcBstat b => b < 9
  | .trcBtrig b => b < 9
  | .trcBloss b => b < 9
  | .trcTrig b i => b < 9 && i < 4
  | .trcSrcen b w => b < 9 && w < 37
  | .trcMkr => true
  | .trcRdpos => true
  | .trcRdwin w => w < 512
  | .pwrSp s => s < 3
  | .pwrStat => true
  | .pwrTel => true
  | .pwrGov => true
  | .pwrTen => true
  | .pwrRail r => r < 16
  | .pwrVf i => i < 25
  | .rstCmd => true
  | .rstStat => true
  | .bootStatus => true
  | .bootCtl => true
  | .bootReport s w => s < 9 && w < 8
  | .bootFloorplan w => w < 64
  | .bootFdr w => w < 2048
  | .arbCommit d => d < 10
  | .arbCls d t j => d < 10 && t < 9 && (j = 0 || (j = 1 && t = 7)) && arbPresent d t
  | .arbMaxwait d t => d < 10 && t < 9 && arbPresent d t
  | .umbSet p => p < 8
  | .umbProt p => p < 8
  | .umbRows p => p < 8
  | .umbPar p => p < 8
  | .umbWin p => p < 8
  | .umbStat p => p < 8
  | .umbCmd p => p < 8
  | .umbRange p => p < 8

/-- The STR_ register at offset `o` of its block. -/
def Reg.ofStr (o : Nat) : Option Reg :=
  if 0x0 ≤ o ∧ (o - 0x0) / 0x40 < 65536 ∧ ((o - 0x0) % 0x40) = 0 then some (.strRing ((o - 0x0) / 0x40))
  else if 0x8 ≤ o ∧ (o - 0x8) / 0x40 < 65536 ∧ ((o - 0x8) % 0x40) = 0 then some (.strCq ((o - 0x8) / 0x40))
  else if 0x10 ≤ o ∧ (o - 0x10) / 0x40 < 65536 ∧ ((o - 0x10) % 0x40) = 0 then some (.strCtl ((o - 0x10) / 0x40))
  else if 0x18 ≤ o ∧ (o - 0x18) / 0x40 < 65536 ∧ ((o - 0x18) % 0x40) = 0 then some (.strCqhead ((o - 0x18) / 0x40))
  else if 0x20 ≤ o ∧ (o - 0x20) / 0x40 < 65536 ∧ ((o - 0x20) % 0x40) = 0 then some (.strStat ((o - 0x20) / 0x40))
  else if 0x28 ≤ o ∧ (o - 0x28) / 0x40 < 65536 ∧ ((o - 0x28) % 0x40) = 0 then some (.strHead ((o - 0x28) / 0x40))
  else if 0x30 ≤ o ∧ (o - 0x30) / 0x40 < 65536 ∧ ((o - 0x30) % 0x40) = 0 then some (.strScnt ((o - 0x30) / 0x40))
  else if o = 0x400000 then some (.strCtx)
  else if o = 0x400100 then some (.strDb)
  else none

/-- The CNT_ register at offset `o` of its block. -/
def Reg.ofCnt (o : Nat) : Option Reg :=
  if 0x0 ≤ o ∧ (o - 0x0) / 0x40 < 9 ∧ ((o - 0x0) % 0x40) = 0 then some (.cntScfg ((o - 0x0) / 0x40))
  else if 0x8 ≤ o ∧ (o - 0x8) / 0x40 < 9 ∧ ((o - 0x8) % 0x40) = 0 then some (.cntSbase ((o - 0x8) / 0x40))
  else if 0x10 ≤ o ∧ (o - 0x10) / 0x40 < 9 ∧ ((o - 0x10) % 0x40) = 0 then some (.cntSlist ((o - 0x10) / 0x40))
  else if 0x18 ≤ o ∧ (o - 0x18) / 0x40 < 9 ∧ ((o - 0x18) % 0x40) = 0 then some (.cntShead ((o - 0x18) / 0x40))
  else if 0x20 ≤ o ∧ (o - 0x20) / 0x40 < 9 ∧ ((o - 0x20) % 0x40) = 0 then some (.cntSstat ((o - 0x20) / 0x40))
  else if 0x100000 ≤ o ∧ (o - 0x100000) / 0x20 < 384 ∧ ((o - 0x100000) % 0x20) = 0 then some (.cntCtag ((o - 0x100000) / 0x20))
  else if 0x100008 ≤ o ∧ (o - 0x100008) / 0x20 < 384 ∧ ((o - 0x100008) % 0x20) = 0 then some (.cntCbund ((o - 0x100008) / 0x20))
  else if 0x100010 ≤ o ∧ (o - 0x100010) / 0x20 < 384 ∧ ((o - 0x100010) % 0x20) = 0 then some (.cntCstall ((o - 0x100010) / 0x20))
  else if 0x100018 ≤ o ∧ (o - 0x100018) / 0x20 < 384 ∧ ((o - 0x100018) % 0x20) = 0 then some (.cntCrows ((o - 0x100018) / 0x20))
  else if 0x200000 ≤ o ∧ (o - 0x200000) / 0x40000 < 8 ∧ ((o - 0x200000) % 0x40000) / 0x40 < 4096 ∧ (((o - 0x200000) % 0x40000) % 0x40) / 0x8 < 8 ∧ ((((o - 0x200000) % 0x40000) % 0x40) % 0x8) = 0 then some (.cntNw ((o - 0x200000) / 0x40000) (((o - 0x200000) % 0x40000) / 0x40) ((((o - 0x200000) % 0x40000) % 0x40) / 0x8))
  else if 0x400000 ≤ o ∧ (o - 0x400000) / 0x40 < 384 ∧ ((o - 0x400000) % 0x40) / 0x8 < 8 ∧ (((o - 0x400000) % 0x40) % 0x8) = 0 then some (.cntTrap ((o - 0x400000) / 0x40) (((o - 0x400000) % 0x40) / 0x8))
  else if 0x410000 ≤ o ∧ (o - 0x410000) / 0x8 < 384 ∧ ((o - 0x410000) % 0x8) = 0 then some (.cntTrapst ((o - 0x410000) / 0x8))
  else if o = 0x420000 then some (.cntNwclr)
  else none

/-- The CORE_ register at offset `o` of its block. -/
def Reg.ofCore (o : Nat) : Option Reg :=
  if 0x0 ≤ o ∧ (o - 0x0) / 0x1000 < 384 ∧ ((o - 0x0) % 0x1000) = 0 then some (.coreStatus ((o - 0x0) / 0x1000))
  else if 0x8 ≤ o ∧ (o - 0x8) / 0x1000 < 384 ∧ ((o - 0x8) % 0x1000) = 0 then some (.coreErr ((o - 0x8) / 0x1000))
  else if 0x10 ≤ o ∧ (o - 0x10) / 0x1000 < 384 ∧ ((o - 0x10) % 0x1000) = 0 then some (.coreFence ((o - 0x10) / 0x1000))
  else if 0x18 ≤ o ∧ (o - 0x18) / 0x1000 < 384 ∧ ((o - 0x18) % 0x1000) = 0 then some (.coreDbg ((o - 0x18) / 0x1000))
  else if 0x20 ≤ o ∧ (o - 0x20) / 0x1000 < 384 ∧ ((o - 0x20) % 0x1000) = 0 then some (.coreBkpt ((o - 0x20) / 0x1000))
  else if 0x400 ≤ o ∧ (o - 0x400) / 0x1000 < 384 ∧ ((o - 0x400) % 0x1000) / 0x8 < 145 ∧ (((o - 0x400) % 0x1000) % 0x8) = 0 then some (.coreDreg ((o - 0x400) / 0x1000) (((o - 0x400) % 0x1000) / 0x8))
  else if 0x180000 ≤ o ∧ (o - 0x180000) / 0x1000 < 8 ∧ ((o - 0x180000) % 0x1000) = 0 then some (.coreVcfg ((o - 0x180000) / 0x1000))
  else if 0x180100 ≤ o ∧ (o - 0x180100) / 0x1000 < 8 ∧ ((o - 0x180100) % 0x1000) / 0x8 < 384 ∧ (((o - 0x180100) % 0x1000) % 0x8) = 0 then some (.coreVmap ((o - 0x180100) / 0x1000) (((o - 0x180100) % 0x1000) / 0x8))
  else none

/-- The MXE_ register at offset `o` of its block. -/
def Reg.ofMxe (o : Nat) : Option Reg :=
  if 0x0 ≤ o ∧ (o - 0x0) / 0x1000 < 384 ∧ ((o - 0x0) % 0x1000) = 0 then some (.mxeCtl ((o - 0x0) / 0x1000))
  else if 0x8 ≤ o ∧ (o - 0x8) / 0x1000 < 384 ∧ ((o - 0x8) % 0x1000) = 0 then some (.mxeStat ((o - 0x8) / 0x1000))
  else if 0x10 ≤ o ∧ (o - 0x10) / 0x1000 < 384 ∧ ((o - 0x10) % 0x1000) = 0 then some (.mxeCkctl ((o - 0x10) / 0x1000))
  else if 0x18 ≤ o ∧ (o - 0x18) / 0x1000 < 384 ∧ ((o - 0x18) % 0x1000) = 0 then some (.mxeCkcnt ((o - 0x18) / 0x1000))
  else if 0x20 ≤ o ∧ (o - 0x20) / 0x1000 < 384 ∧ ((o - 0x20) % 0x1000) = 0 then some (.mxeCklast ((o - 0x20) / 0x1000))
  else if 0x28 ≤ o ∧ (o - 0x28) / 0x1000 < 384 ∧ ((o - 0x28) % 0x1000) = 0 then some (.mxePerf ((o - 0x28) / 0x1000))
  else none

/-- The VXE_ register at offset `o` of its block. -/
def Reg.ofVxe (o : Nat) : Option Reg :=
  if 0x0 ≤ o ∧ (o - 0x0) / 0x1000 < 384 ∧ ((o - 0x0) % 0x1000) = 0 then some (.vxeStat ((o - 0x0) / 0x1000))
  else if 0x8 ≤ o ∧ (o - 0x8) / 0x1000 < 384 ∧ ((o - 0x8) % 0x1000) = 0 then some (.vxeFlags ((o - 0x8) / 0x1000))
  else if 0x10 ≤ o ∧ (o - 0x10) / 0x1000 < 384 ∧ ((o - 0x10) % 0x1000) = 0 then some (.vxePerf ((o - 0x10) / 0x1000))
  else none

/-- The SPM_ register at offset `o` of its block. -/
def Reg.ofSpm (o : Nat) : Option Reg :=
  if 0x0 ≤ o ∧ (o - 0x0) / 0x1000 < 384 ∧ ((o - 0x0) % 0x1000) = 0 then some (.spmEcc ((o - 0x0) / 0x1000))
  else none

/-- The RTE_ register at offset `o` of its block. -/
def Reg.ofRte (o : Nat) : Option Reg :=
  if o = 0x0 then some (.rteCfg)
  else if o = 0x8 then some (.rteShape)
  else if 0x100000 ≤ o ∧ (o - 0x100000) / 0x20 < 32768 ∧ ((o - 0x100000) % 0x20) = 0 then some (.rtePrimary ((o - 0x100000) / 0x20))
  else if 0x100008 ≤ o ∧ (o - 0x100008) / 0x20 < 32768 ∧ ((o - 0x100008) % 0x20) = 0 then some (.rteDetour ((o - 0x100008) / 0x20))
  else if 0x100010 ≤ o ∧ (o - 0x100010) / 0x20 < 32768 ∧ ((o - 0x100010) % 0x20) = 0 then some (.rteEntc ((o - 0x100010) / 0x20))
  else none

/-- The PRT_ register at offset `o` of its block. -/
def Reg.ofPrt (o : Nat) : Option Reg :=
  if 0x0 ≤ o ∧ (o - 0x0) / 0x100 < 8 ∧ ((o - 0x0) % 0x100) = 0 then some (.prtCfg ((o - 0x0) / 0x100))
  else if 0x8 ≤ o ∧ (o - 0x8) / 0x100 < 8 ∧ ((o - 0x8) % 0x100) = 0 then some (.prtStat ((o - 0x8) / 0x100))
  else if o = 0x1000 then some (.prtCmd)
  else if o = 0x1008 then some (.prtCmdarg)
  else if 0x100000 ≤ o ∧ (o - 0x100000) / 0x10000 < 8 ∧ ((o - 0x100000) % 0x10000) / 0x10 < 4096 ∧ (((o - 0x100000) % 0x10000) % 0x10) = 0 then some (.prtRgnA ((o - 0x100000) / 0x10000) (((o - 0x100000) % 0x10000) / 0x10))
  else if 0x100008 ≤ o ∧ (o - 0x100008) / 0x10000 < 8 ∧ ((o - 0x100008) % 0x10000) / 0x10 < 4096 ∧ (((o - 0x100008) % 0x10000) % 0x10) = 0 then some (.prtRgnB ((o - 0x100008) / 0x10000) (((o - 0x100008) % 0x10000) / 0x10))
  else none

/-- The MGT_ register at offset `o` of its block. -/
def Reg.ofMgt (o : Nat) : Option Reg :=
  if o = 0x0 then some (.mgtFwstat)
  else if o = 0x8 then some (.mgtFwcmd)
  else if o = 0x10 then some (.mgtFwarg)
  else if o = 0x18 then some (.mgtFwarea)
  else if o = 0x20 then some (.mgtRollback)
  else if o = 0x28 then some (.mgtLimits)
  else if o = 0x30 then some (.mgtCapstat)
  else if o = 0x38 then some (.mgtRcmd)
  else if 0x10000 ≤ o ∧ (o - 0x10000) / 0x8 < 8192 ∧ ((o - 0x10000) % 0x8) = 0 then some (.mgtFwwin ((o - 0x10000) / 0x8))
  else if 0x20000 ≤ o ∧ (o - 0x20000) / 0x20 < 9 ∧ ((o - 0x20000) % 0x20) = 0 then some (.mgtErrbase ((o - 0x20000) / 0x20))
  else if 0x20008 ≤ o ∧ (o - 0x20008) / 0x20 < 9 ∧ ((o - 0x20008) % 0x20) = 0 then some (.mgtErrhead ((o - 0x20008) / 0x20))
  else if 0x20010 ≤ o ∧ (o - 0x20010) / 0x20 < 9 ∧ ((o - 0x20010) % 0x20) = 0 then some (.mgtErrstat ((o - 0x20010) / 0x20))
  else if 0x20018 ≤ o ∧ (o - 0x20018) / 0x20 < 9 ∧ ((o - 0x20018) % 0x20) = 0 then some (.mgtErrirq ((o - 0x20018) / 0x20))
  else none

/-- The MEM_ register at offset `o` of its block. -/
def Reg.ofMem (o : Nat) : Option Reg :=
  if 0x0 ≤ o ∧ (o - 0x0) / 0x40 < 768 ∧ ((o - 0x0) % 0x40) = 0 then some (.memMchStat ((o - 0x0) / 0x40))
  else if 0x8 ≤ o ∧ (o - 0x8) / 0x40 < 768 ∧ ((o - 0x8) % 0x40) = 0 then some (.memMchEcc ((o - 0x8) / 0x40))
  else if 0x10 ≤ o ∧ (o - 0x10) / 0x40 < 768 ∧ ((o - 0x10) % 0x40) = 0 then some (.memMchPin ((o - 0x10) / 0x40))
  else if o = 0x10000 then some (.memCfg)
  else if o = 0x10008 then some (.memRetrain)
  else if o = 0x10010 then some (.memRetire)
  else if o = 0x10018 then some (.memMap)
  else if 0x10100 ≤ o ∧ (o - 0x10100) / 0x8 < 12 ∧ ((o - 0x10100) % 0x8) = 0 then some (.memLive ((o - 0x10100) / 0x8))
  else if 0x10200 ≤ o ∧ (o - 0x10200) / 0x8 < 12 ∧ ((o - 0x10200) % 0x8) = 0 then some (.memStack ((o - 0x10200) / 0x8))
  else none

/-- The NOC_ register at offset `o` of its block. -/
def Reg.ofNoc (o : Nat) : Option Reg :=
  if 0x0 ≤ o ∧ (o - 0x0) / 0x8 < 12 ∧ ((o - 0x0) % 0x8) = 0 then some (.nocXstat ((o - 0x0) / 0x8))
  else none

/-- The LLC_ register at offset `o` of its block. -/
def Reg.ofLlc (o : Nat) : Option Reg :=
  if 0x0 ≤ o ∧ (o - 0x0) / 0x8 < 96 ∧ ((o - 0x0) % 0x8) = 0 then some (.llcGrp ((o - 0x0) / 0x8))
  else if o = 0x300 then some (.llcCommit)
  else none

/-- The LNK_ register at offset `o` of its block. -/
def Reg.ofLnk (o : Nat) : Option Reg :=
  if 0x0 ≤ o ∧ (o - 0x0) / 0x100 < 64 ∧ ((o - 0x0) % 0x100) = 0 then some (.lnkCfg ((o - 0x0) / 0x100))
  else if 0x8 ≤ o ∧ (o - 0x8) / 0x100 < 64 ∧ ((o - 0x8) % 0x100) = 0 then some (.lnkStat ((o - 0x8) / 0x100))
  else if 0x10 ≤ o ∧ (o - 0x10) / 0x100 < 64 ∧ ((o - 0x10) % 0x100) = 0 then some (.lnkPeerId ((o - 0x10) / 0x100))
  else if 0x18 ≤ o ∧ (o - 0x18) / 0x100 < 64 ∧ ((o - 0x18) % 0x100) = 0 then some (.lnkPeerInfo ((o - 0x18) / 0x100))
  else if 0x20 ≤ o ∧ (o - 0x20) / 0x100 < 64 ∧ ((o - 0x20) % 0x100) = 0 then some (.lnkExpect ((o - 0x20) / 0x100))
  else if 0x28 ≤ o ∧ (o - 0x28) / 0x100 < 64 ∧ ((o - 0x28) % 0x100) = 0 then some (.lnkCnt ((o - 0x28) / 0x100))
  else if 0x30 ≤ o ∧ (o - 0x30) / 0x100 < 64 ∧ ((o - 0x30) % 0x100) = 0 then some (.lnkFec ((o - 0x30) / 0x100))
  else if 0x4000 ≤ o ∧ (o - 0x4000) / 0x8 < 64 ∧ ((o - 0x4000) % 0x8) = 0 then some (.lnkMap ((o - 0x4000) / 0x8))
  else if 0x5000 ≤ o ∧ (o - 0x5000) / 0x8 < 30 ∧ ((o - 0x5000) % 0x8) = 0 then some (.lnkEcl ((o - 0x5000) / 0x8))
  else none

/-- The COL_ register at offset `o` of its block. -/
def Reg.ofCol (o : Nat) : Option Reg :=
  if o = 0x0 then some (.colCfg)
  else if o = 0x8 then some (.colPool)
  else if o = 0x10 then some (.colPriv)
  else if o = 0x18 then some (.colPoolstat)
  else if o = 0x20 then some (.colStat)
  else if o = 0x28 then some (.colGcmd)
  else if o = 0x30 then some (.colGdata0)
  else if o = 0x38 then some (.colGdata1)
  else if o = 0x40 then some (.colGdata2)
  else if o = 0x48 then some (.colGdata3)
  else if 0x1000 ≤ o ∧ (o - 0x1000) / 0x20 < 64 ∧ ((o - 0x1000) % 0x20) = 0 then some (.colChcfg ((o - 0x1000) / 0x20))
  else if 0x1008 ≤ o ∧ (o - 0x1008) / 0x20 < 64 ∧ ((o - 0x1008) % 0x20) = 0 then some (.colChcnt ((o - 0x1008) / 0x20))
  else if 0x1010 ≤ o ∧ (o - 0x1010) / 0x20 < 64 ∧ ((o - 0x1010) % 0x20) = 0 then some (.colChdrop ((o - 0x1010) / 0x20))
  else none

/-- The HST_ register at offset `o` of its block. -/
def Reg.ofHst (o : Nat) : Option Reg :=
  if 0x0 ≤ o ∧ (o - 0x0) / 0x100 < 9 ∧ ((o - 0x0) % 0x100) = 0 then some (.hstHb ((o - 0x0) / 0x100))
  else if 0x8 ≤ o ∧ (o - 0x8) / 0x100 < 9 ∧ ((o - 0x8) % 0x100) = 0 then some (.hstHbcfg ((o - 0x8) / 0x100))
  else if 0x10 ≤ o ∧ (o - 0x10) / 0x100 < 9 ∧ ((o - 0x10) % 0x100) = 0 then some (.hstAttach ((o - 0x10) / 0x100))
  else if 0x18 ≤ o ∧ (o - 0x18) / 0x100 < 9 ∧ ((o - 0x18) % 0x100) = 0 then some (.hstFstat ((o - 0x18) / 0x100))
  else if 0x1000 ≤ o ∧ (o - 0x1000) / 0x8 < 16 ∧ ((o - 0x1000) % 0x8) = 0 then some (.hstHdm ((o - 0x1000) / 0x8))
  else if o = 0x2000 then some (.hstId0)
  else if o = 0x2008 then some (.hstId1)
  else none

/-- The ETH_ register at offset `o` of its block. -/
def Reg.ofEth (o : Nat) : Option Reg :=
  if 0x0 ≤ o ∧ (o - 0x0) / 0x100 < 2 ∧ ((o - 0x0) % 0x100) = 0 then some (.ethCfg ((o - 0x0) / 0x100))
  else if 0x8 ≤ o ∧ (o - 0x8) / 0x100 < 2 ∧ ((o - 0x8) % 0x100) = 0 then some (.ethStat ((o - 0x8) / 0x100))
  else none

/-- The SAF_ register at offset `o` of its block. -/
def Reg.ofSaf (o : Nat) : Option Reg :=
  if o = 0x0 then some (.safStat)
  else if o = 0x8 then some (.safAlert)
  else if o = 0x10 then some (.safThr0)
  else if o = 0x18 then some (.safThr1)
  else if o = 0x20 then some (.safProp0)
  else if o = 0x28 then some (.safProp1)
  else if o = 0x30 then some (.safReq)
  else if o = 0x38 then some (.safLaser)
  else if 0x800 ≤ o ∧ (o - 0x800) / 0x8 < 256 ∧ ((o - 0x800) % 0x8) = 0 then some (.safStore ((o - 0x800) / 0x8))
  else none

/-- The SEC_ register at offset `o` of its block. -/
def Reg.ofSec (o : Nat) : Option Reg :=
  if o = 0x0 then some (.secStat)
  else if o = 0x8 then some (.secSealpol)
  else if o = 0x10 then some (.secZeroize)
  else if o = 0x18 then some (.secMsess)
  else if 0x40 ≤ o ∧ (o - 0x40) / 0x8 < 8 ∧ ((o - 0x40) % 0x8) = 0 then some (.secOpauth ((o - 0x40) / 0x8))
  else if 0x1000 ≤ o ∧ (o - 0x1000) / 0x40 < 9 ∧ ((o - 0x1000) % 0x40) = 0 then some (.mbxCmd ((o - 0x1000) / 0x40))
  else if 0x1008 ≤ o ∧ (o - 0x1008) / 0x40 < 9 ∧ ((o - 0x1008) % 0x40) / 0x8 < 4 ∧ (((o - 0x1008) % 0x40) % 0x8) = 0 then some (.mbxArg ((o - 0x1008) / 0x40) (((o - 0x1008) % 0x40) / 0x8))
  else none

/-- The TRC_ register at offset `o` of its block. -/
def Reg.ofTrc (o : Nat) : Option Reg :=
  if 0x0 ≤ o ∧ (o - 0x0) / 0x100 < 9 ∧ ((o - 0x0) % 0x100) = 0 then some (.trcBcfg ((o - 0x0) / 0x100))
  else if 0x8 ≤ o ∧ (o - 0x8) / 0x100 < 9 ∧ ((o - 0x8) % 0x100) = 0 then some (.trcBbase ((o - 0x8) / 0x100))
  else if 0x10 ≤ o ∧ (o - 0x10) / 0x100 < 9 ∧ ((o - 0x10) % 0x100) = 0 then some (.trcBctl ((o - 0x10) / 0x100))
  else if 0x18 ≤ o ∧ (o - 0x18) / 0x100 < 9 ∧ ((o - 0x18) % 0x100) = 0 then some (.trcBstat ((o - 0x18) / 0x100))
  else if 0x20 ≤ o ∧ (o - 0x20) / 0x100 < 9 ∧ ((o - 0x20) % 0x100) = 0 then some (.trcBtrig ((o - 0x20) / 0x100))
  else if 0x28 ≤ o ∧ (o - 0x28) / 0x100 < 9 ∧ ((o - 0x28) % 0x100) = 0 then some (.trcBloss ((o - 0x28) / 0x100))
  else if 0x40 ≤ o ∧ (o - 0x40) / 0x100 < 9 ∧ ((o - 0x40) % 0x100) / 0x8 < 4 ∧ (((o - 0x40) % 0x100) % 0x8) = 0 then some (.trcTrig ((o - 0x40) / 0x100) (((o - 0x40) % 0x100) / 0x8))
  else if 0x4000 ≤ o ∧ (o - 0x4000) / 0x200 < 9 ∧ ((o - 0x4000) % 0x200) / 0x8 < 37 ∧ (((o - 0x4000) % 0x200) % 0x8) = 0 then some (.trcSrcen ((o - 0x4000) / 0x200) (((o - 0x4000) % 0x200) / 0x8))
  else if o = 0x2000 then some (.trcMkr)
  else if o = 0x2008 then some (.trcRdpos)
  else if 0x3000 ≤ o ∧ (o - 0x3000) / 0x8 < 512 ∧ ((o - 0x3000) % 0x8) = 0 then some (.trcRdwin ((o - 0x3000) / 0x8))
  else none

/-- The PWR_ register at offset `o` of its block. -/
def Reg.ofPwr (o : Nat) : Option Reg :=
  if 0x0 ≤ o ∧ (o - 0x0) / 0x8 < 3 ∧ ((o - 0x0) % 0x8) = 0 then some (.pwrSp ((o - 0x0) / 0x8))
  else if o = 0x18 then some (.pwrStat)
  else if o = 0x20 then some (.pwrTel)
  else if o = 0x28 then some (.pwrGov)
  else if o = 0x30 then some (.pwrTen)
  else if 0x100 ≤ o ∧ (o - 0x100) / 0x8 < 16 ∧ ((o - 0x100) % 0x8) = 0 then some (.pwrRail ((o - 0x100) / 0x8))
  else if 0x200 ≤ o ∧ (o - 0x200) / 0x8 < 25 ∧ ((o - 0x200) % 0x8) = 0 then some (.pwrVf ((o - 0x200) / 0x8))
  else none

/-- The RST_ register at offset `o` of its block. -/
def Reg.ofRst (o : Nat) : Option Reg :=
  if o = 0x0 then some (.rstCmd)
  else if o = 0x8 then some (.rstStat)
  else none

/-- The BOOT_ register at offset `o` of its block. -/
def Reg.ofBoot (o : Nat) : Option Reg :=
  if o = 0x0 then some (.bootStatus)
  else if o = 0x8 then some (.bootCtl)
  else if 0x100 ≤ o ∧ (o - 0x100) / 0x40 < 9 ∧ ((o - 0x100) % 0x40) / 0x8 < 8 ∧ (((o - 0x100) % 0x40) % 0x8) = 0 then some (.bootReport ((o - 0x100) / 0x40) (((o - 0x100) % 0x40) / 0x8))
  else if 0x1000 ≤ o ∧ (o - 0x1000) / 0x8 < 64 ∧ ((o - 0x1000) % 0x8) = 0 then some (.bootFloorplan ((o - 0x1000) / 0x8))
  else if 0x2000 ≤ o ∧ (o - 0x2000) / 0x8 < 2048 ∧ ((o - 0x2000) % 0x8) = 0 then some (.bootFdr ((o - 0x2000) / 0x8))
  else none

/-- The ARB_ register at offset `o` of its block. -/
def Reg.ofArb (o : Nat) : Option Reg :=
  if 0x0 ≤ o ∧ (o - 0x0) / 0x1000 < 10 ∧ ((o - 0x0) % 0x1000) = 0 then some (.arbCommit ((o - 0x0) / 0x1000))
  else if 0x100 ≤ o ∧ (o - 0x100) / 0x1000 < 10 ∧ ((o - 0x100) % 0x1000) / 0x10 < 9 ∧ (((o - 0x100) % 0x1000) % 0x10) / 0x8 < 2 ∧ ((((o - 0x100) % 0x1000) % 0x10) % 0x8) = 0 ∧ (((((o - 0x100) % 0x1000) % 0x10) / 0x8) = 0 ∨ (((o - 0x100) % 0x1000) / 0x10) = 7) ∧ arbPresent ((o - 0x100) / 0x1000) (((o - 0x100) % 0x1000) / 0x10) = true then some (.arbCls ((o - 0x100) / 0x1000) (((o - 0x100) % 0x1000) / 0x10) ((((o - 0x100) % 0x1000) % 0x10) / 0x8))
  else if 0x200 ≤ o ∧ (o - 0x200) / 0x1000 < 10 ∧ ((o - 0x200) % 0x1000) / 0x8 < 9 ∧ (((o - 0x200) % 0x1000) % 0x8) = 0 ∧ arbPresent ((o - 0x200) / 0x1000) (((o - 0x200) % 0x1000) / 0x8) = true then some (.arbMaxwait ((o - 0x200) / 0x1000) (((o - 0x200) % 0x1000) / 0x8))
  else none

/-- The UMB_ register at offset `o` of its block. -/
def Reg.ofUmb (o : Nat) : Option Reg :=
  if 0x0 ≤ o ∧ (o - 0x0) / 0x100 < 8 ∧ ((o - 0x0) % 0x100) = 0 then some (.umbSet ((o - 0x0) / 0x100))
  else if 0x8 ≤ o ∧ (o - 0x8) / 0x100 < 8 ∧ ((o - 0x8) % 0x100) = 0 then some (.umbProt ((o - 0x8) / 0x100))
  else if 0x10 ≤ o ∧ (o - 0x10) / 0x100 < 8 ∧ ((o - 0x10) % 0x100) = 0 then some (.umbRows ((o - 0x10) / 0x100))
  else if 0x18 ≤ o ∧ (o - 0x18) / 0x100 < 8 ∧ ((o - 0x18) % 0x100) = 0 then some (.umbPar ((o - 0x18) / 0x100))
  else if 0x20 ≤ o ∧ (o - 0x20) / 0x100 < 8 ∧ ((o - 0x20) % 0x100) = 0 then some (.umbWin ((o - 0x20) / 0x100))
  else if 0x28 ≤ o ∧ (o - 0x28) / 0x100 < 8 ∧ ((o - 0x28) % 0x100) = 0 then some (.umbStat ((o - 0x28) / 0x100))
  else if 0x30 ≤ o ∧ (o - 0x30) / 0x100 < 8 ∧ ((o - 0x30) % 0x100) = 0 then some (.umbCmd ((o - 0x30) / 0x100))
  else if 0x38 ≤ o ∧ (o - 0x38) / 0x100 < 8 ∧ ((o - 0x38) % 0x100) = 0 then some (.umbRange ((o - 0x38) / 0x100))
  else none

/-- The register at offset `o` of the register space; `none` at an unassigned offset (R13). -/
def Reg.ofOff (o : Nat) : Option Reg :=
  if o % 8 ≠ 0 then none
  else if o < 0x800000 then Reg.ofStr (o - 0x0)
  else if o < 0x1000000 then Reg.ofCnt (o - 0x800000)
  else if o < 0x1200000 then Reg.ofCore (o - 0x1000000)
  else if o < 0x1400000 then Reg.ofMxe (o - 0x1200000)
  else if o < 0x1600000 then Reg.ofVxe (o - 0x1400000)
  else if o < 0x1800000 then Reg.ofSpm (o - 0x1600000)
  else if o < 0x1a00000 then Reg.ofRte (o - 0x1800000)
  else if o < 0x1c00000 then Reg.ofPrt (o - 0x1a00000)
  else if o < 0x1d00000 then Reg.ofMgt (o - 0x1c00000)
  else if o < 0x1d20000 then Reg.ofMem (o - 0x1d00000)
  else if o < 0x1e00000 then none
  else if o < 0x1e10000 then Reg.ofNoc (o - 0x1e00000)
  else if o < 0x1e20000 then Reg.ofLlc (o - 0x1e10000)
  else if o < 0x1e30000 then Reg.ofLnk (o - 0x1e20000)
  else if o < 0x1e40000 then Reg.ofCol (o - 0x1e30000)
  else if o < 0x1e50000 then Reg.ofHst (o - 0x1e40000)
  else if o < 0x1e60000 then Reg.ofEth (o - 0x1e50000)
  else if o < 0x1e70000 then Reg.ofSaf (o - 0x1e60000)
  else if o < 0x1e80000 then Reg.ofSec (o - 0x1e70000)
  else if o < 0x1e90000 then Reg.ofTrc (o - 0x1e80000)
  else if o < 0x1ea0000 then Reg.ofPwr (o - 0x1e90000)
  else if o < 0x1eb0000 then Reg.ofRst (o - 0x1ea0000)
  else if o < 0x1ec0000 then Reg.ofBoot (o - 0x1eb0000)
  else if o < 0x1ed0000 then Reg.ofArb (o - 0x1ec0000)
  else if o < 0x1ee0000 then Reg.ofUmb (o - 0x1ed0000)
  else none

/-- The number of requesters of an arbiter of type `t` (R334). -/
def arbN : Nat → Nat
  | 0 => 7 | 1 => 8 | 2 => 4 | 3 => 4 | 4 => 4 | 5 => 3 | 6 => 12 | 7 => 64 | 8 => 8 | _ => 0

/-- The fields of a register that are not reserved, from the spec's tables. CNT_NWCLR.PART is RW for the operator and has a dash for a partition (R16): it is read-only there (DESIGN CHOICE, log entry 144). -/
def Reg.layout : Reg → List FldSpec
  | .strRing _ => [⟨52, 48, .rw, .rw, 4⟩, ⟨47, 0, .rw, .rw, 0⟩]
  | .strCq _ => [⟨52, 48, .rw, .rw, 4⟩, ⟨47, 0, .rw, .rw, 0⟩]
  | .strCtl _ => [⟨63, 63, .rw, .rw, 0⟩, ⟨62, 62, .w1s, .w1s, 0⟩, ⟨61, 61, .w1s, .w1s, 0⟩, ⟨58, 56, .rw, .ro, 0⟩, ⟨42, 32, .rw, .rw, 0⟩]
  | .strCqhead _ => [⟨31, 0, .rw, .rw, 0⟩]
  | .strStat _ => [⟨63, 61, .ro, .ro, 0⟩, ⟨60, 56, .ro, .ro, 0⟩, ⟨40, 32, .ro, .ro, 0⟩, ⟨31, 0, .rw, .rw, 0⟩]
  | .strHead _ => [⟨63, 32, .ro, .ro, 0⟩, ⟨31, 0, .rw, .rw, 0⟩]
  | .strScnt _ => [⟨63, 0, .rw, .rw, 0⟩]
  | .strCtx => [⟨63, 63, .rwl, .rwl, 0⟩, ⟨47, 30, .rwl, .rwl, 0⟩]
  | .strDb => [⟨47, 32, .wo, .wo, 0⟩, ⟨31, 0, .wo, .wo, 0⟩]
  | .cntScfg _ => [⟨63, 63, .rw, .rw, 0⟩, ⟨52, 48, .rw, .rw, 4⟩, ⟨42, 32, .rw, .rw, 1⟩, ⟨31, 0, .rw, .rw, 0x124f80⟩]
  | .cntSbase _ => [⟨47, 0, .rw, .rw, 0⟩]
  | .cntSlist _ => [⟨47, 0, .rw, .rw, 0⟩]
  | .cntShead _ => [⟨31, 0, .rw, .rw, 0⟩]
  | .cntSstat _ => [⟨63, 32, .rc, .rc, 0⟩, ⟨31, 0, .ro, .ro, 0⟩]
  | .cntCtag _ => [⟨63, 32, .ro, .ro, 0⟩, ⟨15, 0, .ro, .ro, 0⟩]
  | .cntCbund _ => [⟨63, 0, .ro, .ro, 0⟩]
  | .cntCstall _ => [⟨63, 0, .ro, .ro, 0⟩]
  | .cntCrows _ => [⟨63, 0, .ro, .ro, 0⟩]
  | .cntNw _ _ _ => [⟨63, 0, .ro, .ro, 0⟩]
  | .cntTrap _ _ => [⟨63, 0, .ro, .ro, 0⟩]
  | .cntTrapst _ => [⟨63, 63, .w1c, .w1c, 0⟩, ⟨15, 0, .rc, .rc, 0⟩]
  | .cntNwclr => [⟨63, 63, .w1s, .w1s, 0⟩, ⟨62, 60, .ro, .ro, 0⟩, ⟨58, 56, .rw, .ro, 0⟩, ⟨12, 12, .rw, .rw, 0⟩, ⟨11, 0, .rw, .rw, 0⟩]
  | .coreStatus _ => [⟨47, 32, .ro, .ro, 0xffff⟩, ⟨26, 24, .ro, .ro, 0⟩, ⟨23, 20, .ro, .ro, 4⟩, ⟨12, 0, .ro, .ro, 0⟩]
  | .coreErr _ => [⟨63, 63, .w1c, .w1c, 0⟩, ⟨62, 62, .w1c, .w1c, 0⟩, ⟨55, 48, .ro, .ro, 0⟩, ⟨47, 32, .ro, .ro, 0⟩, ⟨12, 0, .ro, .ro, 0⟩]
  | .coreFence _ => [⟨0, 0, .rw, .ro, 1⟩]
  | .coreDbg _ => [⟨63, 63, .rw, .rw, 0⟩, ⟨62, 62, .w1s, .w1s, 0⟩, ⟨61, 61, .ro, .ro, 0⟩, ⟨60, 58, .ro, .ro, 0⟩, ⟨57, 56, .ro, .ro, 0⟩, ⟨3, 0, .rw, .rw, 0⟩]
  | .coreBkpt _ => [⟨60, 48, .rw, .rw, 0⟩, ⟨44, 32, .rw, .rw, 0⟩, ⟨28, 16, .rw, .rw, 0⟩, ⟨12, 0, .rw, .rw, 0⟩]
  | .coreDreg _ _ => [⟨63, 0, .rw, .rw, 0⟩]
  | .coreVcfg _ => [⟨36, 32, .rw, .ro, 2⟩, ⟨8, 0, .rw, .ro, 0⟩]
  | .coreVmap _ _ => [⟨63, 63, .rw, .ro, 0⟩, ⟨8, 0, .rw, .ro, 0⟩]
  | .mxeCtl _ => [⟨1, 0, .ro, .ro, 1⟩]
  | .mxeStat _ => [⟨52, 48, .ro, .ro, 0⟩, ⟨46, 40, .ro, .ro, 0⟩, ⟨39, 36, .ro, .ro, 0⟩, ⟨35, 35, .ro, .ro, 0⟩, ⟨31, 28, .ro, .ro, 0⟩, ⟨27, 26, .ro, .ro, 0⟩]
  | .mxeCkctl _ => [⟨0, 0, .rw, .ro, 0⟩]
  | .mxeCkcnt _ => [⟨63, 32, .rc, .ro, 0⟩, ⟨31, 0, .rc, .ro, 0⟩]
  | .mxeCklast _ => [⟨63, 63, .w1c, .ro, 0⟩, ⟨56, 48, .ro, .ro, 0⟩, ⟨47, 32, .ro, .ro, 0⟩, ⟨12, 0, .ro, .ro, 0⟩]
  | .mxePerf _ => [⟨63, 32, .rc, .ro, 0⟩, ⟨31, 0, .rc, .ro, 0⟩]
  | .vxeStat _ => [⟨52, 48, .ro, .ro, 0⟩, ⟨15, 8, .ro, .ro, 0⟩, ⟨0, 0, .ro, .ro, 0⟩]
  | .vxeFlags _ => [⟨6, 6, .w1c, .ro, 0⟩, ⟨5, 5, .w1c, .ro, 0⟩, ⟨4, 4, .w1c, .ro, 0⟩, ⟨3, 3, .w1c, .ro, 0⟩, ⟨2, 2, .w1c, .ro, 0⟩, ⟨1, 1, .w1c, .ro, 0⟩, ⟨0, 0, .w1c, .ro, 0⟩]
  | .vxePerf _ => [⟨63, 32, .rc, .ro, 0⟩, ⟨31, 0, .rc, .ro, 0⟩]
  | .spmEcc _ => [⟨63, 32, .rc, .ro, 0⟩, ⟨20, 0, .ro, .ro, 0⟩]
  | .rteCfg => [⟨62, 48, .rwl, .rwl, 0⟩, ⟨47, 16, .rw, .rw, 0⟩, ⟨15, 0, .rw, .rw, 0⟩]
  | .rteShape => [⟨44, 40, .rw, .rw, 0⟩, ⟨39, 35, .rw, .rw, 0⟩, ⟨34, 30, .rw, .rw, 0⟩, ⟨29, 25, .rw, .rw, 0⟩, ⟨24, 20, .rw, .rw, 0⟩, ⟨19, 15, .rw, .rw, 0⟩, ⟨14, 10, .rw, .rw, 0⟩, ⟨9, 5, .rw, .rw, 0⟩, ⟨4, 0, .rw, .rw, 0⟩]
  | .rtePrimary _ => [⟨63, 0, .rw, .rw, 0⟩]
  | .rteDetour _ => [⟨63, 0, .rw, .rw, 0⟩]
  | .rteEntc _ => [⟨63, 63, .rw, .rw, 0⟩, ⟨62, 62, .rw, .rw, 0⟩, ⟨61, 61, .rw, .rw, 0⟩, ⟨5, 0, .rw, .rw, 0⟩]
  | .prtCfg _ => [⟨63, 61, .ro, .ro, 0⟩, ⟨31, 0, .rw, .ro, 0⟩]
  | .prtStat _ => [⟨63, 63, .ro, .ro, 0⟩, ⟨62, 62, .ro, .ro, 0⟩, ⟨6, 0, .ro, .ro, 0⟩]
  | .prtCmd => [⟨63, 63, .w1s, .w1s, 0⟩, ⟨62, 60, .ro, .ro, 0⟩, ⟨59, 56, .rw, .rw, 0⟩, ⟨2, 0, .rw, .rw, 0⟩]
  | .prtCmdarg => [⟨54, 48, .rw, .rw, 0⟩, ⟨47, 0, .rw, .rw, 0⟩]
  | .prtRgnA _ _ => [⟨63, 63, .rw, .ro, 0⟩, ⟨62, 60, .rw, .ro, 0⟩, ⟨59, 59, .rw, .ro, 0⟩, ⟨58, 58, .rw, .ro, 0⟩, ⟨57, 57, .rw, .ro, 0⟩, ⟨56, 56, .rw, .ro, 0⟩, ⟨55, 55, .rw, .ro, 0⟩, ⟨54, 54, .rw, .ro, 0⟩, ⟨53, 53, .rw, .ro, 0⟩, ⟨47, 0, .rw, .ro, 0⟩]
  | .prtRgnB _ _ => [⟨47, 0, .rw, .ro, 0⟩]
  | .mgtFwstat => [⟨63, 61, .ro, .ro, 0⟩, ⟨60, 56, .ro, .ro, 0⟩, ⟨55, 55, .ro, .ro, 0⟩, ⟨54, 54, .ro, .ro, 0⟩, ⟨47, 32, .ro, .ro, 0⟩, ⟨31, 0, .ro, .ro, 0⟩]
  | .mgtFwcmd => [⟨63, 63, .w1s, .w1s, 0⟩, ⟨62, 60, .ro, .ro, 0⟩, ⟨59, 56, .rw, .rw, 0⟩, ⟨55, 48, .ro, .ro, 0⟩, ⟨0, 0, .rw, .rw, 0⟩]
  | .mgtFwarg => [⟨25, 0, .rw, .rw, 0⟩]
  | .mgtFwarea => [⟨63, 63, .rwl, .rwl, 0⟩, ⟨47, 30, .rwl, .rwl, 0⟩]
  | .mgtRollback => [⟨6, 0, .rwf, .rwf, 0⟩]
  | .mgtLimits => [⟨44, 32, .ro, .ro, 0⟩, ⟨20, 16, .ro, .ro, 0⟩, ⟨15, 15, .ro, .ro, 0⟩, ⟨14, 8, .ro, .ro, 0⟩, ⟨3, 0, .ro, .ro, 0⟩]
  | .mgtCapstat => [⟨63, 32, .rc, .rc, 0⟩, ⟨31, 0, .rc, .rc, 0⟩]
  | .mgtRcmd => [⟨63, 63, .w1s, .w1s, 0⟩, ⟨62, 62, .ro, .ro, 0⟩, ⟨61, 59, .ro, .ro, 0⟩, ⟨58, 56, .rw, .rw, 0⟩]
  | .mgtFwwin _ => [⟨63, 0, .wo, .wo, 0⟩]
  | .mgtErrbase _ => [⟨63, 63, .rw, .rw, 0⟩, ⟨52, 48, .rw, .rw, 6⟩, ⟨47, 0, .rw, .rw, 0⟩]
  | .mgtErrhead _ => [⟨31, 0, .rw, .rw, 0⟩]
  | .mgtErrstat _ => [⟨63, 32, .rc, .rc, 0⟩, ⟨31, 0, .ro, .ro, 0⟩]
  | .mgtErrirq _ => [⟨42, 32, .rw, .rw, 0⟩, ⟨2, 0, .rw, .rw, 1⟩]
  | .memMchStat _ => [⟨63, 61, .ro, .ro, 4⟩, ⟨45, 40, .ro, .ro, 0x3f⟩, ⟨37, 32, .ro, .ro, 0x3f⟩, ⟨31, 16, .ro, .ro, 0⟩, ⟨7, 0, .ro, .ro, 0⟩]
  | .memMchEcc _ => [⟨63, 32, .rc, .rc, 0⟩, ⟨31, 16, .rc, .rc, 0⟩, ⟨15, 0, .rc, .rc, 0⟩]
  | .memMchPin _ => [⟨37, 32, .ro, .ro, 0⟩, ⟨31, 0, .rc, .rc, 0⟩]
  | .memCfg => [⟨48, 48, .rw, .rw, 0⟩, ⟨47, 40, .rw, .rw, 0⟩, ⟨39, 32, .rw, .rw, 0⟩, ⟨31, 16, .rw, .rw, 0⟩, ⟨15, 8, .rw, .rw, 0⟩]
  | .memRetrain => [⟨63, 63, .w1s, .w1s, 0⟩, ⟨62, 60, .ro, .ro, 0⟩, ⟨9, 0, .rw, .rw, 0⟩]
  | .memRetire => [⟨63, 63, .wo, .wo, 0⟩, ⟨9, 0, .rw, .rw, 0⟩]
  | .memMap => [⟨63, 63, .w1s, .w1s, 0⟩, ⟨20, 16, .ro, .ro, 0⟩, ⟨9, 0, .ro, .ro, 0x300⟩]
  | .memLive _ => [⟨63, 0, .ro, .ro, 0xffffffffffffffff⟩]
  | .memStack _ => [⟨15, 8, .ro, .ro, 0⟩, ⟨1, 0, .ro, .ro, 0⟩]
  | .nocXstat _ => [⟨63, 32, .rc, .rc, 0⟩, ⟨5, 0, .ro, .ro, 0⟩]
  | .llcGrp _ => [⟨4, 0, .rws, .rws, 0⟩]
  | .llcCommit => [⟨63, 63, .ro, .ro, 0⟩, ⟨62, 60, .ro, .ro, 0⟩, ⟨0, 0, .w1s, .w1s, 0⟩]
  | .lnkCfg _ => [⟨63, 63, .rw, .rw, 0⟩, ⟨62, 61, .rw, .rw, 0⟩, ⟨60, 60, .rw, .rw, 0⟩, ⟨58, 56, .rw, .rw, 0⟩, ⟨53, 52, .rw, .rw, 0⟩, ⟨51, 48, .rw, .rw, 0⟩]
  | .lnkStat _ => [⟨63, 61, .ro, .ro, 0⟩, ⟨60, 59, .ro, .ro, 0⟩, ⟨58, 56, .ro, .ro, 0⟩, ⟨55, 52, .ro, .ro, 0⟩, ⟨51, 51, .ro, .ro, 0⟩, ⟨50, 50, .ro, .ro, 0⟩, ⟨49, 48, .ro, .ro, 0⟩, ⟨47, 44, .ro, .ro, 0⟩]
  | .lnkPeerId _ => [⟨63, 63, .ro, .ro, 0⟩, ⟨62, 48, .ro, .ro, 0⟩, ⟨47, 0, .ro, .ro, 0⟩]
  | .lnkPeerInfo _ => [⟨63, 32, .ro, .ro, 0⟩, ⟨31, 28, .ro, .ro, 0⟩, ⟨21, 16, .ro, .ro, 0⟩, ⟨15, 0, .ro, .ro, 0⟩]
  | .lnkExpect _ => [⟨63, 63, .rw, .rw, 0⟩, ⟨62, 48, .rw, .rw, 0⟩, ⟨45, 40, .rw, .rw, 0⟩]
  | .lnkCnt _ => [⟨63, 32, .rc, .rc, 0⟩, ⟨31, 16, .rc, .rc, 0⟩, ⟨15, 0, .rc, .rc, 0⟩]
  | .lnkFec _ => [⟨63, 32, .rc, .rc, 0⟩, ⟨31, 0, .rc, .rc, 0⟩]
  | .lnkMap _ => [⟨5, 0, .rw, .rw, 0⟩]
  | .lnkEcl _ => [⟨63, 63, .rw, .rw, 0⟩, ⟨1, 0, .ro, .ro, 1⟩]
  | .colCfg => [⟨47, 32, .rw, .rw, 0⟩, ⟨31, 16, .rw, .rw, 0⟩, ⟨15, 0, .rw, .rw, 0⟩]
  | .colPool => [⟨63, 63, .rwl, .rwl, 0⟩, ⟨44, 32, .rwl, .rwl, 0⟩, ⟨29, 16, .rwl, .rwl, 0⟩]
  | .colPriv => [⟨63, 63, .rwl, .rwl, 0⟩, ⟨47, 30, .rwl, .rwl, 0⟩]
  | .colPoolstat => [⟨44, 32, .ro, .ro, 0⟩, ⟨28, 16, .ro, .ro, 0⟩, ⟨12, 0, .ro, .ro, 0⟩]
  | .colStat => [⟨63, 32, .rc, .rc, 0⟩, ⟨31, 0, .rc, .rc, 0⟩]
  | .colGcmd => [⟨63, 63, .w1s, .w1s, 0⟩, ⟨62, 60, .ro, .ro, 0⟩, ⟨59, 56, .rw, .rw, 0⟩, ⟨11, 0, .rw, .rw, 0⟩]
  | .colGdata0 => [⟨63, 63, .rw, .rw, 0⟩, ⟨62, 62, .ro, .ro, 0⟩, ⟨58, 56, .rw, .rw, 0⟩, ⟨47, 32, .rw, .rw, 0⟩, ⟨15, 0, .rw, .rw, 0⟩]
  | .colGdata1 => [⟨62, 48, .rw, .rw, 0⟩, ⟨46, 32, .ro, .ro, 0⟩, ⟨15, 15, .rw, .rw, 0⟩, ⟨14, 10, .rw, .rw, 0⟩, ⟨9, 5, .rw, .rw, 0⟩, ⟨4, 0, .rw, .rw, 0⟩]
  | .colGdata2 => [⟨47, 0, .rw, .rw, 0⟩]
  | .colGdata3 => [⟨63, 32, .ro, .ro, 0⟩, ⟨31, 0, .ro, .ro, 0⟩]
  | .colChcfg _ => [⟨63, 63, .rw, .ro, 0⟩, ⟨58, 56, .rw, .ro, 0⟩, ⟨48, 48, .ro, .ro, 0⟩]
  | .colChcnt _ => [⟨63, 48, .rc, .ro, 0⟩, ⟨47, 32, .rc, .ro, 0⟩, ⟨31, 0, .rc, .ro, 0⟩]
  | .colChdrop _ => [⟨63, 0, .rc, .ro, 0⟩]
  | .hstHb _ => [⟨63, 0, .wo, .wo, 0⟩]
  | .hstHbcfg _ => [⟨33, 32, .rw, .ro, 0⟩, ⟨15, 0, .rw, .ro, 0⟩]
  | .hstAttach _ => [⟨63, 63, .ro, .ro, 0⟩, ⟨62, 62, .w1s, .w1s, 0⟩, ⟨61, 61, .w1s, .w1s, 0⟩, ⟨15, 0, .ro, .ro, 0⟩]
  | .hstFstat _ => [⟨63, 48, .rc, .rc, 0⟩, ⟨47, 32, .rc, .rc, 0⟩, ⟨31, 0, .rc, .rc, 0⟩]
  | .hstHdm _ => [⟨63, 63, .rw, .rw, 0⟩, ⟨62, 62, .rw, .rw, 0⟩, ⟨58, 56, .rw, .rw, 0⟩, ⟨47, 30, .rw, .rw, 0⟩]
  | .hstId0 => [⟨63, 60, .ro, .ro, 0⟩, ⟨47, 0, .ro, .ro, 0⟩]
  | .hstId1 => [⟨63, 32, .ro, .ro, 0x2e240c5b⟩, ⟨15, 0, .ro, .ro, 0x2400⟩]
  | .ethCfg _ => [⟨31, 16, .rw, .rw, 0⟩, ⟨8, 8, .rw, .rw, 0⟩, ⟨2, 0, .rw, .rw, 0⟩]
  | .ethStat _ => [⟨63, 32, .rc, .rc, 0⟩, ⟨31, 16, .rc, .rc, 0⟩, ⟨0, 0, .ro, .ro, 0⟩]
  | .safStat => [⟨63, 62, .ro, .ro, 0⟩, ⟨61, 61, .ro, .ro, 0⟩, ⟨47, 40, .ro, .ro, 0⟩, ⟨39, 36, .ro, .ro, 0⟩, ⟨31, 24, .ro, .ro, 0⟩, ⟨23, 20, .ro, .ro, 0⟩, ⟨15, 0, .ro, .ro, 0⟩]
  | .safAlert => [⟨7, 7, .w1c, .w1c, 0⟩, ⟨6, 6, .w1c, .w1c, 0⟩, ⟨5, 5, .w1c, .w1c, 0⟩, ⟨4, 4, .w1c, .w1c, 0⟩, ⟨3, 3, .w1c, .w1c, 0⟩, ⟨2, 2, .w1c, .w1c, 0⟩, ⟨1, 1, .w1c, .w1c, 0⟩, ⟨0, 0, .w1c, .w1c, 0⟩]
  | .safThr0 => [⟨55, 48, .rwh, .rwh, 0⟩, ⟨47, 40, .rwh, .rwh, 0⟩, ⟨35, 32, .rwh, .rwh, 0⟩, ⟨31, 24, .rwh, .rwh, 0⟩, ⟨23, 16, .rwh, .rwh, 0⟩, ⟨15, 8, .rwh, .rwh, 0⟩, ⟨7, 0, .rwh, .rwh, 0⟩]
  | .safThr1 => [⟨27, 16, .rwh, .rwh, 0⟩, ⟨7, 0, .rwh, .rwh, 0⟩]
  | .safProp0 => [⟨55, 48, .rw, .rw, 0⟩, ⟨47, 40, .rw, .rw, 0⟩, ⟨35, 32, .rw, .rw, 0⟩, ⟨31, 24, .rw, .rw, 0⟩, ⟨23, 16, .rw, .rw, 0⟩, ⟨15, 8, .rw, .rw, 0⟩, ⟨7, 0, .rw, .rw, 0⟩]
  | .safProp1 => [⟨27, 16, .rw, .rw, 0⟩, ⟨7, 0, .rw, .rw, 0⟩]
  | .safReq => [⟨63, 63, .w1s, .w1s, 0⟩, ⟨62, 60, .ro, .ro, 0⟩]
  | .safLaser => [⟨63, 0, .ro, .ro, 0xffffffffffffffff⟩]
  | .safStore _ => [⟨63, 0, .ro, .ro, 0⟩]
  | .secStat => [⟨63, 62, .ro, .ro, 0⟩, ⟨61, 61, .ro, .ro, 0⟩]
  | .secSealpol => [⟨11, 8, .ro, .ro, 0⟩, ⟨2, 2, .rwf, .rwf, 0⟩, ⟨1, 1, .rwf, .rwf, 0⟩, ⟨0, 0, .rwf, .rwf, 0⟩]
  | .secZeroize => [⟨0, 0, .w1s, .w1s, 0⟩]
  | .secMsess => [⟨63, 56, .ro, .ro, 0⟩, ⟨31, 0, .rc, .rc, 0⟩]
  | .secOpauth _ => [⟨63, 0, .ro, .ro, 0⟩]
  | .mbxCmd _ => [⟨63, 63, .w1s, .w1s, 0⟩, ⟨62, 62, .ro, .ro, 0⟩, ⟨55, 48, .ro, .ro, 0⟩, ⟨10, 8, .rw, .rw, 0⟩, ⟨1, 0, .rw, .rw, 0⟩]
  | .mbxArg _ _ => [⟨63, 0, .rw, .rw, 0⟩]
  | .trcBcfg _ => [⟨63, 63, .rw, .rw, 0⟩, ⟨62, 61, .rw, .rw, 0⟩, ⟨60, 58, .rw, .rw, 3⟩, ⟨52, 48, .rw, .rw, 0x1a⟩, ⟨31, 16, .rw, .rw, 0⟩, ⟨15, 0, .rw, .rw, 0⟩]
  | .trcBbase _ => [⟨47, 0, .rw, .rw, 0⟩]
  | .trcBctl _ => [⟨63, 63, .w1s, .w1s, 0⟩, ⟨62, 62, .w1s, .w1s, 0⟩]
  | .trcBstat _ => [⟨63, 61, .ro, .ro, 0⟩, ⟨60, 60, .ro, .ro, 0⟩, ⟨59, 59, .ro, .ro, 0⟩, ⟨31, 0, .ro, .ro, 0⟩]
  | .trcBtrig _ => [⟨63, 32, .ro, .ro, 0⟩, ⟨31, 0, .ro, .ro, 0⟩]
  | .trcBloss _ => [⟨63, 0, .rc, .rc, 0⟩]
  | .trcTrig _ _ => [⟨63, 63, .rw, .rw, 0⟩, ⟨62, 62, .rw, .rw, 0⟩, ⟨61, 59, .rw, .rw, 0⟩, ⟨55, 44, .rw, .rw, 0⟩, ⟨43, 36, .rw, .rw, 0⟩]
  | .trcSrcen _ _ => [⟨63, 0, .rw, .rw, 0⟩]
  | .trcMkr => [⟨63, 63, .rw, .rw, 0⟩, ⟨4, 0, .rw, .rw, 0⟩]
  | .trcRdpos => [⟨47, 0, .rw, .rw, 0⟩]
  | .trcRdwin _ => [⟨63, 0, .ro, .ro, 0⟩]
  | .pwrSp _ => [⟨63, 62, .rw, .rw, 0⟩, ⟨47, 32, .rw, .rw, 0⟩, ⟨11, 0, .rw, .rw, 0⟩]
  | .pwrStat => [⟨63, 62, .ro, .ro, 1⟩, ⟨61, 60, .ro, .ro, 3⟩, ⟨59, 58, .ro, .ro, 0⟩, ⟨57, 52, .ro, .ro, 8⟩, ⟨51, 47, .ro, .ro, 0x10⟩, ⟨43, 32, .ro, .ro, 0x898⟩, ⟨27, 16, .ro, .ro, 0x898⟩, ⟨11, 0, .ro, .ro, 0⟩]
  | .pwrTel => [⟨47, 32, .ro, .ro, 0⟩, ⟨15, 0, .ro, .ro, 0⟩]
  | .pwrGov => [⟨5, 0, .rwh, .rwh, 8⟩]
  | .pwrTen => [⟨47, 32, .ro, .ro, 0⟩, ⟨15, 8, .ro, .ro, 0⟩, ⟨7, 0, .ro, .ro, 0⟩]
  | .pwrRail _ => [⟨47, 32, .ro, .ro, 0⟩, ⟨31, 0, .ro, .ro, 0⟩]
  | .pwrVf _ => [⟨9, 0, .ro, .ro, 0⟩]
  | .rstCmd => [⟨63, 63, .w1s, .w1s, 0⟩, ⟨62, 60, .ro, .ro, 0⟩, ⟨59, 58, .rw, .rw, 0⟩, ⟨8, 0, .rw, .rw, 0⟩]
  | .rstStat => [⟨63, 32, .ro, .ro, 0⟩, ⟨31, 16, .ro, .ro, 0⟩, ⟨15, 0, .rc, .rc, 0⟩]
  | .bootStatus => [⟨63, 60, .ro, .ro, 0⟩, ⟨59, 58, .ro, .ro, 0⟩, ⟨57, 57, .ro, .ro, 0⟩, ⟨56, 56, .ro, .ro, 0⟩, ⟨48, 40, .ro, .ro, 0⟩, ⟨15, 0, .ro, .ro, 0⟩]
  | .bootCtl => [⟨4, 4, .rw, .rw, 0⟩, ⟨3, 0, .rw, .rw, 0xf⟩]
  | .bootReport _ _ => [⟨63, 0, .ro, .ro, 0⟩]
  | .bootFloorplan _ => [⟨63, 0, .ro, .ro, 0⟩]
  | .bootFdr _ => [⟨63, 0, .ro, .ro, 0⟩]
  | .arbCommit _ => [⟨63, 63, .w1s, .w1s, 0⟩, ⟨62, 62, .ro, .ro, 0⟩, ⟨31, 0, .ro, .ro, 0⟩]
  | .arbCls _ t j => (List.range (min 32 (arbN t - 32 * j))).map fun r => ⟨2 * r + 1, 2 * r, .rws, .rws, 0⟩
  | .arbMaxwait _ _ => [⟨15, 0, .rc, .rc, 0⟩]
  | .umbSet _ => [⟨63, 63, .rw, .ro, 0⟩, ⟨59, 56, .rw, .ro, 0xf⟩, ⟨55, 52, .ro, .ro, 0⟩, ⟨51, 46, .rw, .ro, 0⟩, ⟨43, 32, .rw, .ro, 0⟩, ⟨31, 16, .rw, .ro, 0⟩, ⟨15, 0, .rw, .ro, 0⟩]
  | .umbProt _ => [⟨47, 0, .rw, .ro, 0⟩]
  | .umbRows _ => [⟨31, 0, .rw, .ro, 0⟩]
  | .umbPar _ => [⟨47, 0, .rw, .ro, 0⟩]
  | .umbWin _ => [⟨63, 48, .rw, .ro, 0x40⟩, ⟨47, 0, .rw, .ro, 0⟩]
  | .umbStat _ => [⟨63, 61, .ro, .ro, 0⟩, ⟨60, 32, .ro, .ro, 0⟩, ⟨31, 0, .ro, .ro, 0⟩]
  | .umbCmd _ => [⟨63, 63, .w1s, .ro, 0⟩, ⟨62, 60, .ro, .ro, 0⟩, ⟨59, 56, .rw, .ro, 0⟩, ⟨55, 52, .rw, .ro, 0⟩]
  | .umbRange _ => [⟨63, 32, .rw, .ro, 0⟩, ⟨31, 0, .rw, .ro, 0⟩]

/-- A named field of one register. -/
structure Fld where
  reg : Reg
  hi : Nat
  lo : Nat
  deriving DecidableEq, Repr

def F.strRing_LOG2N (s : Nat) : Fld := ⟨.strRing s, 52, 48⟩
def F.strRing_BASE (s : Nat) : Fld := ⟨.strRing s, 47, 0⟩
def F.strCq_LOG2N (s : Nat) : Fld := ⟨.strCq s, 52, 48⟩
def F.strCq_BASE (s : Nat) : Fld := ⟨.strCq s, 47, 0⟩
def F.strCtl_EN (s : Nat) : Fld := ⟨.strCtl s, 63, 63⟩
def F.strCtl_RESUME (s : Nat) : Fld := ⟨.strCtl s, 62, 62⟩
def F.strCtl_HALT (s : Nat) : Fld := ⟨.strCtl s, 61, 61⟩
def F.strCtl_PART (s : Nat) : Fld := ⟨.strCtl s, 58, 56⟩
def F.strCtl_VECTOR (s : Nat) : Fld := ⟨.strCtl s, 42, 32⟩
def F.strCqhead_CQHEAD (s : Nat) : Fld := ⟨.strCqhead s, 31, 0⟩
def F.strStat_STATE (s : Nat) : Fld := ⟨.strStat s, 63, 61⟩
def F.strStat_HCAUSE (s : Nat) : Fld := ⟨.strStat s, 60, 56⟩
def F.strStat_OUTSTANDING (s : Nat) : Fld := ⟨.strStat s, 40, 32⟩
def F.strStat_NEXT_SEQ (s : Nat) : Fld := ⟨.strStat s, 31, 0⟩
def F.strHead_TAIL (s : Nat) : Fld := ⟨.strHead s, 63, 32⟩
def F.strHead_HEAD (s : Nat) : Fld := ⟨.strHead s, 31, 0⟩
def F.strScnt_SCNT (s : Nat) : Fld := ⟨.strScnt s, 63, 0⟩
def F.strCtx_LOCK : Fld := ⟨.strCtx, 63, 63⟩
def F.strCtx_BASE : Fld := ⟨.strCtx, 47, 30⟩
def F.strDb_STREAM : Fld := ⟨.strDb, 47, 32⟩
def F.strDb_TAIL : Fld := ⟨.strDb, 31, 0⟩
def F.cntScfg_EN (r : Nat) : Fld := ⟨.cntScfg r, 63, 63⟩
def F.cntScfg_LOG2N (r : Nat) : Fld := ⟨.cntScfg r, 52, 48⟩
def F.cntScfg_NCNT (r : Nat) : Fld := ⟨.cntScfg r, 42, 32⟩
def F.cntScfg_INTERVAL (r : Nat) : Fld := ⟨.cntScfg r, 31, 0⟩
def F.cntSbase_BASE (r : Nat) : Fld := ⟨.cntSbase r, 47, 0⟩
def F.cntSlist_LIST (r : Nat) : Fld := ⟨.cntSlist r, 47, 0⟩
def F.cntShead_HEAD (r : Nat) : Fld := ⟨.cntShead r, 31, 0⟩
def F.cntSstat_LOST (r : Nat) : Fld := ⟨.cntSstat r, 63, 32⟩
def F.cntSstat_WRITTEN (r : Nat) : Fld := ⟨.cntSstat r, 31, 0⟩
def F.cntCtag_SEQ (n : Nat) : Fld := ⟨.cntCtag n, 63, 32⟩
def F.cntCtag_STREAM (n : Nat) : Fld := ⟨.cntCtag n, 15, 0⟩
def F.cntCbund_N (n : Nat) : Fld := ⟨.cntCbund n, 63, 0⟩
def F.cntCstall_N (n : Nat) : Fld := ⟨.cntCstall n, 63, 0⟩
def F.cntCrows_N (n : Nat) : Fld := ⟨.cntCrows n, 63, 0⟩
def F.cntNw_W (p t w : Nat) : Fld := ⟨.cntNw p t w, 63, 0⟩
def F.cntTrap_W (n w : Nat) : Fld := ⟨.cntTrap n w, 63, 0⟩
def F.cntTrapst_VALID (n : Nat) : Fld := ⟨.cntTrapst n, 63, 63⟩
def F.cntTrapst_LOSS (n : Nat) : Fld := ⟨.cntTrapst n, 15, 0⟩
def F.cntNwclr_GO : Fld := ⟨.cntNwclr, 63, 63⟩
def F.cntNwclr_RESULT : Fld := ⟨.cntNwclr, 62, 60⟩
def F.cntNwclr_PART : Fld := ⟨.cntNwclr, 58, 56⟩
def F.cntNwclr_ALL : Fld := ⟨.cntNwclr, 12, 12⟩
def F.cntNwclr_TENSOR : Fld := ⟨.cntNwclr, 11, 0⟩
def F.coreStatus_VCORE (n : Nat) : Fld := ⟨.coreStatus n, 47, 32⟩
def F.coreStatus_PART (n : Nat) : Fld := ⟨.coreStatus n, 26, 24⟩
def F.coreStatus_STATE (n : Nat) : Fld := ⟨.coreStatus n, 23, 20⟩
def F.coreStatus_PC (n : Nat) : Fld := ⟨.coreStatus n, 12, 0⟩
def F.coreErr_VALID (n : Nat) : Fld := ⟨.coreErr n, 63, 63⟩
def F.coreErr_OVR (n : Nat) : Fld := ⟨.coreErr n, 62, 62⟩
def F.coreErr_CODE (n : Nat) : Fld := ⟨.coreErr n, 55, 48⟩
def F.coreErr_STREAM (n : Nat) : Fld := ⟨.coreErr n, 47, 32⟩
def F.coreErr_PC (n : Nat) : Fld := ⟨.coreErr n, 12, 0⟩
def F.coreFence_FENCE (n : Nat) : Fld := ⟨.coreFence n, 0, 0⟩
def F.coreDbg_HALT (n : Nat) : Fld := ⟨.coreDbg n, 63, 63⟩
def F.coreDbg_STEP (n : Nat) : Fld := ⟨.coreDbg n, 62, 62⟩
def F.coreDbg_HALTED (n : Nat) : Fld := ⟨.coreDbg n, 61, 61⟩
def F.coreDbg_CAUSE (n : Nat) : Fld := ⟨.coreDbg n, 60, 58⟩
def F.coreDbg_BKHIT (n : Nat) : Fld := ⟨.coreDbg n, 57, 56⟩
def F.coreDbg_BKEN (n : Nat) : Fld := ⟨.coreDbg n, 3, 0⟩
def F.coreBkpt_PC3 (n : Nat) : Fld := ⟨.coreBkpt n, 60, 48⟩
def F.coreBkpt_PC2 (n : Nat) : Fld := ⟨.coreBkpt n, 44, 32⟩
def F.coreBkpt_PC1 (n : Nat) : Fld := ⟨.coreBkpt n, 28, 16⟩
def F.coreBkpt_PC0 (n : Nat) : Fld := ⟨.coreBkpt n, 12, 0⟩
def F.coreDreg_V (n i : Nat) : Fld := ⟨.coreDreg n i, 63, 0⟩
def F.coreVcfg_RSV (p : Nat) : Fld := ⟨.coreVcfg p, 36, 32⟩
def F.coreVcfg_VCOUNT (p : Nat) : Fld := ⟨.coreVcfg p, 8, 0⟩
def F.coreVmap_VALID (p v : Nat) : Fld := ⟨.coreVmap p v, 63, 63⟩
def F.coreVmap_PCORE (p v : Nat) : Fld := ⟨.coreVmap p v, 8, 0⟩
def F.mxeCtl_PASSES (n : Nat) : Fld := ⟨.mxeCtl n, 1, 0⟩
def F.mxeStat_QUEUE (n : Nat) : Fld := ⟨.mxeStat n, 52, 48⟩
def F.mxeStat_FIFO (n : Nat) : Fld := ⟨.mxeStat n, 46, 40⟩
def F.mxeStat_ACT_FMT (n : Nat) : Fld := ⟨.mxeStat n, 39, 36⟩
def F.mxeStat_ACT_VALID (n : Nat) : Fld := ⟨.mxeStat n, 35, 35⟩
def F.mxeStat_INACT_FMT (n : Nat) : Fld := ⟨.mxeStat n, 31, 28⟩
def F.mxeStat_INACT_STATE (n : Nat) : Fld := ⟨.mxeStat n, 27, 26⟩
def F.mxeCkctl_CKEN (n : Nat) : Fld := ⟨.mxeCkctl n, 0, 0⟩
def F.mxeCkcnt_SKIPPED (n : Nat) : Fld := ⟨.mxeCkcnt n, 63, 32⟩
def F.mxeCkcnt_COMPARED (n : Nat) : Fld := ⟨.mxeCkcnt n, 31, 0⟩
def F.mxeCklast_VALID (n : Nat) : Fld := ⟨.mxeCklast n, 63, 63⟩
def F.mxeCklast_ACC_ROW (n : Nat) : Fld := ⟨.mxeCklast n, 56, 48⟩
def F.mxeCklast_STREAM (n : Nat) : Fld := ⟨.mxeCklast n, 47, 32⟩
def F.mxeCklast_PC (n : Nat) : Fld := ⟨.mxeCklast n, 12, 0⟩
def F.mxePerf_BP_CYCLES (n : Nat) : Fld := ⟨.mxePerf n, 63, 32⟩
def F.mxePerf_BUBBLES (n : Nat) : Fld := ⟨.mxePerf n, 31, 0⟩
def F.vxeStat_QUEUE (n : Nat) : Fld := ⟨.vxeStat n, 52, 48⟩
def F.vxeStat_OP (n : Nat) : Fld := ⟨.vxeStat n, 15, 8⟩
def F.vxeStat_BUSY (n : Nat) : Fld := ⟨.vxeStat n, 0, 0⟩
def F.vxeFlags_FLUSH (n : Nat) : Fld := ⟨.vxeFlags n, 6, 6⟩
def F.vxeFlags_SAT (n : Nat) : Fld := ⟨.vxeFlags n, 5, 5⟩
def F.vxeFlags_NX (n : Nat) : Fld := ⟨.vxeFlags n, 4, 4⟩
def F.vxeFlags_UF (n : Nat) : Fld := ⟨.vxeFlags n, 3, 3⟩
def F.vxeFlags_OF (n : Nat) : Fld := ⟨.vxeFlags n, 2, 2⟩
def F.vxeFlags_DZ (n : Nat) : Fld := ⟨.vxeFlags n, 1, 1⟩
def F.vxeFlags_NV (n : Nat) : Fld := ⟨.vxeFlags n, 0, 0⟩
def F.vxePerf_CONFLICT (n : Nat) : Fld := ⟨.vxePerf n, 63, 32⟩
def F.vxePerf_OPS (n : Nat) : Fld := ⟨.vxePerf n, 31, 0⟩
def F.spmEcc_CORRECTED (n : Nat) : Fld := ⟨.spmEcc n, 63, 32⟩
def F.spmEcc_LAST (n : Nat) : Fld := ⟨.spmEcc n, 20, 0⟩
def F.rteCfg_DEVID : Fld := ⟨.rteCfg, 62, 48⟩
def F.rteCfg_TOPO_EPOCH : Fld := ⟨.rteCfg, 47, 16⟩
def F.rteCfg_ESC_WAIT_NS : Fld := ⟨.rteCfg, 15, 0⟩
def F.rteShape_TZ_Y : Fld := ⟨.rteShape, 44, 40⟩
def F.rteShape_TZ_X : Fld := ⟨.rteShape, 39, 35⟩
def F.rteShape_TY_Z : Fld := ⟨.rteShape, 34, 30⟩
def F.rteShape_TY_X : Fld := ⟨.rteShape, 29, 25⟩
def F.rteShape_TX_Z : Fld := ⟨.rteShape, 24, 20⟩
def F.rteShape_TX_Y : Fld := ⟨.rteShape, 19, 15⟩
def F.rteShape_LZM1 : Fld := ⟨.rteShape, 14, 10⟩
def F.rteShape_LYM1 : Fld := ⟨.rteShape, 9, 5⟩
def F.rteShape_LXM1 : Fld := ⟨.rteShape, 4, 0⟩
def F.rtePrimary_MASK (d : Nat) : Fld := ⟨.rtePrimary d, 63, 0⟩
def F.rteDetour_MASK (d : Nat) : Fld := ⟨.rteDetour d, 63, 0⟩
def F.rteEntc_VALID (d : Nat) : Fld := ⟨.rteEntc d, 63, 63⟩
def F.rteEntc_LOCAL (d : Nat) : Fld := ⟨.rteEntc d, 62, 62⟩
def F.rteEntc_ESC_VALID (d : Nat) : Fld := ⟨.rteEntc d, 61, 61⟩
def F.rteEntc_ESC_LINK (d : Nat) : Fld := ⟨.rteEntc d, 5, 0⟩
def F.prtCfg_STATE (p : Nat) : Fld := ⟨.prtCfg p, 63, 61⟩
def F.prtCfg_CLUSTERS (p : Nat) : Fld := ⟨.prtCfg p, 31, 0⟩
def F.prtStat_DEBUG_TOUCHED (p : Nat) : Fld := ⟨.prtStat p, 63, 63⟩
def F.prtStat_SEALED_READ (p : Nat) : Fld := ⟨.prtStat p, 62, 62⟩
def F.prtStat_ALLOW_N (p : Nat) : Fld := ⟨.prtStat p, 6, 0⟩
def F.prtCmd_GO : Fld := ⟨.prtCmd, 63, 63⟩
def F.prtCmd_RESULT : Fld := ⟨.prtCmd, 62, 60⟩
def F.prtCmd_CMD : Fld := ⟨.prtCmd, 59, 56⟩
def F.prtCmd_PART : Fld := ⟨.prtCmd, 2, 0⟩
def F.prtCmdarg_NALLOW : Fld := ⟨.prtCmdarg, 54, 48⟩
def F.prtCmdarg_ADDR : Fld := ⟨.prtCmdarg, 47, 0⟩
def F.prtRgnA_VALID (p i : Nat) : Fld := ⟨.prtRgnA p i, 63, 63⟩
def F.prtRgnA_TYPE (p i : Nat) : Fld := ⟨.prtRgnA p i, 62, 60⟩
def F.prtRgnA_RD (p i : Nat) : Fld := ⟨.prtRgnA p i, 59, 59⟩
def F.prtRgnA_WR (p i : Nat) : Fld := ⟨.prtRgnA p i, 58, 58⟩
def F.prtRgnA_ATOM (p i : Nat) : Fld := ⟨.prtRgnA p i, 57, 57⟩
def F.prtRgnA_SEALED (p i : Nat) : Fld := ⟨.prtRgnA p i, 56, 56⟩
def F.prtRgnA_SHARED (p i : Nat) : Fld := ⟨.prtRgnA p i, 55, 55⟩
def F.prtRgnA_HOST (p i : Nat) : Fld := ⟨.prtRgnA p i, 54, 54⟩
def F.prtRgnA_FABRIC (p i : Nat) : Fld := ⟨.prtRgnA p i, 53, 53⟩
def F.prtRgnA_BASE (p i : Nat) : Fld := ⟨.prtRgnA p i, 47, 0⟩
def F.prtRgnB_LIMIT (p i : Nat) : Fld := ⟨.prtRgnB p i, 47, 0⟩
def F.mgtFwstat_FWSTATE : Fld := ⟨.mgtFwstat, 63, 61⟩
def F.mgtFwstat_REASON : Fld := ⟨.mgtFwstat, 60, 56⟩
def F.mgtFwstat_HALO_PENDING : Fld := ⟨.mgtFwstat, 55, 55⟩
def F.mgtFwstat_UCODE_PENDING : Fld := ⟨.mgtFwstat, 54, 54⟩
def F.mgtFwstat_CFG_SEQ : Fld := ⟨.mgtFwstat, 47, 32⟩
def F.mgtFwstat_FW_VERSION : Fld := ⟨.mgtFwstat, 31, 0⟩
def F.mgtFwcmd_GO : Fld := ⟨.mgtFwcmd, 63, 63⟩
def F.mgtFwcmd_RESULT : Fld := ⟨.mgtFwcmd, 62, 60⟩
def F.mgtFwcmd_CMD : Fld := ⟨.mgtFwcmd, 59, 56⟩
def F.mgtFwcmd_DETAIL : Fld := ⟨.mgtFwcmd, 55, 48⟩
def F.mgtFwcmd_ALLOW_SEALED : Fld := ⟨.mgtFwcmd, 0, 0⟩
def F.mgtFwarg_WOFF : Fld := ⟨.mgtFwarg, 25, 0⟩
def F.mgtFwarea_LOCK : Fld := ⟨.mgtFwarea, 63, 63⟩
def F.mgtFwarea_BASE : Fld := ⟨.mgtFwarea, 47, 30⟩
def F.mgtRollback_COUNT : Fld := ⟨.mgtRollback, 6, 0⟩
def F.mgtLimits_LOG_USED : Fld := ⟨.mgtLimits, 44, 32⟩
def F.mgtLimits_HALO_LEFT : Fld := ⟨.mgtLimits, 20, 16⟩
def F.mgtLimits_OWNED : Fld := ⟨.mgtLimits, 15, 15⟩
def F.mgtLimits_ROLL_LEFT : Fld := ⟨.mgtLimits, 14, 8⟩
def F.mgtLimits_SEAL_LEFT : Fld := ⟨.mgtLimits, 3, 0⟩
def F.mgtCapstat_VIOL : Fld := ⟨.mgtCapstat, 63, 32⟩
def F.mgtCapstat_BADMSG : Fld := ⟨.mgtCapstat, 31, 0⟩
def F.mgtRcmd_GO : Fld := ⟨.mgtRcmd, 63, 63⟩
def F.mgtRcmd_BUSY : Fld := ⟨.mgtRcmd, 62, 62⟩
def F.mgtRcmd_RESULT : Fld := ⟨.mgtRcmd, 61, 59⟩
def F.mgtRcmd_CMD : Fld := ⟨.mgtRcmd, 58, 56⟩
def F.mgtFwwin_DATA (w : Nat) : Fld := ⟨.mgtFwwin w, 63, 0⟩
def F.mgtErrbase_EN (r : Nat) : Fld := ⟨.mgtErrbase r, 63, 63⟩
def F.mgtErrbase_LOG2N (r : Nat) : Fld := ⟨.mgtErrbase r, 52, 48⟩
def F.mgtErrbase_BASE (r : Nat) : Fld := ⟨.mgtErrbase r, 47, 0⟩
def F.mgtErrhead_HEAD (r : Nat) : Fld := ⟨.mgtErrhead r, 31, 0⟩
def F.mgtErrstat_LOST (r : Nat) : Fld := ⟨.mgtErrstat r, 63, 32⟩
def F.mgtErrstat_WRITTEN (r : Nat) : Fld := ⟨.mgtErrstat r, 31, 0⟩
def F.mgtErrirq_VECTOR (r : Nat) : Fld := ⟨.mgtErrirq r, 42, 32⟩
def F.mgtErrirq_MINCLASS (r : Nat) : Fld := ⟨.mgtErrirq r, 2, 0⟩
def F.memMchStat_STATE (m : Nat) : Fld := ⟨.memMchStat m, 63, 61⟩
def F.memMchStat_SPARE_PIN (m : Nat) : Fld := ⟨.memMchStat m, 45, 40⟩
def F.memMchStat_ERASED_PIN (m : Nat) : Fld := ⟨.memMchStat m, 37, 32⟩
def F.memMchStat_RETRAINS (m : Nat) : Fld := ⟨.memMchStat m, 31, 16⟩
def F.memMchStat_TRAIN_TEMP (m : Nat) : Fld := ⟨.memMchStat m, 7, 0⟩
def F.memMchEcc_CE (m : Nat) : Fld := ⟨.memMchEcc m, 63, 32⟩
def F.memMchEcc_UE (m : Nat) : Fld := ⟨.memMchEcc m, 31, 16⟩
def F.memMchEcc_POISON (m : Nat) : Fld := ⟨.memMchEcc m, 15, 0⟩
def F.memMchPin_PIN (m : Nat) : Fld := ⟨.memMchPin m, 37, 32⟩
def F.memMchPin_COUNT (m : Nat) : Fld := ⟨.memMchPin m, 31, 0⟩
def F.memCfg_AUTO_RETIRE : Fld := ⟨.memCfg, 48, 48⟩
def F.memCfg_RT_PERIOD : Fld := ⟨.memCfg, 47, 40⟩
def F.memCfg_RT_TEMP : Fld := ⟨.memCfg, 39, 32⟩
def F.memCfg_PIN_THRESH : Fld := ⟨.memCfg, 31, 16⟩
def F.memCfg_SCRUB_HOURS : Fld := ⟨.memCfg, 15, 8⟩
def F.memRetrain_GO : Fld := ⟨.memRetrain, 63, 63⟩
def F.memRetrain_RESULT : Fld := ⟨.memRetrain, 62, 60⟩
def F.memRetrain_MCH : Fld := ⟨.memRetrain, 9, 0⟩
def F.memRetire_GO : Fld := ⟨.memRetire, 63, 63⟩
def F.memRetire_MCH : Fld := ⟨.memRetire, 9, 0⟩
def F.memMap_COMMIT : Fld := ⟨.memMap, 63, 63⟩
def F.memMap_RETIRED : Fld := ⟨.memMap, 20, 16⟩
def F.memMap_N : Fld := ⟨.memMap, 9, 0⟩
def F.memLive_LIVE (i : Nat) : Fld := ⟨.memLive i, 63, 0⟩
def F.memStack_TEMP (s : Nat) : Fld := ⟨.memStack s, 15, 8⟩
def F.memStack_RATE (s : Nat) : Fld := ⟨.memStack s, 1, 0⟩
def F.nocXstat_RETRIES (x : Nat) : Fld := ⟨.nocXstat x, 63, 32⟩
def F.nocXstat_MODULES (x : Nat) : Fld := ⟨.nocXstat x, 5, 0⟩
def F.llcGrp_SPW (g : Nat) : Fld := ⟨.llcGrp g, 4, 0⟩
def F.llcCommit_BUSY : Fld := ⟨.llcCommit, 63, 63⟩
def F.llcCommit_RESULT : Fld := ⟨.llcCommit, 62, 60⟩
def F.llcCommit_GO : Fld := ⟨.llcCommit, 0, 0⟩
def F.lnkCfg_EN (l : Nat) : Fld := ⟨.lnkCfg l, 63, 63⟩
def F.lnkCfg_POLICY (l : Nat) : Fld := ⟨.lnkCfg l, 62, 61⟩
def F.lnkCfg_ENC (l : Nat) : Fld := ⟨.lnkCfg l, 60, 60⟩
def F.lnkCfg_PART (l : Nat) : Fld := ⟨.lnkCfg l, 58, 56⟩
def F.lnkCfg_GEN_ALLOW (l : Nat) : Fld := ⟨.lnkCfg l, 53, 52⟩
def F.lnkCfg_MINWL (l : Nat) : Fld := ⟨.lnkCfg l, 51, 48⟩
def F.lnkStat_STATE (l : Nat) : Fld := ⟨.lnkStat l, 63, 61⟩
def F.lnkStat_GEN (l : Nat) : Fld := ⟨.lnkStat l, 60, 59⟩
def F.lnkStat_WL (l : Nat) : Fld := ⟨.lnkStat l, 58, 56⟩
def F.lnkStat_WL_MASK (l : Nat) : Fld := ⟨.lnkStat l, 55, 52⟩
def F.lnkStat_ENC_ACTIVE (l : Nat) : Fld := ⟨.lnkStat l, 51, 51⟩
def F.lnkStat_RETRAIN (l : Nat) : Fld := ⟨.lnkStat l, 50, 50⟩
def F.lnkStat_DIST (l : Nat) : Fld := ⟨.lnkStat l, 49, 48⟩
def F.lnkStat_REASON (l : Nat) : Fld := ⟨.lnkStat l, 47, 44⟩
def F.lnkPeerId_VALID (l : Nat) : Fld := ⟨.lnkPeerId l, 63, 63⟩
def F.lnkPeerId_DEVID (l : Nat) : Fld := ⟨.lnkPeerId l, 62, 48⟩
def F.lnkPeerId_SERIAL (l : Nat) : Fld := ⟨.lnkPeerId l, 47, 0⟩
def F.lnkPeerInfo_TOPO_EPOCH (l : Nat) : Fld := ⟨.lnkPeerInfo l, 63, 32⟩
def F.lnkPeerInfo_GENS (l : Nat) : Fld := ⟨.lnkPeerInfo l, 31, 28⟩
def F.lnkPeerInfo_PORT (l : Nat) : Fld := ⟨.lnkPeerInfo l, 21, 16⟩
def F.lnkPeerInfo_FW_VERSION (l : Nat) : Fld := ⟨.lnkPeerInfo l, 15, 0⟩
def F.lnkExpect_VALID (l : Nat) : Fld := ⟨.lnkExpect l, 63, 63⟩
def F.lnkExpect_DEVID (l : Nat) : Fld := ⟨.lnkExpect l, 62, 48⟩
def F.lnkExpect_PORT (l : Nat) : Fld := ⟨.lnkExpect l, 45, 40⟩
def F.lnkCnt_FLIT_CRC (l : Nat) : Fld := ⟨.lnkCnt l, 63, 32⟩
def F.lnkCnt_REPLAYS (l : Nat) : Fld := ⟨.lnkCnt l, 31, 16⟩
def F.lnkCnt_RETRAINS (l : Nat) : Fld := ⟨.lnkCnt l, 15, 0⟩
def F.lnkFec_CORR (l : Nat) : Fld := ⟨.lnkFec l, 63, 32⟩
def F.lnkFec_UNCORR (l : Nat) : Fld := ⟨.lnkFec l, 31, 0⟩
def F.lnkMap_PHYS (l : Nat) : Fld := ⟨.lnkMap l, 5, 0⟩
def F.lnkEcl_FORCE (p : Nat) : Fld := ⟨.lnkEcl p, 63, 63⟩
def F.lnkEcl_STATE (p : Nat) : Fld := ⟨.lnkEcl p, 1, 0⟩
def F.colCfg_AGREE_MS : Fld := ⟨.colCfg, 47, 32⟩
def F.colCfg_ABORT_MS : Fld := ⟨.colCfg, 31, 16⟩
def F.colCfg_STALL_MS : Fld := ⟨.colCfg, 15, 0⟩
def F.colPool_LOCK : Fld := ⟨.colPool, 63, 63⟩
def F.colPool_CHUNKS : Fld := ⟨.colPool, 44, 32⟩
def F.colPool_BASE : Fld := ⟨.colPool, 29, 16⟩
def F.colPriv_LOCK : Fld := ⟨.colPriv, 63, 63⟩
def F.colPriv_BASE : Fld := ⟨.colPriv, 47, 30⟩
def F.colPoolstat_ACTIVE : Fld := ⟨.colPoolstat, 44, 32⟩
def F.colPoolstat_RESERVED : Fld := ⟨.colPoolstat, 28, 16⟩
def F.colPoolstat_FREE : Fld := ⟨.colPoolstat, 12, 0⟩
def F.colStat_STALE : Fld := ⟨.colStat, 63, 32⟩
def F.colStat_BADMSG : Fld := ⟨.colStat, 31, 0⟩
def F.colGcmd_GO : Fld := ⟨.colGcmd, 63, 63⟩
def F.colGcmd_RESULT : Fld := ⟨.colGcmd, 62, 60⟩
def F.colGcmd_CMD : Fld := ⟨.colGcmd, 59, 56⟩
def F.colGcmd_GROUP : Fld := ⟨.colGcmd, 11, 0⟩
def F.colGdata0_VALID : Fld := ⟨.colGdata0, 63, 63⟩
def F.colGdata0_ACTIVE : Fld := ⟨.colGdata0, 62, 62⟩
def F.colGdata0_PART : Fld := ⟨.colGdata0, 58, 56⟩
def F.colGdata0_STREAM : Fld := ⟨.colGdata0, 47, 32⟩
def F.colGdata0_EPOCH : Fld := ⟨.colGdata0, 15, 0⟩
def F.colGdata1_PM1 : Fld := ⟨.colGdata1, 62, 48⟩
def F.colGdata1_MYRANK : Fld := ⟨.colGdata1, 46, 32⟩
def F.colGdata1_SHAPED : Fld := ⟨.colGdata1, 15, 15⟩
def F.colGdata1_GZM1 : Fld := ⟨.colGdata1, 14, 10⟩
def F.colGdata1_GYM1 : Fld := ⟨.colGdata1, 9, 5⟩
def F.colGdata1_GXM1 : Fld := ⟨.colGdata1, 4, 0⟩
def F.colGdata2_MLIST : Fld := ⟨.colGdata2, 47, 0⟩
def F.colGdata3_LAST_OK : Fld := ⟨.colGdata3, 63, 32⟩
def F.colGdata3_GSEQ : Fld := ⟨.colGdata3, 31, 0⟩
def F.colChcfg_EN (c : Nat) : Fld := ⟨.colChcfg c, 63, 63⟩
def F.colChcfg_PART (c : Nat) : Fld := ⟨.colChcfg c, 58, 56⟩
def F.colChcfg_PRIV (c : Nat) : Fld := ⟨.colChcfg c, 48, 48⟩
def F.colChcnt_STALLS (c : Nat) : Fld := ⟨.colChcnt c, 63, 48⟩
def F.colChcnt_RESEND (c : Nat) : Fld := ⟨.colChcnt c, 47, 32⟩
def F.colChcnt_OPS (c : Nat) : Fld := ⟨.colChcnt c, 31, 0⟩
def F.colChdrop_DROPPED (c : Nat) : Fld := ⟨.colChdrop c, 63, 0⟩
def F.hstHb_BEAT (f : Nat) : Fld := ⟨.hstHb f, 63, 0⟩
def F.hstHbcfg_POLICY (f : Nat) : Fld := ⟨.hstHbcfg f, 33, 32⟩
def F.hstHbcfg_TIMEOUT_MS (f : Nat) : Fld := ⟨.hstHbcfg f, 15, 0⟩
def F.hstAttach_LOST (f : Nat) : Fld := ⟨.hstAttach f, 63, 63⟩
def F.hstAttach_ATTACH (f : Nat) : Fld := ⟨.hstAttach f, 62, 62⟩
def F.hstAttach_DETACH (f : Nat) : Fld := ⟨.hstAttach f, 61, 61⟩
def F.hstAttach_EPOCH (f : Nat) : Fld := ⟨.hstAttach f, 15, 0⟩
def F.hstFstat_DB_DROP (f : Nat) : Fld := ⟨.hstFstat f, 63, 48⟩
def F.hstFstat_DENIED (f : Nat) : Fld := ⟨.hstFstat f, 47, 32⟩
def F.hstFstat_LOG_LOST (f : Nat) : Fld := ⟨.hstFstat f, 31, 0⟩
def F.hstHdm_VALID (k : Nat) : Fld := ⟨.hstHdm k, 63, 63⟩
def F.hstHdm_MODE (k : Nat) : Fld := ⟨.hstHdm k, 62, 62⟩
def F.hstHdm_PART (k : Nat) : Fld := ⟨.hstHdm k, 58, 56⟩
def F.hstHdm_DPA_BASE (k : Nat) : Fld := ⟨.hstHdm k, 47, 30⟩
def F.hstId0_STEPPING : Fld := ⟨.hstId0, 63, 60⟩
def F.hstId0_SERIAL : Fld := ⟨.hstId0, 47, 0⟩
def F.hstId1_IDCODE : Fld := ⟨.hstId1, 63, 32⟩
def F.hstId1_PARTNO : Fld := ⟨.hstId1, 15, 0⟩
def F.ethCfg_MTU (p : Nat) : Fld := ⟨.ethCfg p, 31, 16⟩
def F.ethCfg_EN (p : Nat) : Fld := ⟨.ethCfg p, 8, 8⟩
def F.ethCfg_SPEED (p : Nat) : Fld := ⟨.ethCfg p, 2, 0⟩
def F.ethStat_FEC_CORR (p : Nat) : Fld := ⟨.ethStat p, 63, 32⟩
def F.ethStat_FEC_UNCORR (p : Nat) : Fld := ⟨.ethStat p, 31, 16⟩
def F.ethStat_UP (p : Nat) : Fld := ⟨.ethStat p, 0, 0⟩
def F.safStat_STATE : Fld := ⟨.safStat, 63, 62⟩
def F.safStat_WDOG : Fld := ⟨.safStat, 61, 61⟩
def F.safStat_TJ_MAX : Fld := ⟨.safStat, 47, 40⟩
def F.safStat_TJ_DIE : Fld := ⟨.safStat, 39, 36⟩
def F.safStat_STK_MAX : Fld := ⟨.safStat, 31, 24⟩
def F.safStat_STK : Fld := ⟨.safStat, 23, 20⟩
def F.safStat_DENIED : Fld := ⟨.safStat, 15, 0⟩
def F.safAlert_THRESH : Fld := ⟨.safAlert, 7, 7⟩
def F.safAlert_OFC : Fld := ⟨.safAlert, 6, 6⟩
def F.safAlert_SENSOR : Fld := ⟨.safAlert, 5, 5⟩
def F.safAlert_BOOT : Fld := ⟨.safAlert, 4, 4⟩
def F.safAlert_FATAL : Fld := ⟨.safAlert, 3, 3⟩
def F.safAlert_TRIP : Fld := ⟨.safAlert, 2, 2⟩
def F.safAlert_RAMP : Fld := ⟨.safAlert, 1, 1⟩
def F.safAlert_THROTTLE : Fld := ⟨.safAlert, 0, 0⟩
def F.safThr0_OC_TRIP_PCT : Fld := ⟨.safThr0, 55, 48⟩
def F.safThr0_OC_THR_PCT : Fld := ⟨.safThr0, 47, 40⟩
def F.safThr0_OFC_MS : Fld := ⟨.safThr0, 35, 32⟩
def F.safThr0_STK_TRIP : Fld := ⟨.safThr0, 31, 24⟩
def F.safThr0_STK_THR : Fld := ⟨.safThr0, 23, 16⟩
def F.safThr0_TJ_TRIP : Fld := ⟨.safThr0, 15, 8⟩
def F.safThr0_TJ_THR : Fld := ⟨.safThr0, 7, 0⟩
def F.safThr1_PKG_LIMIT : Fld := ⟨.safThr1, 27, 16⟩
def F.safThr1_RAMP_UP : Fld := ⟨.safThr1, 7, 0⟩
def F.safProp0_OC_TRIP_PCT : Fld := ⟨.safProp0, 55, 48⟩
def F.safProp0_OC_THR_PCT : Fld := ⟨.safProp0, 47, 40⟩
def F.safProp0_OFC_MS : Fld := ⟨.safProp0, 35, 32⟩
def F.safProp0_STK_TRIP : Fld := ⟨.safProp0, 31, 24⟩
def F.safProp0_STK_THR : Fld := ⟨.safProp0, 23, 16⟩
def F.safProp0_TJ_TRIP : Fld := ⟨.safProp0, 15, 8⟩
def F.safProp0_TJ_THR : Fld := ⟨.safProp0, 7, 0⟩
def F.safProp1_PKG_LIMIT : Fld := ⟨.safProp1, 27, 16⟩
def F.safProp1_RAMP_UP : Fld := ⟨.safProp1, 7, 0⟩
def F.safReq_GO : Fld := ⟨.safReq, 63, 63⟩
def F.safReq_RESULT : Fld := ⟨.safReq, 62, 60⟩
def F.safLaser_HELD : Fld := ⟨.safLaser, 63, 0⟩
def F.safStore_W (w : Nat) : Fld := ⟨.safStore w, 63, 0⟩
def F.secStat_MSTATE : Fld := ⟨.secStat, 63, 62⟩
def F.secStat_APPROVED : Fld := ⟨.secStat, 61, 61⟩
def F.secSealpol_LEFT : Fld := ⟨.secSealpol, 11, 8⟩
def F.secSealpol_REQ_IDE : Fld := ⟨.secSealpol, 2, 2⟩
def F.secSealpol_REQ_LINK_ENC : Fld := ⟨.secSealpol, 1, 1⟩
def F.secSealpol_SEAL_ALLOW : Fld := ⟨.secSealpol, 0, 0⟩
def F.secZeroize_GO : Fld := ⟨.secZeroize, 0, 0⟩
def F.secMsess_OPEN : Fld := ⟨.secMsess, 63, 56⟩
def F.secMsess_DISCARDED : Fld := ⟨.secMsess, 31, 0⟩
def F.secOpauth_DIGEST (i : Nat) : Fld := ⟨.secOpauth i, 63, 0⟩
def F.mbxCmd_GO (f : Nat) : Fld := ⟨.mbxCmd f, 63, 63⟩
def F.mbxCmd_BUSY (f : Nat) : Fld := ⟨.mbxCmd f, 62, 62⟩
def F.mbxCmd_STATUS (f : Nat) : Fld := ⟨.mbxCmd f, 55, 48⟩
def F.mbxCmd_PART (f : Nat) : Fld := ⟨.mbxCmd f, 10, 8⟩
def F.mbxCmd_CMD (f : Nat) : Fld := ⟨.mbxCmd f, 1, 0⟩
def F.mbxArg_V (f a : Nat) : Fld := ⟨.mbxArg f a, 63, 0⟩
def F.trcBcfg_EN (b : Nat) : Fld := ⟨.trcBcfg b, 63, 63⟩
def F.trcBcfg_MODE (b : Nat) : Fld := ⟨.trcBcfg b, 62, 61⟩
def F.trcBcfg_CRASH_CLASS (b : Nat) : Fld := ⟨.trcBcfg b, 60, 58⟩
def F.trcBcfg_LOG2SZ (b : Nat) : Fld := ⟨.trcBcfg b, 52, 48⟩
def F.trcBcfg_PRE_MIB (b : Nat) : Fld := ⟨.trcBcfg b, 31, 16⟩
def F.trcBcfg_POST_MIB (b : Nat) : Fld := ⟨.trcBcfg b, 15, 0⟩
def F.trcBbase_BASE (b : Nat) : Fld := ⟨.trcBbase b, 47, 0⟩
def F.trcBctl_REARM (b : Nat) : Fld := ⟨.trcBctl b, 63, 63⟩
def F.trcBctl_TRIGGER (b : Nat) : Fld := ⟨.trcBctl b, 62, 62⟩
def F.trcBstat_STATE (b : Nat) : Fld := ⟨.trcBstat b, 63, 61⟩
def F.trcBstat_WRAPPED (b : Nat) : Fld := ⟨.trcBstat b, 60, 60⟩
def F.trcBstat_FROZEN (b : Nat) : Fld := ⟨.trcBstat b, 59, 59⟩
def F.trcBstat_WRPOS (b : Nat) : Fld := ⟨.trcBstat b, 31, 0⟩
def F.trcBtrig_TRIGPOS (b : Nat) : Fld := ⟨.trcBtrig b, 63, 32⟩
def F.trcBtrig_CRASHPOS (b : Nat) : Fld := ⟨.trcBtrig b, 31, 0⟩
def F.trcBloss_DROPPED (b : Nat) : Fld := ⟨.trcBloss b, 63, 0⟩
def F.trcTrig_EN (b i : Nat) : Fld := ⟨.trcTrig b i, 63, 63⟩
def F.trcTrig_ANYSRC (b i : Nat) : Fld := ⟨.trcTrig b i, 62, 62⟩
def F.trcTrig_MINCLASS (b i : Nat) : Fld := ⟨.trcTrig b i, 61, 59⟩
def F.trcTrig_SRC (b i : Nat) : Fld := ⟨.trcTrig b i, 55, 44⟩
def F.trcTrig_EVENT (b i : Nat) : Fld := ⟨.trcTrig b i, 43, 36⟩
def F.trcSrcen_SRC (b w : Nat) : Fld := ⟨.trcSrcen b w, 63, 0⟩
def F.trcMkr_EN : Fld := ⟨.trcMkr, 63, 63⟩
def F.trcMkr_PLOG2 : Fld := ⟨.trcMkr, 4, 0⟩
def F.trcRdpos_ADDR : Fld := ⟨.trcRdpos, 47, 0⟩
def F.trcRdwin_W (w : Nat) : Fld := ⟨.trcRdwin w, 63, 0⟩
def F.pwrSp_MODE (s : Nat) : Fld := ⟨.pwrSp s, 63, 62⟩
def F.pwrSp_LEASE_MS (s : Nat) : Fld := ⟨.pwrSp s, 47, 32⟩
def F.pwrSp_WATTS (s : Nat) : Fld := ⟨.pwrSp s, 11, 0⟩
def F.pwrStat_MODE : Fld := ⟨.pwrStat, 63, 62⟩
def F.pwrStat_SRC : Fld := ⟨.pwrStat, 61, 60⟩
def F.pwrStat_PARK : Fld := ⟨.pwrStat, 59, 58⟩
def F.pwrStat_D : Fld := ⟨.pwrStat, 57, 52⟩
def F.pwrStat_G : Fld := ⟨.pwrStat, 51, 47⟩
def F.pwrStat_TARGET : Fld := ⟨.pwrStat, 43, 32⟩
def F.pwrStat_CEIL : Fld := ⟨.pwrStat, 27, 16⟩
def F.pwrStat_VCMD : Fld := ⟨.pwrStat, 11, 0⟩
def F.pwrTel_EST : Fld := ⟨.pwrTel, 47, 32⟩
def F.pwrTel_MEAS : Fld := ⟨.pwrTel, 15, 0⟩
def F.pwrGov_DMIN : Fld := ⟨.pwrGov, 5, 0⟩
def F.pwrTen_POWER : Fld := ⟨.pwrTen, 47, 32⟩
def F.pwrTen_TJ : Fld := ⟨.pwrTen, 15, 8⟩
def F.pwrTen_STK : Fld := ⟨.pwrTen, 7, 0⟩
def F.pwrRail_MV (r : Nat) : Fld := ⟨.pwrRail r, 47, 32⟩
def F.pwrRail_MA (r : Nat) : Fld := ⟨.pwrRail r, 31, 0⟩
def F.pwrVf_VMIN (i : Nat) : Fld := ⟨.pwrVf i, 9, 0⟩
def F.rstCmd_GO : Fld := ⟨.rstCmd, 63, 63⟩
def F.rstCmd_RESULT : Fld := ⟨.rstCmd, 62, 60⟩
def F.rstCmd_LEVEL : Fld := ⟨.rstCmd, 59, 58⟩
def F.rstCmd_TARGET : Fld := ⟨.rstCmd, 8, 0⟩
def F.rstStat_DEVICE_RESETS : Fld := ⟨.rstStat, 63, 32⟩
def F.rstStat_WARM_RESETS : Fld := ⟨.rstStat, 31, 16⟩
def F.rstStat_LOCAL_RESETS : Fld := ⟨.rstStat, 15, 0⟩
def F.bootStatus_STAGE : Fld := ⟨.bootStatus, 63, 60⟩
def F.bootStatus_STATE : Fld := ⟨.bootStatus, 59, 58⟩
def F.bootStatus_WARM : Fld := ⟨.bootStatus, 57, 57⟩
def F.bootStatus_BELOW : Fld := ⟨.bootStatus, 56, 56⟩
def F.bootStatus_FDR_USED : Fld := ⟨.bootStatus, 48, 40⟩
def F.bootStatus_CODE : Fld := ⟨.bootStatus, 15, 0⟩
def F.bootCtl_FORCE_COLD : Fld := ⟨.bootCtl, 4, 4⟩
def F.bootCtl_STOP_AFTER : Fld := ⟨.bootCtl, 3, 0⟩
def F.bootReport_W (s w : Nat) : Fld := ⟨.bootReport s w, 63, 0⟩
def F.bootFloorplan_W (w : Nat) : Fld := ⟨.bootFloorplan w, 63, 0⟩
def F.bootFdr_W (w : Nat) : Fld := ⟨.bootFdr w, 63, 0⟩
def F.arbCommit_GO (d : Nat) : Fld := ⟨.arbCommit d, 63, 63⟩
def F.arbCommit_PENDING (d : Nat) : Fld := ⟨.arbCommit d, 62, 62⟩
def F.arbCommit_COMMITS (d : Nat) : Fld := ⟨.arbCommit d, 31, 0⟩
def F.arbCls (d t r : Nat) : Fld := ⟨.arbCls d t (r / 32), 2 * (r % 32) + 1, 2 * (r % 32)⟩
def F.arbMaxwait_MAXWAIT (d t : Nat) : Fld := ⟨.arbMaxwait d t, 15, 0⟩
def F.umbSet_EN (p : Nat) : Fld := ⟨.umbSet p, 63, 63⟩
def F.umbSet_SM1 (p : Nat) : Fld := ⟨.umbSet p, 59, 56⟩
def F.umbSet_MYIDX (p : Nat) : Fld := ⟨.umbSet p, 55, 52⟩
def F.umbSet_CHANNEL (p : Nat) : Fld := ⟨.umbSet p, 51, 46⟩
def F.umbSet_GROUP (p : Nat) : Fld := ⟨.umbSet p, 43, 32⟩
def F.umbSet_JSTREAM (p : Nat) : Fld := ⟨.umbSet p, 31, 16⟩
def F.umbSet_USTREAM (p : Nat) : Fld := ⟨.umbSet p, 15, 0⟩
def F.umbProt_BASE (p : Nat) : Fld := ⟨.umbProt p, 47, 0⟩
def F.umbRows_ROWS (p : Nat) : Fld := ⟨.umbRows p, 31, 0⟩
def F.umbPar_BASE (p : Nat) : Fld := ⟨.umbPar p, 47, 0⟩
def F.umbWin_NROWS (p : Nat) : Fld := ⟨.umbWin p, 63, 48⟩
def F.umbWin_BASE (p : Nat) : Fld := ⟨.umbWin p, 47, 0⟩
def F.umbStat_STATE (p : Nat) : Fld := ⟨.umbStat p, 63, 61⟩
def F.umbStat_WINDOW (p : Nat) : Fld := ⟨.umbStat p, 60, 32⟩
def F.umbStat_STEP (p : Nat) : Fld := ⟨.umbStat p, 31, 0⟩
def F.umbCmd_GO (p : Nat) : Fld := ⟨.umbCmd p, 63, 63⟩
def F.umbCmd_RESULT (p : Nat) : Fld := ⟨.umbCmd p, 62, 60⟩
def F.umbCmd_CMD (p : Nat) : Fld := ⟨.umbCmd p, 59, 56⟩
def F.umbCmd_IDX (p : Nat) : Fld := ⟨.umbCmd p, 55, 52⟩
def F.umbRange_RCOUNT (p : Nat) : Fld := ⟨.umbRange p, 63, 32⟩
def F.umbRange_RFIRST (p : Nat) : Fld := ⟨.umbRange p, 31, 0⟩

/-- The reset class of requester `r` of an arbiter of type `t` (R334). -/
def arbClsReset (t r : Nat) : Nat :=
  match t with
  | 0 => [3, 2, 3, 1, 0, 1, 2].getD r 0
  | 1 => if r < 8 then 1 else 0
  | 2 | 3 => [1, 3, 3, 2].getD r 0
  | 4 => [2, 3, 3, 1].getD r 0
  | 5 => [2, 2, 0].getD r 0
  | 6 => if r < 12 then [1, 3, 2, 3].getD (r / 3) 0 else 0
  | 7 => if r < 8 then 2 else if r < 64 then 1 else 0
  | 8 => if r < 8 then 1 else 0
  | _ => 0

/-- The sum of the fields' reset values, each at its place. -/
def layoutReset : List FldSpec → Nat
  | [] => 0
  | f :: fs => f.rst * 2 ^ f.lo + layoutReset fs

/-- The value a register holds after a device reset (R494): the Reset column, where a field marked cfg, fuse or - stands at 0 until the stage that loads it (log entry 3). -/
def Reg.resetWord : Reg → BitVec 64
  | .nocXstat x => BitVec.ofNat 64 (if x < 4 then 40 else if x < 8 then 24 else 12)
  | .lnkMap l => BitVec.ofNat 64 l
  | .colChcfg c => BitVec.ofNat 64 (if c < 8 then 2 ^ 48 else 0)
  | .arbCls d t j => if arbPresent d t then BitVec.ofNat 64 ((List.range 32).foldl (fun w r => w + arbClsReset t (32 * j + r) * 4 ^ r) 0) else 0
  | r => BitVec.ofNat 64 (layoutReset r.layout)

/-- The reset value of the register word at offset `o` of the register space; an unassigned offset reads 0 (R13). -/
def regReset (o : Nat) : BitVec 64 := match Reg.ofOff o with | some r => r.resetWord | none => 0

end Sys2Proof.Machine
end

