-- ==== Sys2Proof/Machine/Sparse.lean ====
section
/-! DEFINITION. Finite maps over natural keys in one canonical form: keys strictly rising, and no entry equal to what an unlisted key reads as. Memory and every large array of State is one. -/

namespace Sys2Proof.Machine

/-- A map from keys to values of which only the entries that differ from the default are listed. -/
abbrev Sparse (β : Type) := List (Nat × β)

/-- The value listed for key `k`, if any. -/
def Sparse.find {β : Type} : Sparse β → Nat → Option β
  | [], _ => none
  | (a, b) :: m, k => if a = k then some b else Sparse.find m k

/-- The value at key `k`: the listed one, else the default of that key. -/
def Sparse.getD {β : Type} (d : Nat → β) (m : Sparse β) (k : Nat) : β := (m.find k).getD (d k)

/-- Remove key `k`. -/
def Sparse.erase {β : Type} : Sparse β → Nat → Sparse β
  | [], _ => []
  | (a, b) :: m, k => if a = k then Sparse.erase m k else (a, b) :: Sparse.erase m k

/-- List `v` at key `k`, keeping the keys strictly rising. -/
def Sparse.insert {β : Type} : Sparse β → Nat → β → Sparse β
  | [], k, v => [(k, v)]
  | (a, b) :: m, k, v =>
    if a < k then (a, b) :: Sparse.insert m k v
    else if a = k then (k, v) :: m
    else (k, v) :: (a, b) :: m

/-- Write `v` at key `k`; writing the default removes the entry. -/
def Sparse.setD {β : Type} [DecidableEq β] (d : Nat → β) (m : Sparse β) (k : Nat) (v : β) : Sparse β :=
  if v = d k then m.erase k else m.insert k v

/-- Return every key from `lo` to `hi - 1` to its default. -/
def Sparse.clearRange {β : Type} (m : Sparse β) (lo hi : Nat) : Sparse β :=
  m.filter fun e => decide (e.1 < lo) || decide (hi ≤ e.1)

/-- The listed entries with keys from `lo` to `hi - 1`. -/
def Sparse.range {β : Type} (m : Sparse β) (lo hi : Nat) : Sparse β :=
  m.filter fun e => decide (lo ≤ e.1) && decide (e.1 < hi)

/-- Every listed key lies above `lo`, the keys rise strictly, and no entry equals its key's default. -/
def Sparse.wfFrom {β : Type} [DecidableEq β] (d : Nat → β) : Option Nat → Sparse β → Bool
  | _, [] => true
  | lo, (a, b) :: m =>
    (match lo with | none => true | some l => decide (l < a)) && decide (b ≠ d a) && Sparse.wfFrom d (some a) m

/-- The canonical form of a map. -/
def Sparse.wf {β : Type} [DecidableEq β] (d : Nat → β) (m : Sparse β) : Bool := Sparse.wfFrom d none m

end Sys2Proof.Machine
end

