-- ==== Sys2Proof/Machine/State.lean ====
section
/-! DEFINITION. The state of the device as plain data, the reasons a step can stop, and the state after reset. -/

namespace Sys2Proof.Machine

/-- Why a step stops with a fault. No rule of the spec stops the device without an effect, so only a command that is none is answered so. -/
inductive Fault where
  /-- Raised by the meaning of a row that carries whole bursts, lines or flits when its data are not of that length: no such command can be sent (Sys2Proof.wellFormed); safe. -/
  | illFormed
  deriving DecidableEq, Repr

/-- Why a step is refused. -/
inductive Refusal where
  /-- Raised by exec for a row that has no meaning yet; safe. -/
  | notModelled (mnemonic : String)
  deriving DecidableEq, Repr

/-! ### A core (R37) -/

/-- A kernel instance (R38): what its LAUNCH named, and its progress. -/
structure KInst where
  stream : Nat
  part : Nat
  vcore : Nat
  seq : Nat
  prog : Nat
  bundles : Nat
  entry : Nat
  restore : Nat
  noReplay : Bool
  args : Nat
  ckpt : Nat
  /-- TBs passed (R67). -/
  nTB : Nat
  /-- Core faults since the last TB (R70). -/
  faultsTB : Nat
  /-- CSR 0x04. -/
  replays : Nat
  /-- CSR 0x03. -/
  rpc : Nat
  /-- The slot of the newest valid checkpoint (R67). -/
  valid : Option Nat
  /-- The core runs a replayed instance that has passed no TB yet (R69). -/
  replaying : Bool
  deriving DecidableEq, Repr

/-- A stationary buffer of the matrix engine (R76, R83, R85): state 0 EMPTY, 1 LOADING, 2 LOADED; elements at k*64+n; scales at block*64+n; checksum values at 3k+piece; marks of non-finite checksum registers by array row. -/
structure StatBuf where
  st : Nat
  fmt : Nat
  kx : Nat
  elems : Sparse Nat
  scales : Sparse Nat
  chk : Sparse Nat
  nf : Sparse Bool
  deriving DecidableEq, Repr

/-- An empty stationary buffer. -/
def StatBuf.empty : StatBuf := ⟨0, 0, 0, [], [], [], []⟩

/-- The matrix configuration in force (R81, R118), with the vectors and table read at the MCFG. -/
structure OutCfg where
  passes : Nat
  scale : Nat
  statEn : Bool
  remT : Nat
  remEn : Bool
  biasFmt : Nat
  biasEn : Bool
  scaleMode : Nat
  act : Nat
  nanTrap : Bool
  ftz : Bool
  round : Nat
  outFmt : Nat
  clampHi : Nat
  clampLo : Nat
  hexp : Int
  x0 : Nat
  statBase : Nat
  ctrBase : Nat
  srKey : Nat
  bias : List Nat
  scales : List Nat
  table : List Nat
  deriving DecidableEq, Repr

/-- The configuration before the first MCFG of an instance (R82): PASSES 1. -/
def OutCfg.init : OutCfg :=
  ⟨1, 0, false, 0, false, 0, false, 0, 0, false, false, 0, 0, 0, 0, 0, 0, 0, 0, 0, [], [], []⟩

/-- A queued matrix or vector operation (R79, R156): its slot bits, the bundle that issued it, and those of its registers that another slot of that bundle writes, as they stood before (R40). -/
structure QCmd where
  slot : Nat
  pc : Nat
  was : List (Nat × Nat)
  deriving DecidableEq, Repr

/-- A vector operation that has started and not finished (R156): the vector registers it writes, SIG, its opcode. -/
structure VRun where
  dst : List Nat
  sig : Bool
  opc : Nat
  deriving DecidableEq, Repr

/-- A DMA descriptor in a queue (R51): its 128 bytes as a number, whether it has passed its checks, the elements moved, the index list read for it, and the MCH for which its next request waits (R210, R212). -/
structure DmaJob where
  desc : Nat
  checked : Bool
  done : Nat
  idx : List Nat
  waitM : Option Nat := none
  deriving DecidableEq, Repr

/-- One of a core's two address generators (R341): the queue it serves and the bytes moved since it was taken. -/
structure Gen where
  queue : Option Nat
  bytes : Nat
  deriving DecidableEq, Repr

/-- A core (R37, R76, R79, R110, R144). -/
structure CoreS where
  pc : Nat
  /-- The microcode mode bit (R41). -/
  umode : Bool
  /-- Registers 0-47: s0-s31, a0-a15. -/
  r : Sparse Word
  t : Sparse (BitVec 256)
  ev : Sparse (BitVec 32)
  /-- Vector registers, byte b of v at v*8192+b. -/
  vr : Sparse Byte
  imem : Sparse (BitVec 256)
  /-- Accumulator store, row r column c at r*65+c (R110). -/
  acc : Sparse Nat
  accH : Sparse (Option Int)
  accN : Sparse Nat
  accF : Sparse Bool
  act : StatBuf
  inact : StatBuf
  mq : List QCmd
  mcfg : OutCfg
  cfgSeen : Bool
  ldBusy : Bool
  stBusy : Bool
  drBusy : Bool
  /-- Ranges of the scratchpad, as first byte and length, that the running drain command writes (R115). -/
  drParts : List (Nat × Nat)
  /-- Rows in the drain FIFO (R89). -/
  fifo : Nat
  vq : List QCmd
  vrun : List VRun
  dmaq : List (List DmaJob)
  gens : List Gen
  /-- BAR of the sync slot: 0 none, 1 arrival sent, 2 generation complete (R60). -/
  bar : Nat
  /-- Arrivals and EVREMs since the last TB as the barrier unit counts them, completions, and how many have been replayed (R69). -/
  barCnt : Nat
  barRep : Nat
  barFin : Nat
  remCnt : Nat
  remRep : Nat
  /-- A TB that has issued and waits, with its identifier and the bundle after it (R67). -/
  tb : Option (Nat × Nat)
  ending : Bool
  waiting : Bool
  /-- A fatal-to-core fault awaiting its replay (R72). -/
  fault : Option Nat
  /-- The core stopped at a TB for Park or drain-and-park (R240, R427). -/
  parked : Bool
  /-- A STEP that has not issued its bundle yet (R466). -/
  step : Bool
  inst : Option KInst
  lastPart : Option Nat
  /-- The digest of the program region last copied (R228, R363). -/
  progDig : Nat
  /-- Microcode packets held (R388), and whether the digest has matched. -/
  ucMap : Nat
  ucOk : Bool
  /-- Fenced in service by a fault (R69). -/
  fenced : Bool
  deriving DecidableEq, Repr

/-- A core after device reset: everything empty; CORE_FENCE stands at 1 in its register (R73). -/
def CoreS.init : CoreS where
  pc := 0
  umode := false
  r := []
  t := []
  ev := []
  vr := []
  imem := []
  acc := []
  accH := []
  accN := []
  accF := []
  act := .empty
  inact := .empty
  mq := []
  mcfg := .init
  cfgSeen := false
  ldBusy := false
  stBusy := false
  drBusy := false
  drParts := []
  fifo := 0
  vq := []
  vrun := []
  dmaq := [[], [], [], [], [], [], [], []]
  gens := [⟨none, 0⟩, ⟨none, 0⟩]
  bar := 0
  barCnt := 0
  barRep := 0
  barFin := 0
  remCnt := 0
  remRep := 0
  tb := none
  ending := false
  waiting := false
  fault := none
  parked := false
  step := false
  inst := none
  lastPart := none
  progDig := 0
  ucMap := 0
  ucOk := false
  fenced := false

/-- An EVREM on its way (R59): partition, target virtual core, counter, increment. -/
structure EvRem where
  part : Nat
  vcore : Nat
  ec : Nat
  imm : Nat
  deriving DecidableEq, Repr

/-- An arbiter (R335): the requesters' ages, the pointer, and the decisions lost in a row. -/
structure Arb where
  ages : List Nat
  ptr : Nat
  lost : List Nat
  deriving DecidableEq, Repr

/-! ### Memory (R162, R173, R188, R189, R195, R204) -/

/-- A line of the host-line cache (R189): its CXL.cache state, 1 shared or 2 modified. -/
structure HLine where
  st : Nat
  deriving DecidableEq, Repr

/-- A cache-mode line of an LLC slice (R173, R174): its tag (offset within the MCH over 256), the valid sectors and the dirty sectors. -/
structure LlcLine where
  tag : Nat
  valid : Nat
  dirty : Nat
  deriving DecidableEq, Repr

/-- Who asks: the stream and sequence fields of a record (R214). -/
structure Asker where
  stream : Nat := 0
  seq : Nat := 0
  deriving DecidableEq, Repr

/-- A request at its home slice (R174, R183, R186, R188); kept while the slice holds it (R209, R210) or it waits for a snoop. -/
structure Held where
  addr : Nat
  acc : MemAcc
  narrow : Bool := false
  /-- The HDM decoder a host CXL.mem request came through (R219). -/
  host : Option Nat := none
  who : Asker := {}
  /-- The operation of an atomic update; its operand is the data written (R185). -/
  atom : Option Nat := none
  /-- The data came with the poison indication (R205). -/
  poison : Bool := false
  ecc : SliceEcc := .good
  deriving DecidableEq, Repr

/-- A corrected symbol of a read (R207): when, on which pin, in the burst at which address, for whom. -/
structure PinHit where
  t : Nat
  pin : Nat
  addr : Nat
  who : Asker
  deriving DecidableEq, Repr

/-- The burst slots of an MCH (R340): a refresh is due, and the last slot went to the debug port. -/
structure MchSlot where
  refresh : Bool
  dbg : Bool
  deriving DecidableEq, Repr

/-- A message at an arbiter of a crossing (R342): its class (0 REQ, 1 RSP, 2 SNP, 3 MGT), its source and target ports, and its flits that have not crossed. -/
structure XMsg where
  cls : Nat
  src : Nat
  dst : Nat
  left : Nat
  deriving DecidableEq, Repr

/-- One MCH beside its registers (R204, R207, R212): the next burst to scrub, corrections of each pin since MEM_MCH_PIN was read, the corrections and the times of the uncorrectable reads of the last second, the holding queue of its slice (64 requests, R173), and the requests that wait in the network for a place in it (R210). -/
structure Mch where
  scrub : Nat
  pinCnt : List Nat
  hits : List PinHit
  ues : List Nat
  held : List Held
  net : List Held
  /-- Retired since the map in force was made (R213). -/
  newlyRetired : Bool
  deriving DecidableEq, Repr

/-- An MCH after reset. -/
def Mch.init : Mch := ⟨0, [], [], [], [], [], false⟩

/-- A write of PRT_RGN_A that waits for admitted transfers (R169), and who made it. -/
structure RgnWrite where
  part : Nat
  idx : Nat
  val : Nat
  lim : Nat
  req : Req
  deriving DecidableEq, Repr

/-- An access to the PRT_ block that waits for its requester's earlier region write (R169, R180): a write of 8 bytes, or a read of a length. -/
structure PrtAcc where
  req : Req
  off : Nat
  acc : MemAcc
  deriving DecidableEq, Repr

/-- A retraining (R208, R209): its MCHs, the state of each before it, whether MEM_RETRAIN asked for it. -/
structure RtJob where
  mchs : List Nat
  prev : List Nat
  req : Bool
  deriving DecidableEq, Repr

/-- The CXL port (R216, R474): 0 in reset, 1 training, 2 up, 3 down; the protocol, width and rate trained; CXL and PCIe IDE in use; CXL_PERST_N is asserted; S3 or ROM recovery lets it train. -/
structure CxlPort where
  st : Nat
  gen : CxlGen
  width : CxlWidth
  rate : CxlRate
  ide : Option Nat
  perst : Bool
  may : Bool
  deriving DecidableEq, Repr

/-- The CXL port after reset. -/
def CxlPort.init : CxlPort := ⟨0, .cxl3, .x16, .gt64, none, true, false⟩

/-- A range that a command is filling (R56, R347, R366): while it runs a read returns any mix of old bytes and the new ones; `data` holds the new bytes, zeros beyond its end. -/
structure Flux where
  lo : Nat
  hi : Nat
  data : Bytes
  deriving DecidableEq, Repr

/-- The CXL.cache requests of the host-line cache (R220). -/
inductive CacheReq where
  | rdCurr | rdShared | rdOwn | rdOwnNoData | itoMWr | dirtyEvict | cleanEvict | cleanEvictNoData
  deriving DecidableEq, Repr

/-- What leaves the device: an MSI-X message, an Ethernet frame, a link frame or flit, an in-band interrupt, a CXL message to the host, a session message, the report over Ethernet that PF0 is lost. -/
inductive Outbound where
  | msix (f vector : Nat)
  | eth (port : Nat) (data : Bytes)
  | link (l : Nat) (m : Msg)
  | frame (l : Nat) (kind : Nat) (data : Bytes)
  | credits (l : Nat) (sub : Nat) (units : Nat)
  | ibi (b : Nat)
  | biSnpData (line : Nat)
  | biSnpInv (line : Nat)
  | cacheReq (op : CacheReq) (line : Nat) (data : Bytes)
  | lossReport (port : Nat)
  | memData (k : Nat) (data : Bytes) (poison : Bool) (status : Nat)
  | session (ep : Endpoint) (data : Bytes)
  | avs (rail mv : Nat)
  | viral
  | snpResp (line : Nat) (data : Bytes)
  | rdma (port mac qp raddr rkey : Nat) (data : Bytes)
  | gpfAck
  deriving DecidableEq, Repr

/-- The outcome of the last register access or memory request of the command stream: its completion status and data (R10, R490). -/
structure Resp where
  status : Nat
  data : Bytes
  deriving DecidableEq, Repr

/-- Error reporting (R316-R318, R412): for each unit and code the timestamp of its last record and the occurrences counted since; the records held for ring 0; whether ring 0 was ever enabled; records lost meanwhile; the Halo store, newest first. -/
structure ErrS where
  last : Sparse (Nat × Nat)
  held : List Bytes
  everEn : Bool
  halo : List Bytes
  deriving DecidableEq, Repr

/-- A packet waiting in a source's FIFO (R447), with the buffers it has still to reach, as a mask. -/
structure TailQ where
  pkt : TailPkt
  bufs : Nat
  deriving DecidableEq, Repr

/-- A Tail buffer beside its registers (R449-R452): for each source the packets it did not admit since the source's last LOSS packet, with the timestamp of the first; main-area bytes still to write after a trigger; the write offset of the crash reserve; whether the reserve is about to freeze. -/
structure TBuf where
  drops : Sparse (Nat × Nat)
  post : Option Nat
  rsv : Nat
  freezing : Bool
  deriving DecidableEq, Repr

/-- A Tail buffer after reset. -/
def TBuf.init : TBuf := ⟨[], none, 0, false⟩

/-! ### Streams (chapter 9) -/

/-- A started descriptor of a stream (R236): its SEQ, opcode, 64 bytes as a number, the pieces still outstanding, the pieces that did not end OK (place, status, detail), and its result. -/
structure StrOp where
  seq : Nat
  opc : Nat
  desc : Nat
  left : Nat
  fails : List (Nat × Nat × Nat)
  result : Nat
  deriving DecidableEq, Repr

/-- A completion record of the duplicate cache (R231): status, DETAIL and RESULT. -/
structure DupRec where
  status : Nat
  detail : Nat
  result : Nat
  deriving DecidableEq, Repr

/-- A stream beside its registers (R225-R242). -/
structure StreamS where
  /-- Descriptors fetched and not started, as 64-byte numbers, oldest first. -/
  fetched : List Nat
  /-- The oldest of them has passed its checks. -/
  checked : Bool
  started : List StrOp
  /-- The duplicate cache (R231), newest SEQ first; no record while the original runs. -/
  dup : List (Nat × Option DupRec)
  /-- Duplicates whose original runs: the SEQ and the duplicate's descriptor. -/
  dupWait : List (Nat × Nat)
  /-- Completions written (R225, R242). -/
  cqn : Nat
  /-- Records that wait for a slot of the completion ring or for the host, oldest first, each with IRQ (R220, R225). -/
  cqWait : List (Bytes × Bool)
  /-- SEQ and status of the failures since the last FENCE or COMMIT (R233), and since the last COMMIT (R234). -/
  badF : List (Nat × Nat)
  badC : List (Nat × Nat)
  /-- SEQs of COLLECTIVEs accepted since the last COMMIT whose agreement is open (R234). -/
  colOpen : List Nat
  /-- When the WAIT at the head became next to start (R235). -/
  waitAt : Nat
  deriving DecidableEq, Repr

/-- A stream after reset. -/
def StreamS.init : StreamS := ⟨[], false, [], [], [], 0, [], [], [], [], 0⟩

/-! ### Links and collectives (chapters 10 and 11) -/

/-- A message that waits on a link: as it will leave, and what routed it: the axis it came on and the SUB and DET it came with. -/
structure TxMsg where
  m : Msg
  inAx : Option Nat
  inSub : BitVec 2
  inDet : Bool
  deriving DecidableEq, Repr

/-- A frame in the replay buffer (R253, R256): the FLSEQ of its last flit, its TYPE, its bytes, and the messages that end in it. -/
structure TxFrame where
  last : Nat
  kind : Nat
  data : Bytes
  msgs : List Msg
  deriving DecidableEq, Repr

/-- A tensor link beside its registers (R252-R275). -/
structure LinkS where
  /-- The next FLSEQ sent, the first not acknowledged yet, the next expected, and that which the frame after the last good one starts at. -/
  flTx : Nat
  flAck : Nat
  flRx : Nat
  rxMark : Nat
  /-- The replay buffer: frames not yet acknowledged, oldest first; messages that wait for credit. -/
  unacked : List TxFrame
  txq : List TxMsg
  /-- Credits of the 12 sub-channels, in 16-byte units. -/
  cred : Sparse Nat
  /-- Next FSEQ sent, KEPOCH and key of the transmitter; KEPOCH last received and the keys held for KEPOCH 0 and 1. -/
  fseq : Nat
  kep : Bool
  txKey : Option Nat
  rxKep : Bool
  rxKey0 : Option Nat
  rxKey1 : Option Nat
  /-- Frame bytes of a message that has not ended; messages received whole. -/
  part : Bytes
  rx : List Msg
  /-- The end's NONCE, the peer's last NONCE, failed attempts, a fresh attempt due. -/
  nonce : Nat
  peerNonce : Nat
  hfails : Nat
  retry : Bool
  /-- A key establishment under way, and its failures. -/
  kem : Bool
  kemFails : Nat
  /-- Wavelengths retraining, as a mask; the time of the last marker. -/
  rt : Nat
  mkrAt : Option Nat
  deriving DecidableEq, Repr

/-- A link after reset. -/
def LinkS.init : LinkS :=
  ⟨0, 0, 0, 0, [], [], [], 0, false, none, false, none, none, [], [], 0, 0, 0, false, false, 0, 0, none⟩

/-- A fabric request of management firmware (R254, R256): bytes still expected, its status once complete, the data. -/
structure FReq where
  left : Nat
  done : Option Nat
  data : Bytes
  deriving DecidableEq, Repr

/-- A group entry of the collective engine (R282-R285, R306). -/
structure ColGroup where
  valid : Bool
  active : Bool
  part : Nat
  stream : Nat
  epoch : Nat
  members : List Nat
  shape : Option (Nat × Nat × Nat)
  /-- GX, GY and GZ as written, in use or not. -/
  dims : Nat × Nat × Nat
  rank : Nat
  mlist : Nat
  lastOk : Nat
  /-- No operation of this epoch has been agreed OK yet. -/
  okNone : Bool
  gseq : Nat
  /-- Pair sequences by peer rank: sends and receives. -/
  sends : Sparse Nat
  recvs : Sparse Nat
  deriving DecidableEq, Repr

/-- A group entry after reset. -/
def ColGroup.init : ColGroup := ⟨false, false, 0, 0, 0, [], none, (1, 1, 1), 0, 0, 0, true, 0, [], []⟩

/-- The place of a chunk in an operation: the message kind (0 PARTIAL, 1 FINAL, 2 DATA), the chunk, and the rank at the other end. -/
structure ChunkRef where
  kind : Nat
  q : Nat
  rank : Nat
  deriving DecidableEq, Repr

/-- A chunk on its way in (R293, R302): the staging chunk it fills, the pieces by offset, its length once the last piece has come, and whether it has been verified. -/
structure ColIn where
  ref : ChunkRef
  stg : Nat
  pieces : Sparse Bytes
  len : Option Nat
  ok : Bool
  data : Bytes
  poison : Bool
  deriving DecidableEq, Repr

/-- A chunk on its way out (R293, R302): sent once its credit has come, held until acknowledged; a forwarded FINAL is not held. -/
structure ColTx where
  ref : ChunkRef
  stg : Nat
  data : Bytes
  poison : Bool
  sent : Bool
  fwd : Bool
  deriving DecidableEq, Repr

/-- A FINAL held by its owner until every member has acknowledged it (R302). -/
structure ColHold where
  q : Nat
  stg : Nat
  data : Bytes
  poison : Bool
  need : List Nat
  deriving DecidableEq, Repr

/-- An accepted collective operation (R285-R307). `st`: 0 pending, 1 moving data, 2 complete locally, 3 closed. -/
structure ColOp where
  id : OpId
  epoch : Nat
  /-- The stream and SEQ of its descriptor; none for the Umbra service's operations. -/
  stream : Option Nat
  sseq : Nat
  desc : Nat
  part : Nat
  members : List Nat
  shape : Option (Nat × Nat × Nat)
  rank : Nat
  st : Nat
  status : Nat
  origin : Nat
  /-- Elements dropped as a source, or received by a RECV; categories of the final conversion. -/
  result : Nat
  cats : Nat
  /-- Counts known, by source rank; elements written, by source rank. -/
  cnts : List (Nat × Nat)
  dlv : List (Nat × Nat)
  /-- Chunks still to come. -/
  want : List ChunkRef
  ins : List ColIn
  txs : List ColTx
  holds : List ColHold
  /-- Staging chunks held: key, whether it is one of the group's reserved two, and its place in the pool. -/
  stages : List (Nat × Bool × Nat)
  nstg : Nat
  poison : Bool
  dropped : Bool
  /-- The member contributes zeros: the spare of a rebuild (R331). -/
  zeros : Bool
  /-- Chunks that failed their check once, and chunks verified. -/
  bad : List ChunkRef
  good : List ChunkRef
  /-- Contributions: rank, status, origin (R305). -/
  kids : List (Nat × Nat × Nat)
  sentUp : Bool
  decided : Option Nat
  /-- STATUS (8) and DECISION (9) messages not acknowledged, by rank. -/
  rel : List (Nat × Nat)
  /-- Chunks re-sent after a NACK and not acknowledged yet. -/
  nacked : List ChunkRef
  /-- Work that waits for lines of its memory (R188, R210): the chunk, and its staging chunk where one has been granted to form it. -/
  wait : List (ChunkRef × Option Nat)
  /-- A stall has been recorded since the last progress (R307). -/
  stalled : Bool
  deriving DecidableEq, Repr

/-- A demand for a staging chunk (R295): its operation, and the chunk it is for; `own` for a chunk this member forms itself. -/
structure ColDem where
  op : OpId
  ref : ChunkRef
  own : Bool
  deriving DecidableEq, Repr

/-- The Umbra service of a partition (R325-R331): the REDUCEs of the window or rebuild under way that have not agreed, by GSEQ; the worst agreed status; times the window has been folded again; signals taken; a window whose buffers stand unapplied while the service is HELD; a rebuild runs, and the STATE it began in. -/
structure UmbS where
  open' : List Nat
  worst : Nat
  tries : Nat
  seen : Nat
  pend : Bool
  rebuild : Bool
  was : Nat
  deriving DecidableEq, Repr

/-- The Umbra service after reset. -/
def UmbS.init : UmbS := ⟨[], 0, 0, 0, false, false, 0⟩

/-! ### Resets, partitions and security (chapters 14 and 16) -/

/-- A running core, cluster or partition reset (R414): its level (0, 1, 2) and target, whether RST_CMD started it, the cores and barrier units it covers, and whether it still waits for another (R418). -/
structure RstJob where
  level : Nat
  target : Nat
  cmd : Bool
  cores : List Nat
  bars : List Nat
  waits : Bool
  deriving DecidableEq, Repr

/-- A PRT_CMD that runs on (R347, R348): its partition, CMD, the range it zeroes, and whether PRT_CMD asked for it. -/
structure PrtRun where
  part : Nat
  cmd : Nat
  lo : Nat
  hi : Nat
  go : Bool
  deriving DecidableEq, Repr

/-- What the security module holds for a partition (R353, R361, R368): M_PART, M_PROG, the number of its key pair, and whether a debug access has been recorded since the seal. -/
structure SecPart where
  mPart : Nat
  mProg : Nat
  key : Option Nat
  debugged : Bool
  deriving DecidableEq, Repr

/-- Nothing held for a partition. -/
def SecPart.init : SecPart := ⟨0, 0, none, false⟩

/-- A running UNSEAL (R366): its partition, destination, the plaintext of the segments before the first tag failure, and that segment. -/
structure Unseal where
  part : Nat
  dst : Nat
  plain : Bytes
  bad : Option Nat
  deriving DecidableEq, Repr

/-- A management session (R356-R358): its number, KS, the receive window (highest MSEQ accepted, and which of the 64 below it have been), the next MSEQ sent, the last 16 responses, when it opened and when its last valid message came, its endpoint. -/
structure Sess where
  num : Nat
  ks : Nat
  top : Nat
  seen : List Nat
  tx : Nat
  kept : List (Nat × Bytes)
  /-- Answers to accepted REQUESTs whose turn has not come: the request's MSEQ and the body. -/
  pend : List (Nat × Bytes)
  opened : Nat
  last : Nat
  ep : Endpoint
  deriving DecidableEq, Repr

/-! ### Firmware, fuses and bring-up (chapters 15 and 16) -/

/-- Work that waits for the commit of a Transit (R393). -/
inductive Deferred where
  | prtCmd
  | umbCmd (p : Nat)
  | policy (l : Nat)
  | routes (l : Nat)
  deriving DecidableEq, Repr

/-- Management firmware (R383-R401). -/
structure Fw where
  /-- Which of the two image slots runs. -/
  slot : Nat
  /-- The header of the image in force, and of the microcode loaded in the cores. -/
  hdr : Bytes
  ucHdr : Bytes
  /-- The Halo firmware as loaded: its digest. -/
  haloDig : Nat
  /-- The configuration block's digest. -/
  cfgDig : Nat
  /-- Components have quiesced, and ALLOW_SEALED's check has passed: a Transit runs. -/
  transit : Bool
  /-- Newest handover record of each component (R390), by capability. -/
  records : Sparse Bytes
  /-- Components that run, as a mask over capabilities. -/
  comps : Nat
  /-- When the kernel last faulted. -/
  kernelAt : Option Nat
  /-- The microcode load (R389): its targets that are not done, the packets the next round sends, the round, whether a digest check is due, and whether it belongs to a Park exit. -/
  ucLoad : List Nat
  ucSend : Nat
  ucRound : Nat
  ucDue : Bool
  /-- Cores that have sent NACK since the last digest check. -/
  ucNack : List Nat
  ucPark : Bool
  /-- Cores that have not taken the new microcode (R392). -/
  swaps : List Nat
  /-- A flash rewrite is due (R395), and FLASH_WRITE asked for it. -/
  rewrite : Bool
  rewriteCmd : Bool
  /-- Recovery (R396): the kind begun (0 none, 1 image, 2 configuration), the buffer, the bytes taken, the next WOFF expected. -/
  rcKind : Nat
  rcBuf : Sparse Byte
  rcBody : Sparse Byte
  rcNext : Nat
  /-- ENTER: recovery at the next device reset. -/
  enter : Bool
  deriving DecidableEq, Repr

/-- Firmware before bring-up. -/
def Fw.init : Fw where
  slot := 0
  hdr := []
  ucHdr := []
  haloDig := 0
  cfgDig := 0
  transit := false
  records := []
  comps := 0
  kernelAt := none
  ucLoad := []
  ucSend := 0
  ucRound := 0
  ucDue := false
  ucNack := []
  ucPark := false
  swaps := []
  rewrite := false
  rewriteCmd := false
  rcKind := 0
  rcBuf := []
  rcBody := []
  rcNext := 0
  enter := false

/-- The fuses and one-time-programmable arrays (R376, R379, R397, R405, R419, R442, R496): the owner digest, the 2-bit codes of cores, barrier units, slices, MCHs and links, the VF table by divisor, the steps burned, the sealing policy, the serial number and stepping, device resets since manufacture, the copy of the identity sector, and the Ethernet ports' MAC addresses (R243), keyed port * 2, plus 1 for the management complex. -/
structure Fuses where
  owner : Option Nat
  core : Sparse Nat
  bar : Sparse Nat
  slice : Sparse Nat
  mch : Sparse Nat
  link : Sparse Nat
  vf : Sparse Nat
  rollback : Nat
  haloUsed : Nat
  sealUsed : Nat
  sealPol : Nat
  serial : Nat
  stepping : Nat
  resets : Nat
  otp : Sparse Byte
  mac : Sparse Nat
  deriving DecidableEq, Repr

/-- A part whose units are all good, with nothing burned in service; stepping A2 (log entry 3). -/
def Fuses.init : Fuses := ⟨none, [], [], [], [], [], [], 0, 0, 0, 0, 0, 2, 0, [], []⟩

/-- The record of the warm fast path (R413): the MEM_MCH_STAT words trained, the units whose known-answer run failed, and the digest over both. -/
structure Warm where
  trained : List Nat
  failed : List Nat
  digest : Nat
  deriving DecidableEq, Repr

/-- Bring-up beside BOOT_STATUS (R402-R413): dies out of reset as a mask, the warm record, this bring-up is cold, the cores whose CKEN the configuration reader set, and the units whose known-answer run failed (a reducer r as 0x10000 + r). -/
structure BootS where
  dies : Nat
  warm : Option Warm
  cold : Bool
  cken : Nat
  failed : List Nat
  /-- S5 waits for the end of its microcode load: the start and end of the stage, and the slots of the field defect record in use as it began. -/
  s5 : Option (StageTime × Nat)
  deriving DecidableEq, Repr

/-- Bring-up before S0. -/
def BootS.init : BootS := ⟨0, none, true, 0, [], none⟩

/-! ### Power, Halo and the package's pins (chapters 17 and 19) -/

/-- Power following beside the PWR_ registers (R421-R434). -/
structure Pow where
  /-- When each setpoint was written. -/
  spAt : List Nat
  /-- The gain g of R432 as a ratio. -/
  gainN : Nat
  gainD : Nat
  /-- Pd of the last tick with G > 0, as a ratio, and the d, G and mV it was taken at. -/
  pdN : Nat
  pdD : Nat
  d0 : Nat
  g0 : Nat
  v0 : Nat
  /-- The voltage command in tenths of a millivolt, and the compute-die voltage in mV. -/
  vcmd : Nat
  vnow : Nat
  /-- A of the last 1 ms window, and the ramp ceiling C, in milliwatts (R426). -/
  mean : Option Nat
  ceil : Nat
  /-- When an OVERCURRENT or RAMP_VIOLATION hold began, while it lasts. -/
  hold : Option Nat
  /-- Polls missed in a row, and polls more than 5 % off in a row, of each rail. -/
  missed : List Nat
  off : List Nat
  /-- Every reading of the last sample lies 3 degrees or more below every threshold. -/
  cool : Bool
  /-- R370: samples of the 100 ms window under way (count, sums of power, of the hottest Tj and of the hottest stack). -/
  tenN : Nat
  tenP : Nat
  tenTj : Nat
  tenStk : Nat
  /-- When the Park entry or exit under way began (R427, R429). -/
  parkT : Nat
  /-- The cores' power gates are closed. -/
  gatesOff : Bool
  /-- Stacks in self-refresh, as a mask. -/
  selfRef : Nat
  /-- The last kick of the watchdog. -/
  kick : Nat
  /-- Links under open-fibre probing, as a mask. -/
  probing : Nat
  deriving DecidableEq, Repr

/-- Power following after reset. -/
def Pow.init : Pow where
  spAt := [0, 0, 0]
  gainN := 1
  gainD := 1
  pdN := 0
  pdD := 1
  d0 := 8
  g0 := 16
  v0 := 0
  vcmd := 0
  vnow := 0
  mean := none
  ceil := 2200000
  hold := none
  missed := []
  off := []
  cool := false
  tenN := 0
  tenP := 0
  tenTj := 0
  tenStk := 0
  parkT := 0
  gatesOff := false
  selfRef := 0
  kick := 0
  probing := 0

/-- The package's own pins and test port (R470-R483): PKG_RST_N asserted, VDD_HALO up, VDD_ECL present, STK_EN and OPT_EN high, the instruction of the test port, the I3C dynamic address. -/
structure Pins where
  pkgRst : Bool
  vddHalo : Bool
  vddEcl : Bool
  stkEn : Bool
  optEn : Bool
  /-- When each rose (R480). -/
  stkAt : Nat
  optAt : Nat
  jtag : JtagIns
  i3c : Option Nat
  deriving DecidableEq, Repr

/-- The pins at power-up: the supplies of Halo present, PKG_RST_N held low (R481). -/
def Pins.init : Pins := ⟨true, true, true, false, false, 0, 0, .idcode, none⟩

/-- A sampler ring beside its registers (R458-R460): the registers listed, snapshots taken, and snapshots dropped since the last one written. -/
structure Samp where
  list : List Nat
  num : Nat
  gap : Nat
  deriving DecidableEq, Repr

/-- A sampler ring after reset. -/
def Samp.init : Samp := ⟨[], 0, 0⟩

/-! ### The device -/

/-- The state of the device. -/
structure State where
  /-- The commands that wait, first in, first out. -/
  pending : List Instr
  /-- Every register of the register space, keyed by its offset (R12, R162). -/
  regs : Sparse Word
  /-- Every byte of memory, keyed as Ops.memKey lays it out (R162, R195). -/
  mem : Sparse Byte
  /-- Poisoned bursts of stacked memory, keyed by physical burst (R200, R205). -/
  poison : Sparse Bool
  /-- LLC_GRP values in force (R176). -/
  spw : Sparse Nat
  llc : Sparse LlcLine
  plru : Sparse Nat
  /-- Lines each slice's snoop filter holds, oldest first (R188). -/
  snoop : Sparse (List Nat)
  hlc : Sparse HLine
  mchs : Sparse Mch
  mslots : Sparse MchSlot
  cores : Sparse CoreS
  evrem : List EvRem
  /-- Arrivals at barrier units: partition*32 + virtual cluster, a mask of virtual cores' places (R60). -/
  bars : Sparse Nat
  /-- Arbiters, keyed type*100000 + unit (R334). -/
  arbs : Sparse Arb
  /-- Messages at the arbiters of the crossings (R342). -/
  xq : Sparse (List XMsg)
  /-- The stream of each partition that was fetched for last (R334). -/
  strTurn : Sparse Nat
  strs : Sparse StreamS
  err : ErrS
  tailq : Sparse (List TailQ)
  tbufs : Sparse TBuf
  /-- The token bucket of each die: bytes held times 3, and the timestamp they were reckoned at (R453). -/
  tokens : Sparse (Nat × Nat)
  resp : Resp
  outbox : List Outbound
  /-- Die timestamps, dies 0-9 (R27). -/
  time : List Nat
  /-- The model's own: how many free values have been drawn (Config.freeWord). -/
  free : Nat
  /-- The device is FAILED (R314). -/
  failed : Bool
  /-- ACLK stopped by a trip or Halo's safe state (R435, R436). -/
  tripped : Bool
  /-- ARB_CLS words in force, keyed by register offset (R343). -/
  arbCls : Sparse Nat
  /-- Retrainings that wait, in the order they arose, and the one that runs (R208). -/
  rtq : List RtJob
  rtRun : Option RtJob
  /-- Back-invalidate snoops without a response: line address and whether it is BISnpInv; and the requests that wait for them (R188). -/
  bisnp : List (Nat × Bool)
  snpq : List Held
  /-- LIMIT of each region entry in force, keyed partition*4096 + entry: PRT_RGN_B takes effect at a write of PRT_RGN_A (R166). -/
  rgnLim : Sparse Nat
  /-- Region writes that wait (R169). -/
  rgnq : List RgnWrite
  prtq : List PrtAcc
  cxl : CxlPort
  /-- Slice groups whose SPW a running LLC commit changes, with the SPW each takes (R176). -/
  llcOp : List (Nat × Nat)
  /-- Physical cores under a running reset (R416), by number. -/
  resetting : List Nat
  /-- Bytes of the flash device (R376). -/
  flash : Sparse Byte
  /-- The Eclipse rail is on (R271, R314). -/
  eclRail : Bool
  /-- THERMTRIP_N and SHUTDOWN_REQ_N are asserted (R435). -/
  thermtrip : Bool
  shutReq : Bool
  /-- Partitions whose clusters are clock-gated by DRAIN_AND_PARK, as a mask (R240). -/
  gated : Nat
  /-- The die timestamps run: the start pulse of S3 has come (R27). -/
  clockOn : Bool
  /-- The last heartbeat of each function, a timestamp of die 8 (R239). -/
  hbAt : Sparse Nat
  /-- The completion log of each partition, oldest first: stream, record and IRQ (R241); and the partitions whose log has overflowed since it was last empty. -/
  clog : Sparse (List (Nat × Bytes × Bool))
  clogOvf : Nat
  /-- RoCEv2 queue pairs: the partition each belongs to, and its port (R244). -/
  qps : Sparse (Nat × Nat)
  /-- The allow list of each partition's program digests (R361, R363). -/
  allow : Sparse (List Nat)
  links : Sparse LinkS
  /-- Route entries in force: PRIMARY and DETOUR, keyed by DEVID (R265). -/
  rte : Sparse (Nat × Nat)
  /-- Fabric requests of management firmware, by tag. -/
  freq : Sparse FReq
  /-- Public keys of verified management certificates, by serial number (R353). -/
  certs : Sparse Bytes
  /-- Changes of LNK_MAP that wait for links to drain: logical and physical link (R262). -/
  mapSwap : List (Nat × Nat)
  groups : Sparse ColGroup
  /-- Accepted operations, oldest first. -/
  cops : List ColOp
  /-- Demands for staging chunks, oldest first (R295). -/
  cdem : List ColDem
  /-- Messages for operations not accepted or not started (R293), oldest first. -/
  early : List Msg
  umbra : Sparse UmbS
  /-- Ranges that running commands fill (R56). -/
  flux : List Flux
  resets : List RstJob
  prtRuns : List PrtRun
  secp : Sparse SecPart
  /-- Keys made by the security module's generator so far. -/
  keys : Nat
  unseals : Sparse Unseal
  sessions : List Sess
  /-- Relay records, oldest first: device, session and the endpoint beyond (R354). -/
  relays : List (Nat × Nat × Endpoint)
  /-- OPENs relayed from Ethernet and not answered by an ACCEPT yet: DST, message, endpoint (R354). -/
  opens : List (Nat × Bytes × Endpoint)
  fw : Fw
  deferred : List Deferred
  fuses : Fuses
  boot : BootS
  pow : Pow
  pins : Pins
  samps : Sparse Samp
  /-- Snapshots of counters that partitions read (R369): value and time, keyed partition*2^28 + offset. -/
  coarse : Sparse (Nat × Nat)
  deriving DecidableEq, Repr

/-- The device right after a cold reset, before bring-up: no register written, memory with nothing listed, no command waiting. -/
def State.reset : State where
  pending := []
  regs := []
  mem := []
  poison := []
  spw := []
  llc := []
  plru := []
  snoop := []
  hlc := []
  mchs := []
  mslots := []
  cores := []
  evrem := []
  bars := []
  arbs := []
  xq := []
  strTurn := []
  strs := []
  err := ⟨[], [], false, []⟩
  tailq := []
  tbufs := []
  tokens := []
  resp := ⟨0, []⟩
  outbox := []
  time := [0, 0, 0, 0, 0, 0, 0, 0, 0, 0]
  free := 0
  failed := false
  tripped := false
  arbCls := []
  rtq := []
  rtRun := none
  bisnp := []
  snpq := []
  rgnLim := []
  rgnq := []
  prtq := []
  cxl := .init
  llcOp := []
  resetting := []
  flash := []
  eclRail := false
  thermtrip := false
  shutReq := false
  gated := 0
  clockOn := false
  hbAt := []
  clog := []
  clogOvf := 0
  qps := []
  allow := []
  links := []
  rte := []
  freq := []
  certs := []
  mapSwap := []
  groups := []
  cops := []
  cdem := []
  early := []
  umbra := []
  flux := []
  resets := []
  prtRuns := []
  secp := []
  keys := 0
  unseals := []
  sessions := []
  relays := []
  opens := []
  fw := .init
  deferred := []
  fuses := .init
  boot := .init
  pow := .init
  pins := .init
  samps := []
  coarse := []

end Sys2Proof.Machine
end

