-- ==== Sys2Proof/Machine/Ops.lean ====
section
/-! DEFINITION. The named operations over State: registers and fields, cores, the address map and memory (R162, R195, R213), the region table (R166-R168), free values, Tail events (R444-R447), error records (R315-R318). -/

namespace Sys2Proof.Machine

/-! ### Registers and fields -/

/-- The word of a register. -/
def State.reg (s : State) (r : Reg) : Nat := (Sparse.getD regReset s.regs r.off).toNat

/-- Set the whole word of a register. -/
def State.setReg (s : State) (r : Reg) (v : Nat) : State :=
  { s with regs := Sparse.setD regReset s.regs r.off (BitVec.ofNat 64 v) }

/-- Return a register to its reset value. -/
def State.clearReg (s : State) (r : Reg) : State := { s with regs := s.regs.erase r.off }

/-- Return every register with offset from `lo` to `hi - 1` to its reset value (R494). -/
def State.clearRegs (s : State) (lo hi : Nat) : State := { s with regs := s.regs.clearRange lo hi }

/-- The value of a field. -/
def State.fget (s : State) (f : Fld) : Nat := bitsOf (s.reg f.reg) f.hi f.lo

/-- A one-bit field as a truth value. -/
def State.fbit (s : State) (f : Fld) : Bool := s.fget f = 1

/-- Set a field. -/
def State.fset (s : State) (f : Fld) (v : Nat) : State := s.setReg f.reg (setBits (s.reg f.reg) f.hi f.lo v)

/-- Add to a counter field that saturates at its all-ones value. -/
def State.fsat (s : State) (f : Fld) (n : Nat) : State := s.fset f (satAdd (f.hi + 1 - f.lo) (s.fget f) n)

/-- Add to a counter field that wraps. -/
def State.finc (s : State) (f : Fld) (n : Nat) : State := s.fset f (s.fget f + n)

/-- A fresh free value, and the state that has drawn it. -/
def State.draw (s : State) : Word × State := (Config.freeWord s.free, { s with free := s.free + 1 })

/-- Append a message to those that have left the device. -/
def State.emit (s : State) (o : Outbound) : State := { s with outbox := s.outbox ++ [o] }

/-- `n` free words as bytes. -/
def State.randBytes (s : State) : Nat → Bytes × State
  | 0 => ([], s)
  | n + 1 =>
    let (w, s) := s.draw
    let r := State.randBytes s n
    (leBytes 8 w.toNat ++ r.1, r.2)

/-- AES-256-GCM ciphertext, as long as the plaintext. -/
def gcmCipher (key : Nat) (iv aad p : Bytes) : Bytes :=
  let c := Config.gcmSeal key iv aad p
  c.take p.length ++ zeroBytes (p.length - c.length)

/-- Record the outcome of an access. -/
def State.answer (s : State) (status : Nat) (data : Bytes) : State := { s with resp := ⟨status, data⟩ }

/-- The die timestamp of a die (R27). -/
def State.now (s : State) (die : Nat) : Nat := s.time.getD die 0

/-- A tick: once the start pulse of S3 has come every die timestamp advances by one count (R27; log entry 1). -/
def State.tick (s : State) : State := if s.clockOn then { s with time := s.time.map (fun t => (t + 1) % 2 ^ 64) } else s

/-! ### The status codes of R10 -/

def stOK : Nat := 0x00
def stDuplicate : Nat := 0x01
def stBadLength : Nat := 0x02
def stOutOfBounds : Nat := 0x03
def stTargetReset : Nat := 0x04
def stPoison : Nat := 0x05
def stGroupEpoch : Nat := 0x06
def stPeerLost : Nat := 0x07
def stCheckFail : Nat := 0x08
def stOverflowDropped : Nat := 0x09
def stDenied : Nat := 0x0A
def stTimeout : Nat := 0x0B
def stStall : Nat := 0x0C

/-! ### Cores -/

/-- Core `n`. -/
def State.core (s : State) (n : Nat) : CoreS := Sparse.getD (fun _ => CoreS.init) s.cores n

/-- Replace core `n`. -/
def State.setCore (s : State) (n : Nat) (c : CoreS) : State :=
  { s with cores := Sparse.setD (fun _ => CoreS.init) s.cores n c }

/-- Change core `n`. -/
def State.modCore (s : State) (n : Nat) (f : CoreS → CoreS) : State := s.setCore n (f (s.core n))

/-- Register `i` of a core: s0 reads as 0 (R37). -/
def CoreS.reg (c : CoreS) (i : Nat) : Word := if i = 0 then 0 else Sparse.getD (fun _ => 0) c.r i

/-- Write register `i` of a core: a write to s0 is discarded (R37). -/
def CoreS.setReg (c : CoreS) (i : Nat) (v : Word) : CoreS :=
  if i = 0 then c else { c with r := Sparse.setD (fun _ => 0) c.r i v }

/-- Tile descriptor `i`. -/
def CoreS.tile (c : CoreS) (i : Nat) : BitVec 256 := Sparse.getD (fun _ => 0) c.t i

/-- Write tile descriptor `i`. -/
def CoreS.setTile (c : CoreS) (i : Nat) (v : BitVec 256) : CoreS := { c with t := Sparse.setD (fun _ => 0) c.t i v }

/-- Event counter `i` (R57). -/
def CoreS.evc (c : CoreS) (i : Nat) : BitVec 32 := Sparse.getD (fun _ => 0) c.ev i

/-- Set event counter `i`. -/
def CoreS.setEv (c : CoreS) (i : Nat) (v : BitVec 32) : CoreS := { c with ev := Sparse.setD (fun _ => 0) c.ev i v }

/-- Increment event counter `i`, modulo 2^32 (R57). -/
def CoreS.incEv (c : CoreS) (i n : Nat) : CoreS := c.setEv i (c.evc i + BitVec.ofNat 32 n)

/-- Bundle `i` of instruction memory. -/
def CoreS.bundle (c : CoreS) (i : Nat) : BitVec 256 := Sparse.getD (fun _ => 0) c.imem i

/-- The die of core `n` (R28). -/
def dieOfCore (n : Nat) : Nat := n / 96

/-- The cluster of core `n` (R28). -/
def clusterOfCore (n : Nat) : Nat := n / 12

/-! ### The floor plan (R410) -/

/-- Bit `u` of the floor-plan bitmap that begins at byte `off`. -/
def State.fpBit (s : State) (off u : Nat) : Bool :=
  bitAt (s.reg (.bootFloorplan ((off * 8 + u) / 64))) ((off * 8 + u) % 64)

/-- Set bit `u` of the floor-plan bitmap at byte `off`. -/
def State.fpSet (s : State) (off u : Nat) (b : Bool) : State :=
  let r := Reg.bootFloorplan ((off * 8 + u) / 64)
  s.setReg r (setBit (s.reg r) ((off * 8 + u) % 64) b)

/-- A field of `len` bytes of the floor plan, within one 8-byte word. -/
def State.fpGet (s : State) (off len : Nat) : Nat :=
  bitsOf (s.reg (.bootFloorplan (off / 8))) (off % 8 * 8 + len * 8 - 1) (off % 8 * 8)

/-- Set a field of the floor plan. -/
def State.fpPut (s : State) (off len v : Nat) : State :=
  let r := Reg.bootFloorplan (off / 8)
  s.setReg r (setBits (s.reg r) (off % 8 * 8 + len * 8 - 1) (off % 8 * 8) v)

def State.coreGood (s : State) (n : Nat) : Bool := s.fpBit 8 n
def State.clusterGood (s : State) (k : Nat) : Bool := s.fpBit 104 k
/-- A good LLC slice; before S6 has written the floor plan, one whose fuse code is good (log entry 31). -/
def State.sliceGood (s : State) (n : Nat) : Bool :=
  s.fpBit 304 n || (decide (s.fget F.bootStatus_STAGE < 6) && decide (Sparse.getD (fun _ => 0) s.fuses.slice n = 0))
def State.linkGood (s : State) (l : Nat) : Bool := s.fpBit 400 l

/-- Bytes 0 to n - 1 of the floor plan. -/
def State.fpBytes (s : State) (n : Nat) : Bytes :=
  ((List.range (n / 8)).map fun w => leBytes 8 (s.reg (.bootFloorplan w))).flatten

/-- Recompute DIGEST and, after a change in service, increment GEN and stamp TIMESTAMP (R410, R411). -/
def State.fpStamp (s : State) (bump : Bool) : State :=
  let s := if bump then s.fpPut 2 2 (s.fpGet 2 2 + 1) else s
  let s := s.fpPut 424 8 (s.now 8)
  let d := (Config.shake256 (s.fpBytes 448)).toNat
  (List.range 8).foldl (fun s i => s.setReg (.bootFloorplan (56 + i)) (bitsOf d (64 * i + 63) (64 * i))) s

/-! ### The address map -/

/-- The spaces of the 48-bit local address map (R162). -/
inductive Space where
  | stack (addr : Nat)
  | llc (off : Nat)
  | spm (core off : Nat)
  | reg (off : Nat)
  | mgtSram (off : Nat)
  | haloSram (off : Nat)
  | host (addr : Nat)
  | atomAlias (addr : Nat)
  | unassigned
  deriving DecidableEq, Repr

/-- The space an address lies in (R162). -/
def spaceOf (a : Nat) : Space :=
  if a < 0xC000000000 then .stack a
  else if 0x10000000000 ≤ a ∧ a < 0x10030000000 then .llc (a - 0x10000000000)
  else if 0x20000000000 ≤ a ∧ a < 0x20030000000 then .spm ((a - 0x20000000000) / 0x200000) ((a - 0x20000000000) % 0x200000)
  else if 0x30000000000 ≤ a ∧ a < 0x30010000000 then .reg (a - 0x30000000000)
  else if 0x40000000000 ≤ a ∧ a < 0x40000800000 then .mgtSram (a - 0x40000000000)
  else if 0x40001000000 ≤ a ∧ a < 0x40001100000 then .haloSram (a - 0x40001000000)
  else if 0x80000000000 ≤ a ∧ a < 0x100000000000 then .host a
  else if 0x100000000000 ≤ a ∧ a < 0x200000000000 then .atomAlias a
  else .unassigned

/-- The fold F of R195. -/
def fold8 (i : Nat) : Nat := ((i % 256) ^^^ (bitsOf i 15 8)) ^^^ (bitsOf i 21 16 * 4)

/-- The map of R195: MCH and offset of a stacked-memory address with no MCH retired. -/
def hashMap (a : Nat) : Nat × Nat :=
  let g := a / 256
  let l := g % 256
  let u := g / 256
  let i := u / 3
  let f := fold8 i
  let t := (u % 3 + f % 3) % 3
  (t * 256 + (l ^^^ f), i * 256 + a % 256)

/-- The inverse map of R196. -/
def hashInv (mch off : Nat) : Nat :=
  let i := off / 256
  let f := fold8 i
  let l := (mch % 256) ^^^ f
  let t := (mch / 256 + 3 - f % 3) % 3
  ((3 * i + t) * 256 + l) * 256 + off % 256

/-- Live MCHs of the map in force, in ascending order (MEM_LIVE). -/
def State.liveList (s : State) : List Nat :=
  ((List.range 12).map fun i => (onesOf 64 (s.reg (.memLive i))).map (· + 64 * i)).flatten

/-- The number of live MCHs of the map in force (MEM_MAP.N). -/
def State.mapN (s : State) : Nat := s.fget F.memMap_N

/-- MCH and offset of a stacked-memory address under the map in force (R195, R213). -/
def State.physOf (s : State) (a : Nat) : Nat × Nat :=
  if s.mapN = 768 then hashMap a
  else
    let n := max s.mapN 1
    let g := a / 256
    let i := g / n
    (s.liveList.getD ((g % n + fold8 i) % n) 0, i * 256 + a % 256)

/-- The stacked-memory address of a burst's first byte, for error records (R196, R214). -/
def State.addrOf (s : State) (mch off : Nat) : Nat :=
  if s.mapN = 768 then hashInv mch off
  else
    let n := max s.mapN 1
    let i := off / 256
    let l := (s.liveList.takeWhile (· < mch)).length
    (i * n + (l + n * 256 - fold8 i) % n) * 256 + off % 256

/-- The key under which Memory lists a byte: stacked memory by MCH and offset, every other space by its address (log entry 5). -/
def State.memKey (s : State) (a : Nat) : Nat :=
  match spaceOf a with
  | .stack x => let p := s.physOf x; p.1 * 2 ^ 30 + p.2
  | _ => a

/-- The address of scratchpad byte `off` of core `n` (R162). -/
def spmAddr (n off : Nat) : Nat := 0x20000000000 + n * 0x200000 + off

/-- Memory reads 0 where nothing has been written (R406; log entry 6). -/
def memDflt : Nat → Byte := fun _ => 0

/-- The canonical form of memory: addresses strictly rising, and no entry that reads as an unlisted byte does. -/
def Memory.wf (m : Sparse Byte) : Bool := Sparse.wf memDflt m

/-- The byte at an address, as memory holds it. -/
def State.getByte (s : State) (a : Nat) : Byte := Sparse.getD memDflt s.mem (s.memKey a)

/-- Store a byte. -/
def State.setByte (s : State) (a : Nat) (b : Byte) : State :=
  { s with mem := Sparse.setD memDflt s.mem (s.memKey a) b }

/-- `len` bytes from an address. -/
def State.getBytes (s : State) (a len : Nat) : Bytes := (List.range len).map fun i => s.getByte (a + i)

/-- Store bytes from an address. -/
def State.setBytes (s : State) (a : Nat) : Bytes → State
  | [] => s
  | b :: bs => State.setBytes (s.setByte a b) (a + 1) bs

/-- The number that `len` bytes at an address spell (R11). -/
def State.getLE (s : State) (a len : Nat) : Nat := leVal (s.getBytes a len)

/-- The physical burst of a stacked-memory address: MCH and burst number (R195). -/
def State.burstOf (s : State) (a : Nat) : Nat := let p := s.physOf a; p.1 * 2 ^ 24 + p.2 / 64

/-- Whether the burst of an address is poisoned (R200); only stacked memory carries poison. -/
def State.poisonedAt (s : State) (a : Nat) : Bool :=
  match spaceOf a with
  | .stack x => Sparse.getD (fun _ => false) s.poison (s.burstOf x)
  | _ => false

/-- Mark or clear the poison of a burst. -/
def State.setPoison (s : State) (a : Nat) (b : Bool) : State :=
  match spaceOf a with
  | .stack x => { s with poison := Sparse.setD (fun _ => false) s.poison (s.burstOf x) b }
  | _ => s

/-- Scratchpad ways in force in slice group `g` (R173, R176). -/
def State.spwOf (s : State) (g : Nat) : Nat := Sparse.getD (fun _ => 0) s.spw g

/-- MCH `m` beside its registers. -/
def State.mch (s : State) (m : Nat) : Mch := Sparse.getD (fun _ => Mch.init) s.mchs m

/-- Change MCH `m`. -/
def State.modMch (s : State) (m : Nat) (f : Mch → Mch) : State :=
  { s with mchs := Sparse.setD (fun _ => Mch.init) s.mchs m (f (s.mch m)) }

/-- Whether something backs an address (R163): stacked memory of a trained live MCH below N GiB, an LLC-window byte in a scratchpad-mode way of a good slice, the scratchpad of a good core, an SRAM, the host window. -/
def State.backed (s : State) (a : Nat) : Bool :=
  match spaceOf a with
  | .stack x => x < s.mapN * 2 ^ 30 && s.fget (F.memMchStat_STATE (s.physOf x).1) < 3
  | .llc o => let g := o / 65536; g / 768 < s.spwOf (g % 768 / 8) && s.sliceGood (g % 768)
  | .spm n _ => n < 384 && s.coreGood n
  | .mgtSram _ => true
  | .haloSram _ => true
  | .host _ => true
  | _ => false

/-- Two byte ranges, each as first byte and length, share a byte. -/
def rangesMeet (a b : Nat × Nat) : Bool := a.1 < b.1 + b.2 && b.1 < a.1 + a.2

/-- A running drain command writes some byte of a range of its core's scratchpad (R115). -/
def State.inDrain (s : State) (a len : Nat) : Bool :=
  match spaceOf a with
  | .spm n o => (s.core n).drParts.any (rangesMeet (o, len))
  | _ => false

/-- The bytes that a store leaves at `a` (R115): where a running drain command writes too, the byte there or the one stored, free. -/
def State.raceBytes (s : State) (a : Nat) : Bytes → Bytes × State
  | [] => ([], s)
  | b :: bs =>
    let d := s.draw
    let p := if s.inDrain a 1 then (if d.1.toNat % 2 = 0 then s.getByte a else b, d.2) else (b, s)
    let q := State.raceBytes p.2 (a + 1) bs
    (p.1 :: q.1, q.2)

/-- Store bytes that a drain command may be writing too. -/
def State.setRaced (s : State) (a : Nat) (b : Bytes) : State :=
  if s.inDrain a b.length then let r := s.raceBytes a b; r.2.setBytes a r.1 else s.setBytes a b

/-- The first addresses of the 64-byte lines that `len` bytes from `a` touch. -/
def lines64 (a len : Nat) : List Nat :=
  if len = 0 then [] else (List.range ((a + len - 1) / 64 - a / 64 + 1)).map fun i => (a / 64 + i) * 64

/-- A read of `len` bytes: OUT_OF_BOUNDS where nothing backs a byte (R163), POISON where a burst is poisoned (R206), else the bytes. -/
def State.read (s : State) (a len : Nat) : Nat × Bytes :=
  let ls := lines64 a len
  if ls.any (fun l => !s.backed (max l a)) then (stOutOfBounds, [])
  else if ls.any s.poisonedAt then (stPoison, [])
  else (stOK, s.getBytes a len)

/-- The bytes of a write at `a` that fall in the line at `l`, with their first address. -/
def lineSlice (a : Nat) (data : Bytes) (l : Nat) : Nat × Bytes :=
  let lo := max a l
  (lo, (data.drop (lo - a)).take (l + 64 - lo))

/-- One burst of a write (R206): a whole burst clears poison, part of a poisoned burst is discarded. -/
def State.writeLine (s : State) (a : Nat) (data : Bytes) (l : Nat) : Nat × State :=
  let p := lineSlice a data l
  if !s.backed p.1 then (stOutOfBounds, s)
  else if s.poisonedAt p.1 then
    if p.2.length = 64 then (stOK, (s.setPoison p.1 false).setBytes p.1 p.2) else (stPoison, s)
  else (stOK, s.setRaced p.1 p.2)

/-- A write of bytes at `a`, burst by burst (R206); the status is the first that is not OK. -/
def State.write (s : State) (a : Nat) (data : Bytes) : Nat × State :=
  (lines64 a data.length).foldl (fun (r : Nat × State) l =>
    let w := r.2.writeLine a data l
    (if r.1 = stOK then w.1 else r.1, w.2)) (stOK, s)

/-! ### Partitions and the region table -/

/-- PRT_CFG[p].STATE: 0 FREE, 1 CREATED, 2 SEALED, 3 being destroyed (R346). -/
def State.partState (s : State) (p : Nat) : Nat := s.fget (F.prtCfg_STATE p)

/-- The partition that owns cluster `k`, if any (R346). -/
def State.partOfCluster (s : State) (k : Nat) : Option Nat :=
  (List.range 8).find? fun p => decide (s.partState p ≠ 0) && bitAt (s.fget (F.prtCfg_CLUSTERS p)) k

/-- The partition that owns core `n`, if any. -/
def State.partOfCore (s : State) (n : Nat) : Option Nat := s.partOfCluster (clusterOfCore n)

/-- Virtual cores of a partition (R61). -/
def State.vcount (s : State) (p : Nat) : Nat := s.fget (F.coreVcfg_VCOUNT p)

/-- The physical core of virtual core `v` of partition `p` (R62). -/
def State.vmap (s : State) (p v : Nat) : Option Nat :=
  if v < s.vcount p ∧ s.fbit (F.coreVmap_VALID p v) = true then some (s.fget (F.coreVmap_PCORE p v)) else none

/-- The virtual core that core `n` carries in partition `p`. -/
def State.vcoreOf (s : State) (p n : Nat) : Option Nat :=
  (List.range (s.vcount p)).find? fun v => s.vmap p v = some n

/-- A region-table entry (R166). -/
structure Rgn where
  idx : Nat
  ty : Nat
  rd : Bool
  wr : Bool
  atom : Bool
  sealed : Bool
  shared : Bool
  host : Bool
  fabric : Bool
  base : Nat
  limit : Nat
  deriving DecidableEq, Repr

/-- The entry that two words spell (R166). -/
def Rgn.ofWords (i a b : Nat) : Rgn :=
  ⟨i, bitsOf a 62 60, bitAt a 59, bitAt a 58, bitAt a 57, bitAt a 56, bitAt a 55, bitAt a 54, bitAt a 53,
    bitsOf a 47 0, bitsOf b 47 0⟩

/-- The valid entries of partition `p` (R166), in the order of their numbers. -/
def State.regions (s : State) (p : Nat) : List Rgn :=
  let lo := (Reg.prtRgnA p 0).off
  (s.regs.range lo (lo + 0x10000)).filterMap fun e =>
    if (e.1 - lo) % 16 = 0 ∧ bitAt e.2.toNat 63 = true then
      let i := (e.1 - lo) / 16
      some (Rgn.ofWords i e.2.toNat (Sparse.getD (fun _ => 0) s.rgnLim (p * 4096 + i)))
    else none

/-- The region of partition `p` that covers an address (R168). -/
def State.regionAt (s : State) (p a : Nat) : Option Rgn :=
  (s.regions p).find? fun r => decide (r.base ≤ a) && decide (a ≤ r.limit)

/-- Whether a range lies in one region of `p` that `ok` accepts (R168, Footprint). -/
def State.inRegion (s : State) (p a len : Nat) (ok : Rgn → Bool) : Bool :=
  match s.regionAt p a with
  | some r => decide (a + len - 1 ≤ r.limit) && ok r
  | none => false

/-- Whether a valid region of any partition covers a byte of a range. -/
def State.anyRegionIn (s : State) (lo hi : Nat) : Bool :=
  (List.range 8).any fun p => (s.regions p).any fun r => decide (r.base ≤ hi) && decide (lo ≤ r.limit)

/-! ### Units, dies and Tail events -/

/-- The die of a unit named by UNIT_ID (R17, R28-R31). The spec places no collective channel on one half of the engine: a channel's records and events carry die 8 (DESIGN CHOICE, log entry 136). -/
def dieOfUnit (u : Nat) : Nat :=
  let i := u % 4096
  match u / 4096 with
  | 1 => i / 96
  | 2 => i / 8
  | 3 | 5 => 4 + i / 192
  | 4 => if i < 32 then 8 else 9
  | 11 => i
  | _ => 8

/-- The Tail source of a unit (R444, R446). -/
def srcOfUnit (u : Nat) : Nat :=
  let i := u % 4096
  match u / 4096 with
  | 1 => 5 * i
  | 2 => 2254 + i
  | 3 => 1920 + i / 8
  | 4 => 2112 + i
  | 5 => 2016 + i / 8
  | 6 => 2188 + i
  | 7 => 2296
  | 8 => 2286 + i
  | 10 => 2295
  | _ => 2294

/-- The partition a unit belongs to (R315, R317). `stream` is the full stream number for type 0x7. -/
def State.partOfUnit (s : State) (u stream : Nat) : Option Nat :=
  let i := u % 4096
  let ifUsed := fun (p : Nat) => if s.partState p = 0 then none else some p
  match u / 4096 with
  | 1 => s.partOfCore i
  | 2 => s.partOfCluster i
  | 4 => ifUsed (s.fget (F.lnkCfg_PART i))
  | 6 => ifUsed (s.fget (F.colChcfg_PART i))
  | 7 => ifUsed (s.fget (F.strCtl_PART stream))
  | _ => none

/-- Tail buffer `b`. -/
def State.tbuf (s : State) (b : Nat) : TBuf := Sparse.getD (fun _ => TBuf.init) s.tbufs b

/-- Change Tail buffer `b`. -/
def State.modTbuf (s : State) (b : Nat) (f : TBuf → TBuf) : State :=
  { s with tbufs := Sparse.setD (fun _ => TBuf.init) s.tbufs b (f (s.tbuf b)) }

/-- Source `src` is one of partition `p`'s units (R448): its clusters' cores and barrier units, its channels, its stream fetch. -/
def State.partSource (s : State) (p src : Nat) : Bool :=
  let cl := fun (k : Nat) => decide (s.partState p ≠ 0) && bitAt (s.fget (F.prtCfg_CLUSTERS p)) k
  if src < 1920 then cl (clusterOfCore (src / 5))
  else if 2188 ≤ src ∧ src < 2252 then s.fbit (F.colChcfg_EN (src - 2188)) && decide (s.fget (F.colChcfg_PART (src - 2188)) = p)
  else if 2254 ≤ src ∧ src < 2286 then cl (src - 2254)
  else src = 2300 + p

/-- Whether buffer `b` admits source `src` (R448): it is enabled, the source's bit is set, and for a partition's buffer the source is the partition's. -/
def State.tailAdmits (s : State) (b src : Nat) : Bool :=
  s.fbit (F.trcBcfg_EN b) && bitAt (s.reg (.trcSrcen b (src / 64))) (src % 64) && (b = 0 || s.partSource (b - 1) src)

/-- Count a packet of `src` that buffer `b` did not admit (R452). -/
def State.tailDrop (s : State) (b src ts : Nat) : State :=
  let add := fun (m : Sparse (Nat × Nat)) =>
    let d := Sparse.getD (fun _ => (0, 0)) m src
    Sparse.setD (fun _ => (0, 0)) m src (satAdd 32 d.1 1, if d.1 = 0 then ts else d.2)
  (s.modTbuf b fun t => { t with drops := add t.drops }).fsat (F.trcBloss_DROPPED b) 1

/-- A unit makes a packet of kind `kind` (R445, R447) for some buffers: it waits in its source's FIFO of 8, or is dropped and counted in each of them. -/
def State.tailPkt (s : State) (kind src event die : Nat) (part : Option Nat) (payload : Nat) (bs : List Nat) : State :=
  if bs.isEmpty then s
  else
    let ts := s.now die % 2 ^ 32
    let q := Sparse.getD (fun _ => []) s.tailq src
    if q.length < 8 then
      let pkt : TailPkt := ⟨BitVec.ofNat 4 kind, BitVec.ofNat 12 src, BitVec.ofNat 8 event, BitVec.ofNat 4 die,
        part.map (Fin.ofNat 8), BitVec.ofNat 32 ts, BitVec.ofNat 64 payload⟩
      { s with tailq := Sparse.setD (fun _ => []) s.tailq src (q ++ [⟨pkt, bs.foldl (fun m b => m + 2 ^ b) 0⟩]) }
    else bs.foldl (fun s b => s.tailDrop b src ts) s

/-- A unit makes an EVENT packet (R446) for every buffer that admits it. -/
def State.tail (s : State) (src event die : Nat) (part : Option Nat) (payload : Nat) : State :=
  s.tailPkt 0 src event die part payload ((List.range 9).filter fun b => s.tailAdmits b src)

/-- An EVENT packet of a core's unit `j` (R444: 0 sequencer, 1 matrix, 2 vector, 3 DMA, 4 port). -/
def State.tailCore (s : State) (n j event payload : Nat) : State :=
  s.tail (5 * n + j) event (dieOfCore n) (s.partOfCore n) payload

/-! ### Error records -/

/-- The function of error, Tail and sampler ring `r`: PF0 for ring 0, partition p's function for ring 1 + p (R248, R317). -/
def fnOfRing (r : Nat) : Nat := r

/-- Write a record into error ring `r` (R317): its PHASE bit, its slot, the counters and the MSI-X vector; dropped and counted in LOST when the ring is full. -/
def State.ringWrite (s : State) (r : Nat) (rec' : Bytes) (cls : Nat) : State :=
  let size := 2 ^ s.fget (F.mgtErrbase_LOG2N r)
  let w := s.fget (F.mgtErrstat_WRITTEN r)
  let h := s.fget (F.mgtErrhead_HEAD r)
  if (w + 2 ^ 32 - h) % 2 ^ 32 = size then s.fsat (F.mgtErrstat_LOST r) 1
  else
    let phase := if w / size % 2 = 0 then 0x80 else 0
    let b3 := recField rec' 3 1
    let rec'' := recPut rec' 3 (leBytes 1 (b3 % 128 + phase))
    let s := (s.setBytes (s.fget (F.mgtErrbase_BASE r) + w % size * 32) rec'').fset (F.mgtErrstat_WRITTEN r) (w + 1)
    if s.fget (F.mgtErrirq_MINCLASS r) ≤ cls then s.emit (.msix (fnOfRing r) (s.fget (F.mgtErrirq_VECTOR r))) else s

/-- Deliver a record to ring 0: held before the first enable (R412), dropped while disabled again. -/
def State.ring0 (s : State) (rec' : Bytes) (cls : Nat) : State :=
  if s.fbit (F.mgtErrbase_EN 0) then s.ringWrite 0 rec' cls
  else if s.err.everEn = false ∧ s.err.held.length < 256 then { s with err := { s.err with held := s.err.held ++ [rec'] } }
  else s.fsat (F.mgtErrstat_LOST 0) 1

/-- Deliver a copy to partition ring 1 + p (R317). -/
def State.ringPart (s : State) (rec' : Bytes) (cls p : Nat) : State :=
  if s.fbit (F.mgtErrbase_EN (1 + p)) then s.ringWrite (1 + p) rec' cls else s.fsat (F.mgtErrstat_LOST (1 + p)) 1

/-- Keep a record of class 3 or 4 in the Halo store of 64 (R318). -/
def State.haloKeep (s : State) (rec' : Bytes) (cls : Nat) : State :=
  if 3 ≤ cls then { s with err := { s.err with halo := (rec' :: s.err.halo).take 64 } } else s

/-- What an error record says (R315). -/
structure ErrRec where
  unit : Nat
  code : Nat
  cls : Nat
  addr : Nat := 0
  stream : Nat := 0
  seq : Nat := 0
  /-- The partition a fatal-to-partition record names. -/
  part : Option Nat := none
  /-- The least interval between records of this unit and code, in timestamp counts; 0 for no limit (R316). -/
  every : Nat := 0
  /-- The event is of no partition whatever the unit (R245). -/
  noPart : Bool := false

/-- Make an error record (R315-R318, R412), under the limit of R316, and emit its ERROR event (R446). -/
def State.error (s : State) (e : ErrRec) : State :=
  let die := dieOfUnit e.unit
  let ts := s.now die
  let key := e.unit * 256 + e.code
  let lst := Sparse.find s.err.last key
  let since := match lst with | some (_, n) => n + 1 | none => 1
  let limited := match lst with | some (t, _) => decide (e.cls < 2) && decide (0 < e.every) && decide (ts < t + e.every) | none => false
  if limited then
    { s with err := { s.err with last := Sparse.insert s.err.last key ((lst.getD (0, 0)).1, since) } }
  else
    let part := match e.part with | some p => some p | none => if e.noPart then none else s.partOfUnit e.unit e.stream
    let b3 := e.cls + (match part with | some p => 8 + 16 * p | none => 0)
    let rec' := mkRec 32 [(0, 2, e.unit), (2, 1, e.code), (3, 1, b3), (4, 2, e.stream), (6, 1, die),
      (8, 4, e.seq), (12, 4, since), (16, 8, e.addr), (24, 8, ts)]
    let s := { s with err := { s.err with last := Sparse.insert s.err.last key (ts, 0) } }
    let s := s.haloKeep rec' e.cls
    let s := s.ring0 rec' e.cls
    let copies := if e.cls = 4 then (List.range 8).filter fun p => s.fbit (F.mgtErrbase_EN (1 + p))
      else match part with
        | some p => if [1, 2, 4, 6, 7].contains (e.unit / 4096) || e.cls = 3 then [p] else []
        | none => []
    let s := copies.foldl (fun s p => s.ringPart rec' e.cls p) s
    let src := srcOfUnit e.unit
    s.tailPkt 0 src 0x70 die part (e.unit + e.code * 65536 + e.cls * 2 ^ 24)
      ((List.range 9).filter fun b => s.tailAdmits b src || (s.fbit (F.trcBcfg_EN b) && decide (0 < b) && copies.contains (b - 1)))

/-- One second of timestamp counts (R316). -/
def oneSecond : Nat := 1200000000

/-- The UNIT_ID of a core. -/
def unitCore (n : Nat) : Nat := 0x1000 + n
def unitMch (n : Nat) : Nat := 0x3000 + n
def unitLink (n : Nat) : Nat := 0x4000 + n
def unitSlice (n : Nat) : Nat := 0x5000 + n
def unitChannel (n : Nat) : Nat := 0x6000 + n
def unitStream (n : Nat) : Nat := 0x7000 + n % 4096
def unitMgmt : Nat := 0x8000
def unitHalo : Nat := 0x9000
def unitSec : Nat := 0xA000
def unitDie (n : Nat) : Nat := 0xB000 + n

/-! ### Debug access to a sealed partition (R368) -/

/-- What the security module holds for partition `p`. -/
def State.secPart (s : State) (p : Nat) : SecPart := Sparse.getD (fun _ => SecPart.init) s.secp p

/-- Change it. -/
def State.modSec (s : State) (p : Nat) (f : SecPart → SecPart) : State :=
  { s with secp := Sparse.setD (fun _ => SecPart.init) s.secp p (f (s.secPart p)) }

/-- A debug access that touches a sealed partition: the first since the seal is recorded, as SEALED_DEBUG. -/
def State.sealedDebug (s : State) (p : Nat) : State :=
  if s.partState p ≠ 2 || (s.secPart p).debugged then s
  else (s.modSec p fun c => { c with debugged := true }).error { unit := unitSec, code := 0xC3, cls := 0 }

/-- A halt, step, breakpoint or register write on a core of a sealed partition, or a discarded debug write: DEBUG_TOUCHED. -/
def State.debugTouch (s : State) (p : Nat) : State :=
  if s.partState p = 2 then (s.sealedDebug p).fset (F.prtStat_DEBUG_TOUCHED p) 1 else s

/-- The same for the partition of core `n`. -/
def State.debugTouchCore (s : State) (n : Nat) : State :=
  match s.partOfCore n with
  | some p => s.debugTouch p
  | none => s

end Sys2Proof.Machine
end

