-- ==== Sys2Proof/Machine/Arbiter.lean ====
section
/-! DEFINITION. The arbiters (R334-R344), the burst slots of an MCH (R340), and the crossings between dies as messages pass them (R21, R179, R342). -/

namespace Sys2Proof.Machine

/-! ### Arbiters (R334-R338) -/

/-- The class in force of requester `r` of type `t` on die `d` (R343). -/
def State.clsOf (s : State) (d t r : Nat) : Nat :=
  let g := Reg.arbCls d t (r / 32)
  bitsOf (Sparse.getD (fun o => (regReset o).toNat) s.arbCls g.off) (2 * (r % 32) + 1) (2 * (r % 32))

/-- An arbiter after the reset of its unit: every age and the pointer are 0 (R335). -/
def Arb.init (t : Nat) : Arb := ⟨List.replicate (arbN t) 0, 0, List.replicate (arbN t) 0⟩

/-- Arbiter `u` of type `t`. -/
def State.arb (s : State) (t u : Nat) : Arb := Sparse.getD (fun _ => Arb.init t) s.arbs (t * 100000 + u)

/-- Replace an arbiter. -/
def State.setArb (s : State) (t u : Nat) (a : Arb) : State :=
  { s with arbs := Sparse.setD (fun _ => Arb.init t) s.arbs (t * 100000 + u) a }

/-- The arbiters of type `t` from instance `lo` to `hi - 1` are reset with their unit (R335). -/
def State.arbsReset (s : State) (t lo hi : Nat) : State :=
  { s with arbs := s.arbs.clearRange (t * 100000 + lo) (t * 100000 + hi) }

/-- The level of a requester (R335). -/
def Arb.level (a : Arb) (cls : Nat → Nat) (r : Nat) : Nat := min (cls r + a.ages.getD r 0) 7

/-- The winner among asserted requesters (R335); `served` wins a tie at the top level (R339, R341). -/
def Arb.winner (a : Arb) (n : Nat) (cls : Nat → Nat) (as : List Nat) (served : Option Nat) : Option Nat :=
  let top := as.foldl (fun m r => max m (a.level cls r)) 0
  let cand := as.filter fun r => a.level cls r = top
  match served with
  | some r => if cand.contains r then some r else ((List.range n).map fun i => (a.ptr + i) % n).find? cand.contains
  | none => ((List.range n).map fun i => (a.ptr + i) % n).find? cand.contains

/-- The arbiter after a decision that `w` wins among `as` (R335). -/
def Arb.after (a : Arb) (n w : Nat) (as : List Nat) : Arb :=
  { ages := (List.range n).map fun r => if r = w then 0 else if as.contains r then min (a.ages.getD r 0 + 1) 7 else a.ages.getD r 0
    ptr := (w + 1) % n
    lost := (List.range n).map fun r => if r = w then 0 else if as.contains r then a.lost.getD r 0 + 1 else a.lost.getD r 0 }

/-- One decision of arbiter `u` of type `t` on die `d`; MAXWAIT keeps the most decisions that a requester of it has lost in a row (R335, R344). -/
def State.arbitrate (s : State) (d t u : Nat) (as : List Nat) (served : Option Nat) : Option Nat × State :=
  let a := s.arb t u
  let n := arbN t
  match a.winner n (s.clsOf d t) as served with
  | none => (none, s)
  | some w =>
    let a' := a.after n w as
    let worst := (as.map fun r => a'.lost.getD r 0).foldl max 0
    let s := s.setArb t u a'
    (some w, if s.fget (F.arbMaxwait_MAXWAIT d t) < min worst 65535 then s.fset (F.arbMaxwait_MAXWAIT d t) (min worst 65535) else s)

/-- One unit moves for requester `r` while no other of its instance waits: one decision, which it wins whatever the classes (R338). -/
def State.grant (s : State) (t u r : Nat) : State := s.setArb t u ((s.arb t u).after (arbN t) r [r])

/-- The winner's request has gone by the transfer: its slot is idle and its AGE is what it was before the decision; the pointer and the others' ages stay (R337). -/
def State.withdraw (s : State) (t u w age : Nat) : State :=
  let a := s.arb t u
  s.setArb t u { a with ages := a.ages.set w age }

/-! ### The banks of a scratchpad (R170, R171, R339) -/

/-- The arbiter of the bank that holds scratchpad offset `off` of core `n` (R170). -/
def bankOf (n off : Nat) : Nat := 64 * n + off / 64 % 64

/-- Requester `r` of core `n`'s banks moves the lines of `len` bytes from offset `off`, one decision each (R171; log entry 153). -/
def State.bankLines (s : State) (n r off len : Nat) : State :=
  (List.range (if len = 0 then 0 else (off + len - 1) / 64 - off / 64 + 1)).foldl (fun s i => s.grant 0 (bankOf n (off + 64 * i)) r) s

/-- Bank arbiter `u` decides on a request of the A feeder: its winner, and the AGE that this one had. A unit that is at work asserts its request in that cycle or does not: a free value. The feeder wins a tie at level 7. -/
def State.bankAsk (s : State) (n u : Nat) (busy : List Nat) : Option Nat × Nat × State :=
  let d := s.draw
  let a := d.2.arb 0 u
  let r := d.2.arbitrate (dieOfCore n) 0 u (0 :: busy.filter fun r => d.1.getLsbD r) (if a.ages.getD 0 0 = 7 then some 0 else none)
  (r.1, r.1.elim 0 fun w => a.ages.getD w 0, r.2)

/-- The banks decide on one row of the A feeder; it issues when every one chose the feeder (R339). -/
def State.rowAsk (s : State) (n : Nat) (banks busy : List Nat) : Bool × State :=
  let r := banks.foldl (fun (a : List (Nat × Option Nat × Nat) × State) u =>
    let q := a.2.bankAsk n u busy
    (a.1 ++ [(u, q.1, q.2.1)], q.2.2)) ([], s)
  if r.1.all fun e => e.2.1 = some 0 then (true, r.2)
  else
    (false, r.1.foldl (fun (s : State) e =>
      let s := if e.2.1 = some 0 then s.withdraw 0 e.1 0 e.2.2 else s
      s.withdraw 0 e.1 0 7) r.2)

/-- A row issues, after a bubble where its first decision refuses it: in the next every bank chooses the feeder, at level 7 (R339). -/
def State.rowIssue (s : State) (n : Nat) (banks busy : List Nat) : Nat × State :=
  let r := s.rowAsk n banks busy
  if r.1 then (0, r.2) else (1, (r.2.rowAsk n banks busy).2)

/-! ### The burst slots of an MCH (R340) -/

/-- The slots of MCH `m`. -/
def State.mslot (s : State) (m : Nat) : MchSlot := Sparse.getD (fun _ => ⟨false, false⟩) s.mslots m

/-- Set them. -/
def State.setMslot (s : State) (m : Nat) (x : MchSlot) : State :=
  { s with mslots := Sparse.setD (fun _ => ⟨false, false⟩) s.mslots m x }

/-- A refresh falls due: it takes the slots that come next, before anything else. -/
def State.refreshDue (s : State) (m : Nat) : State := s.setMslot m { s.mslot m with refresh := true }

/-- The next slot that is free goes to requester `r` by a decision: a refresh that is due passes first, without one. -/
def State.mchSlot (s : State) (m r : Nat) : State := (s.setMslot m ⟨false, false⟩).grant 5 m r

/-- A debug access takes a slot without a decision: a refresh that is due passes first, and after a debug access one slot goes by ordinary decision. -/
def State.debugSlot (s : State) (m : Nat) : State := s.setMslot m ⟨false, true⟩

/-! ### Crossings (R21, R179, R342) -/

/-- The compute die beside a memory-side die; a compute die itself. -/
def computeDie (d : Nat) : Nat := [0, 1, 2, 3, 0, 2, 1, 3].getD d 0

/-- From one compute die to another: first east or west, then north or south (R21). -/
def blockPath (e x : Nat) : List Nat :=
  let mid := e / 2 * 2 + x % 2
  [e] ++ (if mid ≠ e then [mid] else []) ++ (if x ≠ mid then [x] else [])

/-- The compute die where traffic enters or leaves the block at die `d`, in column `c` for an I/O die. -/
def entryDie (d c : Nat) : Nat := if d < 8 then computeDie d else (d - 8) * 2 + c % 2

/-- The dies a message passes from die `a` to die `b` (R21); `h` is the hash of its ports. -/
def diePath (h a b : Nat) : List Nat :=
  if a = b then [a]
  else
    let col := if a < 8 then computeDie a % 2 else if b < 8 then computeDie b % 2 else h % 2
    let e := entryDie a col
    let x := entryDie b col
    (if a = e then [] else [a]) ++ blockPath e x ++ (if b = x then [] else [b])

/-- The pair of dies of each crossing (R179). -/
def crossPairs : List (Nat × Nat) :=
  [(0, 4), (1, 6), (2, 5), (3, 7), (0, 1), (2, 3), (0, 2), (1, 3), (0, 8), (1, 8), (2, 9), (3, 9)]

/-- The lower-numbered die of crossing `x` (R179). -/
def crossDie (x : Nat) : Nat := (crossPairs.getD x (0, 0)).1

/-- The crossing from die `a` to die `b`, with its direction: 0 from the lower-numbered die. -/
def crossingOf (a b : Nat) : Option (Nat × Nat) :=
  ((List.range 12).find? fun x => crossPairs.getD x (0, 0) = (min a b, max a b)).map fun x => (x, if a < b then 0 else 1)

/-- The first arbiter of a crossing: modules in both directions of those before it (R179, R334). -/
def crossBase (x : Nat) : Nat := if x < 4 then 80 * x else if x < 8 then 320 + 48 * (x - 4) else 512 + 24 * (x - 8)

/-- Messages that wait at an arbiter of a crossing, oldest first. -/
def State.xqOf (s : State) (u : Nat) : List XMsg := Sparse.getD (fun _ => []) s.xq u

/-- Replace them. -/
def State.setXq (s : State) (u : Nat) (q : List XMsg) : State := { s with xq := Sparse.setD (fun _ => []) s.xq u q }

/-- One flit of the oldest message of class `w` has gone: the message keeps the count of those left, and leaves with its last (R342). -/
def sendFlit (w : Nat) : List XMsg → List XMsg
  | [] => []
  | m :: q => if m.cls = w then (if m.left ≤ 1 then q else { m with left := m.left - 1 } :: q) else m :: sendFlit w q

/-- One flit crosses at arbiter `u`: a decision among the classes that have a message, and the oldest message of the winner's class moves, so that none passes an earlier one of its class and ports (R342). -/
def State.crossFlit (s : State) (d u : Nat) : State :=
  let q := s.xqOf u
  match s.arbitrate d 3 u ((List.range 4).filter fun c => q.any (·.cls = c)) none with
  | (some w, s) => s.setXq u (sendFlit w q)
  | (none, s) => s

/-- Flits cross until none waits. -/
def State.crossAll (s : State) (d u : Nat) : Nat → State
  | 0 => s
  | k + 1 => if (s.xqOf u).isEmpty then s else State.crossAll (s.crossFlit d u) d u k

/-- A message of class `cls` (0 REQ, 1 RSP, 2 SNP, 3 MGT) with `len` bytes of data passes from die `a` to the next die `b`: a flit carries 240 B (R179), and the module is the hash's among those in service (R182; log entry 146). -/
def State.crossOne (s : State) (h cls src dst len a b : Nat) : State :=
  match crossingOf a b with
  | none => s
  | some (x, dir) =>
    let k := s.fget (F.nocXstat_MODULES x)
    if k = 0 then s
    else
      let u := crossBase x + 2 * (h % k) + dir
      let n := max 1 (ceilDiv len 240)
      let s := s.setXq u (s.xqOf u ++ [⟨cls, src, dst, n⟩])
      s.crossAll a u (((s.xqOf u).map (·.left)).sum)

/-- A message passes every crossing on its path (R21). -/
def State.crossPath (s : State) (h cls src dst len : Nat) : List Nat → State
  | a :: b :: r => State.crossPath (s.crossOne h cls src dst len a b) h cls src dst len (b :: r)
  | _ => s

/-- A message goes from a port on die `a` to one on die `b`. -/
def State.sendAcross (s : State) (cls src dst len a b : Nat) : State :=
  let h := Config.portHash src dst
  s.crossPath h cls src dst len (diePath h a b)

end Sys2Proof.Machine
end

