-- ==== Sys2Proof/Machine/Num.lean ====
section
/-! DEFINITION. Exact dyadic arithmetic, the element formats (R125-R127), A38 and W48 (R105, R106), the conversions and rounding modes (R130-R132), the segment window (R108) and the random generator (R133). -/

namespace Sys2Proof.Machine

/-- A value as the arithmetic sees it: NaN, a signed infinity, or (-1)^s m 2^e, which is a signed zero when m = 0. -/
inductive Num where
  | nan
  | inf (s : Bool)
  | fin (s : Bool) (m : Nat) (e : Int)
  deriving DecidableEq, Repr

/-- A binary floating-point layout: exponent bits, fraction bits, bias, and which top encodings are special: 0 as IEEE 754, 1 as E4M3, 2 none (R126). -/
structure FFmt where
  eb : Nat
  fb : Nat
  bias : Nat
  sp : Nat
  deriving DecidableEq, Repr

def fmtBF16 : FFmt := ⟨8, 7, 127, 0⟩
def fmtFP16 : FFmt := ⟨5, 10, 15, 0⟩
def fmtFP32 : FFmt := ⟨8, 23, 127, 0⟩
/-- A38 (R105). -/
def fmtA38 : FFmt := ⟨10, 27, 511, 0⟩
/-- W48 (R106). -/
def fmtW48 : FFmt := ⟨10, 37, 511, 0⟩

/-- The layout of the FMT codes 0x0-0x7 (R125). -/
def fmtOf : Nat → FFmt
  | 0 => fmtBF16 | 1 => fmtFP16 | 2 => fmtFP32
  | 3 => ⟨4, 3, 7, 1⟩ | 4 => ⟨5, 2, 15, 0⟩ | 5 => ⟨2, 3, 1, 2⟩ | 6 => ⟨3, 2, 3, 2⟩ | _ => ⟨2, 1, 1, 2⟩

/-- The width of an encoding. -/
def FFmt.width (f : FFmt) : Nat := 1 + f.eb + f.fb

/-- The value of an encoding (R125-R128). -/
def FFmt.dec (f : FFmt) (n : Nat) : Num :=
  let s := bitAt n (f.eb + f.fb)
  let ex := bitsOf n (f.eb + f.fb - 1) f.fb
  let fr := n % 2 ^ f.fb
  let top := 2 ^ f.eb - 1
  if f.sp = 0 ∧ ex = top then (if fr = 0 then .inf s else .nan)
  else if f.sp = 1 ∧ ex = top ∧ fr = 2 ^ f.fb - 1 then .nan
  else if ex = 0 then .fin s fr (1 - (f.bias : Int) - f.fb)
  else .fin s (2 ^ f.fb + fr) ((ex : Int) - f.bias - f.fb)

/-- The pattern of the largest finite magnitude (R126). -/
def FFmt.maxBits (f : FFmt) : Nat :=
  if f.sp = 0 then (2 ^ f.eb - 1) * 2 ^ f.fb - 1
  else if f.sp = 1 then 2 ^ (f.eb + f.fb) - 2
  else 2 ^ (f.eb + f.fb) - 1

/-- The sign bit at its place. -/
def FFmt.signBit (f : FFmt) (s : Bool) : Nat := if s then 2 ^ (f.eb + f.fb) else 0

/-- The canonical NaN written (R105, R106, R126). -/
def FFmt.canonNan (f : FFmt) : Nat := (2 ^ f.eb - 1) * 2 ^ f.fb + 2 ^ (f.fb - 1)

/-- The infinity of a sign. -/
def FFmt.infBits (f : FFmt) (s : Bool) : Nat := f.signBit s + (2 ^ f.eb - 1) * 2 ^ f.fb

/-- The exponent of a non-zero value: the `e` with 2^e ≤ |v| < 2^(e+1) (R108). -/
def numExp (m : Nat) (e : Int) : Int := (Nat.log2 m : Int) + e

/-- m 2^e < n 2^f for naturals m and n. -/
def magLt (m : Nat) (e : Int) (n : Nat) (f : Int) : Bool :=
  let g := min e f
  m * 2 ^ (e - g).toNat < n * 2 ^ (f - g).toNat

/-- |v| ≤ |w| as exact magnitudes. -/
def magLe (m : Nat) (e : Int) (n : Nat) (f : Int) : Bool := !magLt n f m e

namespace Num

def isNan : Num → Bool | .nan => true | _ => false
def isInf : Num → Bool | .inf _ => true | _ => false
def isFin : Num → Bool | .fin _ _ _ => true | _ => false
def isZero : Num → Bool | .fin _ 0 _ => true | _ => false
def sign : Num → Bool | .nan => false | .inf s => s | .fin s _ _ => s

def neg : Num → Num | .nan => .nan | .inf s => .inf !s | .fin s m e => .fin (!s) m e
def abs : Num → Num | .nan => .nan | .inf _ => .inf false | .fin _ m e => .fin false m e

/-- v 2^k. -/
def scale (k : Int) : Num → Num | .nan => .nan | .inf s => .inf s | .fin s m e => .fin s m (e + k)

/-- The signed integer of a finite value over 2^g, for g at most its exponent. -/
def scaled (g : Int) (s : Bool) (m : Nat) (e : Int) : Int :=
  let n : Int := (m * 2 ^ (e - g).toNat : Nat)
  if s then -n else n

/-- The exact sum, with IEEE 754 special values; an exact zero sum of values of unlike sign is +0. -/
def add : Num → Num → Num
  | .nan, _ => .nan
  | _, .nan => .nan
  | .inf s, .inf t => if s = t then .inf s else .nan
  | .inf s, _ => .inf s
  | _, .inf t => .inf t
  | .fin s 0 e, .fin t 0 _ => .fin (s && t) 0 e
  | .fin s m e, .fin t n f =>
    let g := min e f
    let z := scaled g s m e + scaled g t n f
    .fin (decide (z < 0)) z.natAbs g

def sub (a b : Num) : Num := add a b.neg

/-- The exact product, with IEEE 754 special values. -/
def mul : Num → Num → Num
  | .nan, _ => .nan
  | _, .nan => .nan
  | .inf s, .inf t => .inf (s != t)
  | .inf s, .fin t n _ => if n = 0 then .nan else .inf (s != t)
  | .fin s m _, .inf t => if m = 0 then .nan else .inf (s != t)
  | .fin s m e, .fin t n f => .fin (s != t) (m * n) (e + f)

/-- The exact sum of a list, starting from a first term. -/
def sum (z : Num) (l : List Num) : Num := l.foldl add z

/-- a < b for values that are not NaN; false when one is. -/
def lt : Num → Num → Bool
  | .nan, _ => false
  | _, .nan => false
  | .inf s, .inf t => s && !t
  | .inf s, _ => s
  | _, .inf t => !t
  | .fin s m e, .fin t n f => let g := min e f; decide (scaled g s m e < scaled g t n f)

/-- a = b as values; false when one is NaN; the two zeros are equal. -/
def eqv : Num → Num → Bool
  | .nan, _ => false
  | _, .nan => false
  | .inf s, .inf t => s = t
  | .inf _, _ => false
  | _, .inf _ => false
  | .fin s m e, .fin t n f => let g := min e f; decide (scaled g s m e = scaled g t n f)

def le (a b : Num) : Bool := lt a b || eqv a b

/-- The integer value. -/
def ofInt (i : Int) : Num := .fin (decide (i < 0)) i.natAbs 0

/-- The greatest integer at most a finite value. -/
def floor : Num → Int
  | .fin s m e =>
    if 0 ≤ e then scaled 0 s m e
    else let d := 2 ^ (-e).toNat
         if s then -((m + d - 1) / d : Nat) else ((m / d : Nat) : Int)
  | _ => 0

/-- The integer next to zero. -/
def trunc : Num → Int
  | .fin s m e => let n : Nat := if 0 ≤ e then m * 2 ^ e.toNat else m / 2 ^ (-e).toNat
                  if s then -(n : Int) else n
  | _ => 0

/-- The nearest integer, ties to even. -/
def rint : Num → Int
  | .fin s m e =>
    let n : Nat := if 0 ≤ e then m * 2 ^ e.toNat else
      let d := 2 ^ (-e).toNat
      let q := m / d
      let r := m % d
      if d < 2 * r ∨ (2 * r = d ∧ q % 2 = 1) then q + 1 else q
    if s then -(n : Int) else n
  | _ => 0

end Num

/-- The rounding modes of R131. -/
inductive RMode where
  | rne
  | rtz
  | stoch (r : Nat)
  deriving DecidableEq, Repr

/-- The exponent of the unit in the last place at a magnitude m 2^e of a format, its subnormals included. -/
def FFmt.quantum (f : FFmt) (m : Nat) (e : Int) : Int :=
  if m = 0 then 1 - (f.bias : Int) - f.fb else max (numExp m e - f.fb) (1 - (f.bias : Int) - f.fb)

/-- A signalling NaN: the leading fraction bit is 0 (IEEE 754-2019, R149). -/
def FFmt.isSnan (f : FFmt) (n : Nat) : Bool :=
  f.sp = 0 && bitsOf n (f.eb + f.fb - 1) f.fb = 2 ^ f.eb - 1 && n % 2 ^ f.fb ≠ 0 && !bitAt n (f.fb - 1)

/-- m 2^e rounded to an integer count of 2^q, by R131. -/
def roundCount (mode : RMode) (m : Nat) (e q : Int) : Nat :=
  if q ≤ e then m * 2 ^ (e - q).toNat
  else
    let d := 2 ^ (q - e).toNat
    let lo := m / d
    let r := m % d
    match mode with
    | .rtz => lo
    | .rne => if d < 2 * r ∨ (2 * r = d ∧ lo % 2 = 1) then lo + 1 else lo
    | .stoch w => if 2 ^ 32 ≤ r * 2 ^ 32 / d + w then lo + 1 else lo

/-- The pattern of a rounded magnitude c 2^q, unsigned; at or beyond the top exponent it is the infinity. -/
def FFmt.pack (f : FFmt) (c : Nat) (q : Int) : Nat :=
  if c < 2 ^ f.fb then c
  else
    let c' := if c = 2 ^ (f.fb + 1) then 2 ^ f.fb else c
    let q' := if c = 2 ^ (f.fb + 1) then q + 1 else q
    let field := (q' + f.fb + f.bias).toNat
    if 2 ^ f.eb - 1 ≤ field ∧ f.sp = 0 then (2 ^ f.eb - 1) * 2 ^ f.fb
    else field * 2 ^ f.fb + (c' - 2 ^ f.fb)

/-- The IEEE 754 rounding of a value into a format with infinities; a value that rounds beyond the range becomes the signed infinity. -/
def FFmt.enc (f : FFmt) (mode : RMode) : Num → Nat
  | .nan => f.canonNan
  | .inf s => f.infBits s
  | .fin s 0 _ => f.signBit s
  | .fin s m e =>
    let q := f.quantum m e
    f.signBit s + f.pack (roundCount mode m e q) q

/-- Rounding to nearest-even. -/
def FFmt.rne (f : FFmt) (v : Num) : Nat := f.enc .rne v

/-- The result categories of R120. -/
inductive Cat where
  | none | nan | inf | sat | flush | zero
  deriving DecidableEq, Repr

/-- Whether a pattern is a subnormal of its format. -/
def FFmt.isSub (f : FFmt) (n : Nat) : Bool := bitsOf n (f.eb + f.fb - 1) f.fb = 0 && n % 2 ^ f.fb ≠ 0

/-- The conversion procedure of R130. -/
def convert (f : FFmt) (mode : RMode) (ftz : Bool) : Num → Nat × Cat
  | .nan => (f.canonNan, .nan)
  | .inf s => (f.infBits s, .inf)
  | .fin s 0 _ => (f.signBit s, .zero)
  | .fin s m e =>
    let ovf := match f.dec f.maxBits with | .fin _ mm me => magLt mm me m e | _ => false
    if ovf then (f.signBit s + f.maxBits, .sat)
    else
      let q := f.quantum m e
      let r := f.pack (roundCount mode m e q) q
      let r' := if ftz && f.isSub r then 0 else r
      if r' = 0 then (f.signBit s, .flush) else (f.signBit s + r', .none)

/-- One segment sum (R108), with the largest exponent of its window when it held a non-zero term (R110). -/
def segmentSum (p : List Num) : Nat × Option Int :=
  if p.any Num.isNan || (p.contains (.inf false) && p.contains (.inf true)) then (fmtA38.canonNan, none)
  else if p.contains (.inf false) then (fmtA38.infBits false, none)
  else if p.contains (.inf true) then (fmtA38.infBits true, none)
  else if p.all Num.isZero then (fmtA38.signBit (p.all Num.sign), none)
  else
    let emax := p.foldl (fun (a : Option Int) v => match v with
      | .fin _ m e => if m = 0 then a else match a with | none => some (numExp m e) | some b => some (max b (numExp m e))
      | _ => a) none
    let em := emax.getD 0
    let lsb := em - 40
    let q := fun (m : Nat) (e : Int) => roundCount .rtz m e lsb
    let w : Int := p.foldl (fun a v => match v with | .fin s m e => if s then a - q m e else a + q m e | _ => a) 0
    let sticky := p.any fun v => match v with | .fin _ m e => decide (e < lsb) && decide (m % 2 ^ (lsb - e).toNat ≠ 0) | _ => false
    if w = 0 then (0, emax)
    else
      -- the sticky bit stands below every bit of the window
      let m := w.natAbs * 4 + (if sticky then 1 else 0)
      let lead := Nat.log2 w.natAbs
      -- when no bit of the window is discarded, sticky changes nothing
      let m' := if lead ≤ 27 ∨ w.natAbs % 2 ^ (lead - 27) = 0 then w.natAbs * 4 else m
      (fmtA38.rne (.fin (decide (w < 0)) m' (lsb - 2)), emax)

/-- A38 addition, nearest-even (R109). -/
def a38Add (a b : Nat) : Nat := fmtA38.rne (Num.add (fmtA38.dec a) (fmtA38.dec b))

/-- W48 addition, nearest-even (R106). -/
def w48Add (a b : Nat) : Nat := fmtW48.rne (Num.add (fmtW48.dec a) (fmtW48.dec b))

/-- The exact W48 image of an A38 value (R106). -/
def w48OfA38 (a : Nat) : Nat := fmtW48.rne (fmtA38.dec a)

/-- Truncation of a value to BF16 (R92). -/
def truncBf16 (v : Num) : Nat := fmtBF16.enc .rtz v

/-- Piece `j` of an FP32 value (R92), for finite values. -/
def splitPiece (v : Num) (j : Nat) : Num :=
  let x0 := fmtBF16.dec (truncBf16 v)
  let r1 := Num.sub v x0
  let x1 := fmtBF16.dec (truncBf16 r1)
  match j with
  | 0 => x0
  | 1 => x1
  | _ => fmtBF16.dec (truncBf16 (Num.sub r1 x1))

/-- The passes of R93, in order, as piece pairs. -/
def passPairs : Nat → List (Nat × Nat)
  | 1 => [(0, 0)]
  | 2 => [(1, 0), (0, 1), (0, 0)]
  | _ => [(2, 0), (1, 1), (0, 2), (1, 0), (0, 1), (0, 0)]

/-- One round of the generator of R133: (round number, words). -/
def genRound (k : Nat) (r : Nat) (x : Nat × Nat × Nat × Nat) : Nat × Nat × Nat × Nat :=
  let k0 := k % 2 ^ 32
  let k1 := bitsOf k 63 32
  let k2 := bitsOf k 95 64
  let k3 := bitsOf k 127 96
  let ka := ((if r % 2 = 1 then k2 else k0) + r * 0x9E3779B9) % 2 ^ 32
  let kb := ((if r % 2 = 1 then k3 else k1) + r * 0xBB67AE85) % 2 ^ 32
  let (x0, x1, x2, x3) := x
  let p := 0xD2511F53 * x0
  let q := 0xCD9E8D57 * x2
  ((bitsOf q 63 32 ^^^ x1) ^^^ ka, q % 2 ^ 32, (bitsOf p 63 32 ^^^ x3) ^^^ kb, p % 2 ^ 32)

/-- The generator G(K, c) (R133): its four 32-bit words. -/
def generator (k c : Nat) : Nat × Nat × Nat × Nat :=
  (List.range 10).foldl (fun x r => genRound k r x) (c % 2 ^ 32, bitsOf c 63 32, 0, 0)

/-- Word `i` of G(K, c). -/
def genWord (k c i : Nat) : Nat :=
  let (a, b, d, e) := generator k c
  match i % 4 with | 0 => a | 1 => b | 2 => d | _ => e

/-- The greatest integer whose square is at most `n`, found bit by bit from bit `k - 1`. -/
def isqrtBits (n : Nat) : Nat → Nat → Nat
  | 0, acc => acc
  | k + 1, acc => let t := acc + 2 ^ k; isqrtBits n k (if t * t ≤ n then t else acc)

/-- The integer square root. -/
def isqrt (n : Nat) : Nat := isqrtBits n (Nat.log2 n / 2 + 1) 0

/-- A quotient m / n of naturals as a dyadic value that rounds as the exact quotient does: at least 96 significant bits, and an odd last bit when it is not exact. -/
def divDyadic (m n : Nat) : Nat × Int :=
  let k := 100 + Nat.log2 n
  let q := m * 2 ^ k / n
  (2 * q + (if m * 2 ^ k % n = 0 then 0 else 1), -(k : Int) - 1)

/-- A square root of m 2^e as a dyadic value that rounds as the exact root does. -/
def sqrtDyadic (m : Nat) (e : Int) : Nat × Int :=
  let m' := if e % 2 = 0 then m else 2 * m
  let e' := if e % 2 = 0 then e else e - 1
  let r := isqrt (m' * 4 ^ 100)
  (2 * r + (if r * r = m' * 4 ^ 100 then 0 else 1), e' / 2 - 101)

/-- IEEE 754 division, before rounding. -/
def Num.div : Num → Num → Num
  | .nan, _ => .nan
  | _, .nan => .nan
  | .inf _, .inf _ => .nan
  | .inf s, .fin t _ _ => .inf (s != t)
  | .fin s _ e, .inf t => .fin (s != t) 0 e
  | .fin s m e, .fin t n f =>
    if n = 0 then (if m = 0 then .nan else .inf (s != t))
    else if m = 0 then .fin (s != t) 0 e
    else let d := divDyadic m n; .fin (s != t) d.1 (d.2 + e - f)

/-- IEEE 754 square root, before rounding. -/
def Num.sqrt : Num → Num
  | .nan => .nan
  | .inf s => if s then .nan else .inf false
  | .fin s m e => if m = 0 then .fin s 0 e else if s then .nan else let d := sqrtDyadic m e; .fin false d.1 d.2

/-- Whether the rounded pattern differs from the exact value. -/
def FFmt.inexact (f : FFmt) (bits : Nat) (v : Num) : Bool :=
  match v with
  | .fin _ _ _ => !(Num.eqv (f.dec bits) v)
  | _ => false

end Sys2Proof.Machine
end

