-- ==== Sys2Proof/Machine/Operands.lean ====
section
/-! DEFINITION. The operand forms of a bundle: slot fields (R42-R48), legality (R37, R42-R48, R146, R147), the registers an operation reads and writes (R39, R40), and tile descriptors (R49, R50, R84, R129). -/

namespace Sys2Proof.Machine

/-! ### Bundles -/

/-- The operations of a bundle: the slots whose valid bit is 1, and whether a reserved bit is set (R42). -/
structure Bundle where
  sc : Option Nat
  mv : Option Nat
  mx : Option Nat
  vc : Option Nat
  sy : Option Nat
  rsv : Bool
  deriving DecidableEq, Repr

/-- A bundle without operations. -/
def Bundle.empty : Bundle := ⟨none, none, none, none, none, false⟩

/-- The slots of a 256-bit bundle; bits [250:248] are reserved (R42). -/
def Bundle.ofWord (w : Nat) : Bundle :=
  let on := fun (b hi lo : Nat) => if bitAt w b then some (bitsOf w hi lo) else none
  ⟨on 255 247 200, on 254 199 136, on 253 135 88, on 252 87 24, on 251 23 0, decide (bitsOf w 250 248 ≠ 0)⟩

/-! ### Scalar slot fields (R43) -/

def scOp (x : Nat) : Nat := bitsOf x 47 40
def scRd (x : Nat) : Nat := bitsOf x 39 34
def scRs1 (x : Nat) : Nat := bitsOf x 33 28
def scRs2 (x : Nat) : Nat := bitsOf x 27 22
/-- IMM28, sign-extended. -/
def scImm (x : Nat) : Int := sextN 28 x

/-- Opcodes 0x01-0x0D. -/
def scIsReg (x : Nat) : Bool := 1 ≤ scOp x && scOp x ≤ 0xD
/-- Opcodes 0x11-0x1D. -/
def scIsImm (x : Nat) : Bool := 0x11 ≤ scOp x && scOp x ≤ 0x1D
/-- Conditional branches 0x31-0x34. -/
def scIsCond (x : Nat) : Bool := 0x31 ≤ scOp x && scOp x ≤ 0x34

/-- A legal scalar operation (R37, R43, R44). -/
def scLegal (x : Nat) : Bool :=
  let op := scOp x
  if op = 0 ∨ op = 0x3F then true
  else if scIsReg x then scRd x < 48 && scRs1 x < 48 && scRs2 x < 48 && bitsOf x 21 0 = 0
  else if scIsImm x then scRd x < 48 && scRs1 x < 48
  else if op = 0x20 ∨ op = 0x21 then scRd x < 48
  else if op = 0x30 ∨ op = 0x36 then true
  else if scIsCond x ∨ op = 0x35 then scRs1 x < 48
  else if op = 0x3E then scRd x < 48 && bitsOf x 7 0 ≤ 6
  else false

/-- Registers a scalar operation reads. -/
def scReads (x : Nat) : List Nat :=
  if scIsReg x then [scRs1 x, scRs2 x]
  else if scIsImm x ∨ scIsCond x ∨ scOp x = 0x35 then [scRs1 x]
  else if scOp x = 0x21 then [scRd x]
  else []

/-- Registers a scalar operation writes. -/
def scWrites (x : Nat) : List Nat :=
  if scIsReg x ∨ scIsImm x ∨ scOp x = 0x20 ∨ scOp x = 0x21 ∨ scOp x = 0x3E then [scRd x]
  else if scOp x = 0x36 then [31]
  else []

/-- A scalar slot word from its fields. -/
def scWord (op rd rs1 rs2 imm28 : Nat) : Nat := op * 2 ^ 40 + rd * 2 ^ 34 + rs1 * 2 ^ 28 + (if 1 ≤ op ∧ op ≤ 0xD then rs2 * 2 ^ 22 else imm28)

/-! ### Move slot fields (R45) -/

def mvOp (x : Nat) : Nat := bitsOf x 63 56
def mvAb (x : Nat) : Nat := bitsOf x 55 52
def mvR (x : Nat) : Nat := bitsOf x 51 46
def mvV (x : Nat) : Nat := bitsOf x 45 41
def mvT (x : Nat) : Nat := bitsOf x 40 37
def mvQ (x : Nat) : Nat := bitsOf x 36 34
def mvImm (x : Nat) : Int := sextN 32 x

/-- A move slot word from its fields. -/
def mvWord (op ab r v t q imm32 : Nat) : Nat :=
  op * 2 ^ 56 + ab * 2 ^ 52 + r * 2 ^ 46 + v * 2 ^ 41 + t * 2 ^ 37 + q * 2 ^ 34 + imm32

/-- The bytes a move operation touches, and its alignment (R45). -/
def mvExtent (x : Nat) : Nat × Nat :=
  match mvOp x with
  | 1 => (128, 64) | 2 => (8192, 64) | 3 => (8192, 64) | 4 => (32, 32) | 5 => (32, 32)
  | 6 => (1, 64) | 8 => (8, 8) | 9 => (8, 8) | _ => (1, 1)

/-- A legal move operation (R45): bits [33:32] are 0 for every opcode. -/
def mvLegal (x : Nat) : Bool :=
  bitsOf x 33 32 = 0 &&
  (match mvOp x with
   | 0 | 1 | 2 | 3 | 4 | 5 | 6 => true
   | 8 | 9 => mvR x < 48
   | _ => false)

def mvReads (x : Nat) : List Nat :=
  match mvOp x with
  | 0 => []
  | 3 => [32 + mvAb x, 100 + mvV x]
  | 5 => [32 + mvAb x, 200 + mvT x]
  | 9 => [32 + mvAb x, mvR x]
  | _ => [32 + mvAb x]

def mvWrites (x : Nat) : List Nat :=
  match mvOp x with
  | 2 => [100 + mvV x]
  | 4 | 6 => [200 + mvT x]
  | 8 => [mvR x]
  | _ => []

/-! ### Matrix slot fields (R46) -/

def mxOp (x : Nat) : Nat := bitsOf x 47 40
def mxTa (x : Nat) : Nat := bitsOf x 39 36
def mxTb (x : Nat) : Nat := bitsOf x 35 32
def mxTc (x : Nat) : Nat := bitsOf x 31 28
def mxRs (x : Nat) : Nat := bitsOf x 27 22
def mxRow (x : Nat) : Nat := bitsOf x 21 13
/-- Rows: the field plus 1. -/
def mxRows (x : Nat) : Nat := bitsOf x 12 4 + 1
def mxKind (x : Nat) : Nat := bitsOf x 3 0

/-- A legal matrix operation (R46, R64). -/
def mxLegal (x : Nat) : Bool :=
  match mxOp x with
  | 0 | 1 | 2 | 3 => true
  | 4 => mxKind x ≤ 1 && mxRs x < 48
  | 5 => mxKind x ≤ 4 && (mxKind x = 0 || mxRs x < 48)
  | 6 => mxKind x = 2 || mxKind x = 3
  | _ => false

/-- Tile descriptors a matrix operation uses under the checks of R49 (an MCFG uses only BASE, R81). -/
def mxTiles (x : Nat) : List Nat :=
  match mxOp x with
  | 2 => [mxTb x]
  | 4 => [mxTa x]
  | 5 => (if mxKind x = 0 ∨ mxKind x = 3 then [mxTb x] else []) ++ (if mxKind x = 0 then [] else [mxTc x])
  | 6 => [mxTa x, mxTc x] ++ (if mxKind x = 3 then [mxTb x] else [])
  | _ => []

/-- Registers a matrix operation reads after it starts (R39). -/
def mxReads (x : Nat) : List Nat :=
  (mxTiles x).map (200 + ·) ++
  (match mxOp x with
   | 1 => [200 + mxTa x]
   | 4 => [mxRs x]
   | 5 => if mxKind x = 0 then [] else [mxRs x]
   | _ => [])

/-! ### Vector slot fields (R47, R145) -/

def vcOp (x : Nat) : Nat := bitsOf x 63 56
def vcVd (x : Nat) : Nat := bitsOf x 55 51
def vcVa (x : Nat) : Nat := bitsOf x 50 46
def vcVb (x : Nat) : Nat := bitsOf x 45 41
def vcVc (x : Nat) : Nat := bitsOf x 40 36
def vcRs (x : Nat) : Nat := bitsOf x 35 30
def vcTy (x : Nat) : Nat := bitsOf x 29 27
def vcRnd (x : Nat) : Nat := bitsOf x 26 25
def vcFtz (x : Nat) : Bool := bitAt x 24
def vcSb (x : Nat) : Bool := bitAt x 23
def vcSig (x : Nat) : Bool := bitAt x 22
def vcFn (x : Nat) : Nat := bitsOf x 21 12
def vcN (x : Nat) : Nat := bitsOf x 11 0 + 1

/-- The kinds of R146. -/
inductive VKind where
  | a | c | b | t | i | r
  deriving DecidableEq, Repr

/-- A row of R148: the kind, the TYPEs listed, and whether SB may be 1. -/
def vcRow (op : Nat) : Option (VKind × List Nat × Bool) :=
  let arith := [0, 1, 2, 3]
  match op with
  | 0x01 | 0x02 | 0x03 | 0x04 => some (.a, arith, true)
  | 0x05 | 0x06 => some (.c, arith, true)
  | 0x07 | 0x08 => some (.c, [0, 1, 2], false)
  | 0x09 => some (.a, [0], true)
  | 0x0A => some (.a, [0], false)
  | 0x0B => some (.c, arith, true)
  | 0x0C => some (.b, [3, 1], true)
  | 0x0D | 0x0E | 0x0F => some (.b, [3, 1], true)
  | 0x10 | 0x11 => some (.i, [2, 3], true)
  | 0x12 => some (.b, [3], false)
  | 0x13 => some (.a, [0, 1, 2, 3, 4], false)
  | 0x20 | 0x21 | 0x22 | 0x23 | 0x24 | 0x25 | 0x26 | 0x27 | 0x28 | 0x29 | 0x2A | 0x2B | 0x2C | 0x2D => some (.t, [0, 1], false)
  | 0x30 | 0x31 => some (.a, [0, 1], false)
  | 0x32 | 0x33 => some (.c, [0, 1], false)
  | 0x38 | 0x39 | 0x3A => some (.b, [3, 1], false)
  | 0x40 => some (.b, [3, 1], false)
  | 0x41 => some (.b, [3, 1], true)
  | 0x42 => some (.a, [0], true)
  | 0x48 => some (.r, [3], false)
  | 0x49 | 0x4A => some (.r, [0], false)
  | 0x50 | 0x51 | 0x52 | 0x53 => some (.a, [0], false)
  | 0x54 => some (.a, [1], true)
  | _ => none

/-- Whether an operation has a 32-bit operand or result (R144, R146): a 32-bit TYPE, the UINT32 result of VCMP, the UINT32 operands of VSEL, VPERM, VGATHER and VSCATTER, either side of VCVT, the FP32 update of VCUPD. -/
def vcWide (x : Nat) : Bool :=
  !(vcTy x = 1 || vcTy x = 4) ||
  (match vcOp x with
   | 0x0B | 0x0C | 0x38 | 0x40 | 0x41 | 0x54 => true
   | 0x13 => !(vcFn x % 8 = 1 || vcFn x % 8 = 2)
   | _ => false)

/-- The pairs of R150 with their ROUND and FTZ values. -/
def cvtLegal (x : Nat) : Bool :=
  let tgt := vcFn x % 8
  vcFn x / 8 = 0 &&
  (match vcTy x with
   | 0 => ((tgt = 1 || tgt = 2) && vcRnd x ≤ 2) || (tgt = 3 && vcRnd x ≤ 1)
   | 1 | 4 => tgt = 0 && vcRnd x = 0
   | 2 | 3 => tgt = 0 && vcRnd x ≤ 1 && !vcFtz x
   | _ => false)

/-- ROUND and FTZ allowed by the operation's kind (R146). -/
def vcModeOk (k : VKind) (x : Nat) : Bool :=
  let ty := vcTy x
  let fp := ty = 0 || ty = 1 || ty = 4
  if vcOp x = 0x13 then cvtLegal x
  else if vcOp x = 0x54 then vcRnd x = 0 || vcRnd x = 2
  else match k with
    | .a => if ty = 0 then vcRnd x ≤ 1 else if fp then vcRnd x ≤ 2 else vcRnd x = 0 && !vcFtz x
    | .c => vcRnd x = 0 && (ty = 0 || ty = 1 || !vcFtz x)
    | .t => if ty = 0 then vcRnd x = 0 else vcRnd x ≤ 2
    | .b | .i | .r => vcRnd x = 0 && !vcFtz x

/-- Whether the operation draws random bits (R147). -/
def vcRandom (x : Nat) : Bool := vcRnd x = 2 || vcOp x = 0x48 || vcOp x = 0x49 || vcOp x = 0x4A

/-- The greatest RS each use of R147 allows; `none` when the operation reads no scalar. -/
def vcRsMax (x : Nat) : Option Nat :=
  match vcOp x with
  | 0x40 => some 47
  | 0x41 | 0x42 => some 47
  | 0x39 | 0x3A | 0x12 => some 31
  | 0x50 | 0x51 | 0x53 => some 31
  | 0x52 => some 30
  | _ => if vcRandom x then some 29 else if vcSb x then some 47 else none

/-- A legal vector operation (R146); NOP is never checked. -/
def vcLegal (x : Nat) : Bool :=
  vcOp x = 0 ||
  (match vcRow (vcOp x) with
   | none => false
   | some (k, tys, sb) =>
     tys.contains (vcTy x) && vcN x ≤ (if vcWide x then 2048 else 4096) && vcModeOk k x
     && (!vcSb x || (sb && vcRnd x ≠ 2))
     && (vcOp x ≠ 0x0B || vcFn x / 8 = 0)
     && (match vcRsMax x with | none => true | some m => vcRs x ≤ m))

/-- Whether the operation takes VB from its register. -/
def vcUsesVb (x : Nat) : Bool :=
  (match vcOp x with
   | 0x01 | 0x02 | 0x03 | 0x04 | 0x05 | 0x06 | 0x09 | 0x0B | 0x0C | 0x0D | 0x0E | 0x0F | 0x10 | 0x11 | 0x41 | 0x42 => !vcSb x
   | 0x38 | 0x52 => true
   | _ => false)

/-- Scalar registers a vector operation reads (R147). -/
def vcScalars (x : Nat) : List Nat :=
  match vcRsMax x with
  | none => []
  | some _ =>
    if vcRandom x then [vcRs x, vcRs x + 1, vcRs x + 2]
    else if vcOp x = 0x52 then [vcRs x, vcRs x + 1]
    else [vcRs x]

/-- Registers a vector operation reads (R39, R147, R155). -/
def vcReads (x : Nat) : List Nat :=
  if vcOp x = 0 then []
  else
    (match vcOp x with | 0x12 | 0x48 | 0x49 | 0x4A => [] | _ => [100 + vcVa x])
    ++ (if vcUsesVb x then [100 + vcVb x] else [])
    ++ (match vcOp x with | 0x04 | 0x0C | 0x54 => [100 + vcVc x] | _ => [])
    ++ (match vcOp x with | 0x50 | 0x51 | 0x53 | 0x54 => [100 + vcVd x] | _ => [])
    ++ vcScalars x

/-- Vector registers a vector operation writes (R148, R155). -/
def vcWrites (x : Nat) : List Nat :=
  match vcOp x with
  | 0 | 0x41 | 0x42 => []
  | 0x54 => [100 + vcVd x, 100 + vcVc x]
  | _ => [100 + vcVd x]

/-! ### Sync slot fields (R48) -/

def syOp (x : Nat) : Nat := bitsOf x 23 20
def syEc (x : Nat) : Nat := bitsOf x 19 14
def syRs (x : Nat) : Nat := bitsOf x 13 8
def syImm (x : Nat) : Nat := bitsOf x 7 0

/-- A sync slot word from its fields. -/
def syWord (op ec rs imm8 : Nat) : Nat := op * 2 ^ 20 + ec * 2 ^ 14 + rs * 2 ^ 8 + imm8

/-- A legal sync operation (R48). -/
def syLegal (x : Nat) : Bool :=
  match syOp x with
  | 0 | 5 | 7 => true
  | 1 | 2 | 3 | 4 => syRs x < 48
  | 6 => syImm x < 8
  | _ => false

def syReads (x : Nat) : List Nat := if 1 ≤ syOp x ∧ syOp x ≤ 4 then [syRs x] else []

/-! ### A whole bundle -/

/-- The value of `f` over the operations of a bundle, slot by slot. -/
def Bundle.slots {α : Type} (b : Bundle) (fs fm fx fv fy : Nat → List α) : List α :=
  let g := fun (o : Option Nat) (f : Nat → List α) => match o with | some x => f x | none => []
  g b.sc fs ++ g b.mv fm ++ g b.mx fx ++ g b.vc fv ++ g b.sy fy

/-- No reserved bit is set, every operation is legal and no register is written twice (R40, R42, R71). -/
def Bundle.legal (b : Bundle) : Bool :=
  !b.rsv && (b.slots (fun x => [scLegal x]) (fun x => [mvLegal x]) (fun x => [mxLegal x]) (fun x => [vcLegal x]) (fun x => [syLegal x])).all id
  && decide (b.slots scWrites mvWrites (fun _ => []) vcWrites (fun _ => [])).Nodup

/-- Registers the operations of a bundle read. -/
def Bundle.reads (b : Bundle) : List Nat := b.slots scReads mvReads mxReads vcReads syReads

/-- Registers the operations of a bundle write. -/
def Bundle.writes (b : Bundle) : List Nat := b.slots scWrites mvWrites (fun _ => []) vcWrites (fun _ => [])

/-! ### Tile descriptors -/

/-- The fields of a tile descriptor (R49); rows and columns are counts. -/
structure Tile where
  cols : Nat
  rows : Nat
  base : Nat
  scaleBase : Nat
  scaled : Bool
  fmt : Nat
  stride : Nat
  tid : Nat
  deriving DecidableEq, Repr

/-- The descriptor a 32-byte value spells. -/
def Tile.ofBits (w : Nat) : Tile :=
  ⟨bitsOf w 60 48 + 1, bitsOf w 44 32 + 1, bitsOf w 20 0, bitsOf w 116 96, bitAt w 92, bitsOf w 91 88, bitsOf w 84 64, bitsOf w 139 128⟩

/-- Bits of a descriptor that R49 reserves, and the reserved FMT codes (R50). -/
def tileReserved (w : Nat) : Bool :=
  bitsOf w 63 61 ≠ 0 || bitsOf w 47 45 ≠ 0 || bitsOf w 31 21 ≠ 0 || bitsOf w 127 117 ≠ 0 || bitsOf w 95 93 ≠ 0
  || bitsOf w 87 85 ≠ 0 || bitsOf w 191 140 ≠ 0 || bitsOf w 255 192 ≠ 0 || 10 ≤ bitsOf w 91 88

/-- Element width in bits of an FMT code (R50, R125). -/
def fmtWidth (f : Nat) : Nat := if f = 8 then 64 else if f = 9 then 32 else (fmtOf f).width

/-- MX formats (R77). -/
def isMX (f : Nat) : Bool := 3 ≤ f && f ≤ 7

/-- Bytes of one row (R129). -/
def Tile.rowBytes (t : Tile) : Nat := ceilDiv (t.cols * fmtWidth t.fmt) 8

/-- The offset of row `i`: a W48 tile begins with a 64-byte header (R50). -/
def Tile.rowOff (t : Tile) (i : Nat) : Nat := t.base + (if t.fmt = 8 then 64 else 0) + i * t.stride

/-- The checks of R49 at issue. -/
def Tile.addrOk (t : Tile) : Bool :=
  t.base % 64 = 0 && t.stride % 64 = 0 && t.rowBytes ≤ t.stride && t.rowOff (t.rows - 1) + t.rowBytes ≤ 0x200000

/-- Bytes of core `n`'s scratchpad. -/
def State.spm (s : State) (n off len : Nat) : Bytes := s.getBytes (spmAddr n off) len

/-- Number spelled by `len` bytes of core `n`'s scratchpad. -/
def State.spmLE (s : State) (n off len : Nat) : Nat := leVal (s.spm n off len)

/-- Write bytes of core `n`'s scratchpad. -/
def State.spmPut (s : State) (n off : Nat) (b : Bytes) : State := s.setBytes (spmAddr n off) b

/-- The pattern of element `j` of row `i` of a tile (R129). -/
def State.tileElem (s : State) (n : Nat) (t : Tile) (i j : Nat) : Nat :=
  let w := fmtWidth t.fmt
  let bit := j * w
  bitsOf (s.spmLE n (t.rowOff i + bit / 8) (ceilDiv (bit % 8 + w) 8)) (bit % 8 + w - 1) (bit % 8)

/-- The bytes of a row of patterns; unused bits of the last byte are 0 (R129). -/
def packRow (w : Nat) (l : List Nat) : Bytes :=
  leBytes (ceilDiv (l.length * w) 8) (l.foldr (fun x acc => x % 2 ^ w + acc * 2 ^ w) 0)

/-- Scales per row of an A tile (R84). -/
def Tile.rowScales (t : Tile) : Nat := ceilDiv t.cols 32

/-- The bytes of the scale array: an A tile's by rows, a stationary tile's by blocks of 32 rows (R84). -/
def Tile.scaleLen (t : Tile) (stationary : Bool) : Nat :=
  if stationary then ceilDiv t.rows 32 * t.cols else t.rows * t.rowScales

/-- The value of an element under an E8M0 scale byte (R127): scale 0xFF is NaN, else times 2^(scale - 127). -/
def scaledVal (v : Num) (sc : Nat) : Num := if sc = 0xFF then .nan else v.scale ((sc : Int) - 127)

end Sys2Proof.Machine
end

