-- ==== Sys2Proof/Machine/Issue.lean ====
section
/-! DEFINITION. Bundle issue (R38-R49, R51, R57-R60, R67): waits, program errors (R71), the effect of every slot, tile boundaries and the end of an instance. Every slot row of the command table is one call of it. -/

namespace Sys2Proof.Machine

/-! ### The end of an instance -/

/-- Stream `k` beside its registers. -/
def State.str (s : State) (k : Nat) : StreamS := Sparse.getD (fun _ => StreamS.init) s.strs k

/-- Change stream `k`. -/
def State.modStr (s : State) (k : Nat) (f : StreamS → StreamS) : State :=
  { s with strs := Sparse.setD (fun _ => StreamS.init) s.strs k (f (s.str k)) }

/-- Change the started descriptor of stream `k` with a given SEQ. -/
def State.modOp (s : State) (k seq : Nat) (f : StrOp → StrOp) : State :=
  s.modStr k fun t => { t with started := t.started.map fun o => if o.seq = seq then f o else o }

/-- CORE_ERR: the first error is kept and a later one sets OVR (R73), which only a write clears. For a queued matrix or vector command and for a DMA the PC is the core's at the moment of the error, not that of the bundle that issued the command (DESIGN CHOICE, log entry 138). -/
def State.coreErr (s : State) (n code : Nat) : State :=
  if s.fbit (F.coreErr_VALID n) then s.fset (F.coreErr_OVR n) 1
  else
    let c := s.core n
    let str := match c.inst with | some i => i.stream | none => 0
    s.setReg (.coreErr n) (2 ^ 63 + s.fget (F.coreErr_OVR n) * 2 ^ 62 + code * 2 ^ 48 + str * 2 ^ 32 + c.pc % 8192)

/-- The instance of core `n` ends with a completion status (R38, R71, R228): its LAUNCH learns of it, commands still queued are discarded (R54, R135), descriptors already moving stay. -/
def State.endInstance (s : State) (n status detail : Nat) : State :=
  let c := s.core n
  match c.inst with
  | none => s
  | some i =>
    let s := s.tailCore n 0 0x02 (status + c.pc % 8192 * 256)
    let s := s.modOp i.stream i.seq fun o =>
      { o with left := o.left - 1, fails := if status = 0 then o.fails else o.fails ++ [(i.vcore, status, detail)] }
    s.setCore n { c with inst := none, mq := [], vq := [], vrun := [], ldBusy := false, stBusy := false, drBusy := false, drParts := [], fifo := 0,
                         dmaq := c.dmaq.map (·.filter (·.checked)), bar := 0, tb := none, ending := false, waiting := false,
                         fault := none, parked := false, umode := false }

/-- The completion status of a program error (R71). -/
def progStatus (code : Nat) : Nat :=
  match code with
  | 3 | 4 => stOutOfBounds
  | 5 => stBadLength
  | 7 | 8 => stCheckFail
  | 9 => stTargetReset
  | _ => stDenied

/-- A program error ends the instance and leaves the core in service (R71). -/
def State.progError (s : State) (n code : Nat) : State := (s.coreErr n code).endInstance n (progStatus code) code

/-- POISON_CONSUMED: a deferred fault; the instance ends with POISON (R72). -/
def State.poisonConsumed (s : State) (n : Nat) : State :=
  let i := (s.core n).inst
  let s := s.error { unit := unitCore n, code := 0x25, cls := 1, stream := (i.map (·.stream)).getD 0, seq := (i.map (·.seq)).getD 0 }
  (s.coreErr n 0x25).endInstance n stPoison 0x25

/-- A refused request of a running transfer (R54): OUT_OF_BOUNDS, DENIED or TIMEOUT end the instance with DMA_BOUNDS, POISON as POISON_CONSUMED, TARGET_RESET with DMA_TARGET_RESET. -/
def State.requestRefused (s : State) (n status : Nat) : State :=
  if status = stPoison then s.poisonConsumed n
  else if status = stTargetReset then s.progError n 9
  else s.progError n 4

/-! ### Units of a core -/

/-- The units of core `n` may start work: CORE_FENCE is 0, and the device is neither failed nor tripped (R73, R314, R435). -/
def State.unitsRun (s : State) (n : Nat) : Bool := !s.fbit (F.coreFence_FENCE n) && !s.failed && !s.tripped

def CoreS.dmaIdle (c : CoreS) : Bool := c.dmaq.all (·.isEmpty)
def CoreS.mxIdle (c : CoreS) : Bool := c.mq.isEmpty && !c.ldBusy && !c.stBusy && !c.drBusy
def CoreS.vcIdle (c : CoreS) : Bool := c.vq.isEmpty && c.vrun.isEmpty

/-- The units that FENCE mask `m` selects have finished (R48). -/
def CoreS.fenceDone (c : CoreS) (m : Nat) : Bool :=
  (!bitAt m 0 || c.dmaIdle) && (!bitAt m 1 || c.mxIdle) && (!bitAt m 2 || c.vcIdle)

/-- Registers that queued matrix and vector operations have not read yet (R39); a queued drain may also read the remainder tile of any configuration ahead of it (R122). -/
def CoreS.unread (c : CoreS) : List Nat :=
  (c.mq.map fun q => mxReads q.slot).flatten ++ (c.vq.map fun q => vcReads q.slot).flatten
  ++ (if c.mq.any fun q => mxOp q.slot = 5 || mxOp q.slot = 6 then
        (if c.mq.any fun q => mxOp q.slot = 1 then (List.range 16).map (200 + ·) else if c.mcfg.remEn then [200 + c.mcfg.remT] else [])
      else [])

/-- Registers that unfinished operations will write (R39): those of vector operations queued or running. -/
def CoreS.unwritten (c : CoreS) : List Nat :=
  (c.vq.map fun q => vcWrites q.slot).flatten ++ (c.vrun.map (·.dst)).flatten

/-! ### The scalar slot -/

/-- The value of scalar opcodes 0x01-0x0D (R43). -/
def aluOp (op : Nat) (a b : Word) : Word :=
  match op with
  | 0x1 => a + b
  | 0x2 => a - b
  | 0x3 => a &&& b
  | 0x4 => a ||| b
  | 0x5 => a ^^^ b
  | 0x6 => a <<< (b.toNat % 64)
  | 0x7 => a >>> (b.toNat % 64)
  | 0x8 => a.sshiftRight (b.toNat % 64)
  | 0x9 => a * b
  | 0xA => if a.slt b then a else b
  | 0xB => if a.slt b then b else a
  | 0xC => if a.slt b then 1 else 0
  | _ => if a.ult b then 1 else 0

/-- A core status value (R44). -/
def State.csr (s : State) (n k : Nat) : Word :=
  let i := (s.core n).inst
  BitVec.ofNat 64 (match k with
    | 0 => (i.map (·.vcore)).getD 0
    | 1 => s.vcount ((i.map (·.part)).getD 0)
    | 2 => (i.map (·.part)).getD 0
    | 3 => (i.map (·.rpc)).getD 0
    | 4 => (i.map (·.replays)).getD 0
    | 5 => s.now (dieOfCore n)
    | _ => s.fget F.pwrStat_D)

/-- The register a scalar operation writes, with its value (R43, R44). -/
def State.scResult (s : State) (n x : Nat) : Option (Nat × Word) :=
  let c := s.core n
  let op := scOp x
  if scIsReg x then some (scRd x, aluOp op (c.reg (scRs1 x)) (c.reg (scRs2 x)))
  else if scIsImm x then some (scRd x, aluOp (op - 0x10) (c.reg (scRs1 x)) (BitVec.ofInt 64 (scImm x)))
  else if op = 0x20 then some (scRd x, BitVec.ofInt 64 (scImm x))
  else if op = 0x21 then some (scRd x, BitVec.ofNat 64 (wrapI 36 (scImm x) * 2 ^ 28 + (c.reg (scRd x)).toNat % 2 ^ 28))
  else if op = 0x36 then some (31, BitVec.ofNat 64 (c.pc + 1))
  else if op = 0x3E then some (scRd x, s.csr n (bitsOf x 7 0))
  else none

/-- How a bundle moves the PC (R41, R43). -/
inductive PcMove where
  | next
  | jump (t : Int)
  | call (t : Int)
  | jr (t : Nat)
  | stay
  deriving DecidableEq, Repr

/-- The transfer a scalar operation makes. -/
def CoreS.pcMove (c : CoreS) (x : Nat) : PcMove :=
  let a := c.reg (scRs1 x)
  let t := (c.pc : Int) + scImm x
  let br := fun (b : Bool) => if b then PcMove.jump t else .next
  match scOp x with
  | 0x30 => .jump t
  | 0x31 => br (a = 0)
  | 0x32 => br (a ≠ 0)
  | 0x33 => br (a.slt 0)
  | 0x34 => br (!a.slt 0)
  | 0x35 => .jr (a.toNat % 8192)
  | 0x36 => .call t
  | 0x3F => .stay
  | _ => .next

/-- The target lies outside 0-8,191 (R43). -/
def PcMove.outside : PcMove → Bool
  | .jump t | .call t => decide (t < 0) || decide (8191 < t)
  | _ => false

/-- The new PC and microcode mode bit, or `none` for ILLEGAL_PC (R41). -/
def PcMove.apply (m : PcMove) (pc : Nat) (umode : Bool) : Option (Nat × Bool) :=
  let keep := fun (t : Nat) => if (if umode then t < 1024 else 1024 ≤ t) then some (t, umode) else none
  match m with
  | .stay => some (pc, umode)
  | .next => keep ((pc + 1) % 8192)
  | .jump t => keep t.toNat
  | .call t => if t.toNat < 64 then some (t.toNat, true) else keep t.toNat
  | .jr t => if 1024 ≤ t then some (t, false) else keep t

/-! ### The move slot -/

/-- The address of a move operation: a[AB] + IMM32 as an integer (R45). -/
def CoreS.mvAddr (c : CoreS) (x : Nat) : Int := (c.reg (32 + mvAb x)).toInt + mvImm x

/-- The address lies in the scratchpad with every byte touched, and is aligned (R45). -/
def CoreS.mvAddrOk (c : CoreS) (x : Nat) : Bool :=
  let a := c.mvAddr x
  let e := mvExtent x
  mvOp x = 0 || (decide (0 ≤ a) && decide (a.toNat + e.1 ≤ 0x200000) && decide (a.toNat % e.2 = 0))

/-- The bytes of vector register `v` from byte `off`. -/
def CoreS.vbytes (c : CoreS) (v off len : Nat) : Bytes :=
  (List.range len).map fun i => Sparse.getD (fun _ => 0) c.vr (v * 8192 + off + i)

/-- Write bytes of vector register `v`. -/
def CoreS.setVbytes (c : CoreS) (v off : Nat) (b : Bytes) : CoreS :=
  { c with vr := (List.range b.length).foldl (fun m i => Sparse.setD (fun _ => 0) m (v * 8192 + off + i) (b.getD i 0)) c.vr }

/-- The effect of a move operation whose address is good (R45, R51, R115). -/
def State.mvEffect (s : State) (n x : Nat) (c0 : CoreS) : State :=
  let a := (c0.mvAddr x).toNat
  let s := s.bankLines n (if mvOp x = 2 ∨ mvOp x = 3 then 3 else 5) a (if mvOp x = 0 ∨ mvOp x = 6 then 0 else (mvExtent x).1)
  match mvOp x with
  | 1 =>
    let d := s.spmLE n a 128
    s.modCore n fun c => { c with dmaq := c.dmaq.modify (mvQ x) (· ++ [⟨d, false, 0, [], none⟩]) }
  | 2 => let b := s.spm n a 8192; s.modCore n (·.setVbytes (mvV x) 0 b)
  | 3 => s.setRaced (spmAddr n a) (c0.vbytes (mvV x) 0 8192)
  | 4 => let w := s.spmLE n a 32; s.modCore n (·.setTile (mvT x) (BitVec.ofNat 256 w))
  | 5 => s.setRaced (spmAddr n a) (leBytes 32 (c0.tile (mvT x)).toNat)
  | 6 => s.modCore n (·.setTile (mvT x) (BitVec.ofNat 256 (setBits (c0.tile (mvT x)).toNat 20 0 a)))
  | 8 => let w := s.spmLE n a 8; s.modCore n (·.setReg (mvR x) (BitVec.ofNat 64 w))
  | 9 => s.setRaced (spmAddr n a) (leBytes 8 (c0.reg (mvR x)).toNat)
  | _ => s

/-! ### The sync slot -/

/-- X of R48. -/
def CoreS.syX (c : CoreS) (x : Nat) : BitVec 32 := BitVec.ofNat 32 ((c.reg (syRs x)).toNat + syImm x)

/-- The sync operation waits (R48); a TB waits after its bundle has issued. -/
def CoreS.syWaits (c : CoreS) (x : Nat) : Bool :=
  match syOp x with
  | 3 => (c.evc (syEc x)).ult (c.syX x)
  | 5 => c.bar ≠ 2
  | 6 => !c.fenceDone (syImm x)
  | _ => false

/-- The barrier unit counts an EVREM; a replayed one is absorbed (R69). -/
def State.sendEvrem (s : State) (n ec imm vcore : Nat) : State :=
  let c := s.core n
  if c.remRep < c.remCnt then s.setCore n { c with remRep := c.remRep + 1 }
  else
    let s := s.tailCore n 4 0x38 (vcore + ec * 512)
    let s := s.modCore n fun c => { c with remRep := c.remRep + 1, remCnt := c.remCnt + 1 }
    match c.inst with
    | some i => if vcore < s.vcount i.part then { s with evrem := s.evrem ++ [⟨i.part, vcore, ec, imm⟩] } else s
    | none => s

/-- The effect of a sync operation that does not wait (R48); `next` is the bundle after it. -/
def State.syEffect (s : State) (n x next : Nat) (c0 : CoreS) : State :=
  match syOp x with
  | 1 => s.modCore n fun c => c.setEv (syEc x) (c.evc (syEc x) + c0.syX x)
  | 2 => s.modCore n (·.setEv (syEc x) (c0.syX x))
  | 4 => s.sendEvrem n (syEc x) (syImm x) ((c0.reg (syRs x)).toNat % 512)
  | 5 => s.modCore n fun c => { c with bar := 0 }
  | 7 => s.modCore n fun c => { c with tb := some (syImm x, next) }
  | _ => s

/-- A BAR's arrival leaves for the barrier unit (R60); a replayed arrival that the unit absorbs finds its generation complete or waits for it (R69). -/
def State.sendBar (s : State) (n : Nat) : State :=
  let c := s.core n
  if c.bar ≠ 0 then s
  else if c.barRep < c.barCnt then
    s.setCore n { c with barRep := c.barRep + 1, bar := if c.barRep + 1 ≤ c.barFin then 2 else 1 }
  else (s.tailCore n 0 0x04 0).setCore n { c with bar := 1, barRep := c.barRep + 1, barCnt := c.barCnt + 1 }

/-! ### Issue -/

/-- HALTED of the debug registers (R466). -/
def State.halted (s : State) (n : Nat) : Bool := s.fbit (F.coreDbg_HALTED n)

/-- Core `n` may issue: it runs an instance that is neither ending, faulted, parked nor at a TB; it is not fenced, halted or clock-gated; the issue fraction is not 0 unless it replays (R39, R69, R73, R240, R314, R424, R435, R466). -/
def State.canIssue (s : State) (n : Nat) : Bool :=
  let c := s.core n
  match c.inst with
  | none => false
  | some i =>
    !c.ending && c.fault.isNone && !c.parked && c.tb.isNone && !s.fbit (F.coreFence_FENCE n) && (!s.halted n || c.step)
    && !s.failed && !s.tripped && !bitAt s.gated i.part && (i.replaying || s.fget F.pwrStat_G ≠ 0)

/-- The bundle waits on registers or on a full queue (R39). -/
def CoreS.regWaits (c : CoreS) (b : Bundle) : Bool :=
  let uw := c.unwritten
  b.reads.any uw.contains || b.writes.any uw.contains || b.writes.any c.unread.contains
  || (match b.mx with | some x => mxOp x ≠ 0 && decide (16 ≤ c.mq.length) | none => false)
  || (match b.vc with | some x => vcOp x ≠ 0 && decide (16 ≤ c.vq.length) | none => false)
  || (match b.mv with | some x => mvOp x = 1 && decide (16 ≤ (c.dmaq.getD (mvQ x) []).length) | none => false)

/-- The program error, if any, that the operations of a legal bundle raise when it issues, slots in the order scalar, move, matrix (R43, R45, R49, R50). -/
def State.issueError (s : State) (n : Nat) (b : Bundle) : Option Nat :=
  let c := s.core n
  let sc := match b.sc with | some x => if (c.pcMove x).outside then some 2 else none | none => none
  let mv := match b.mv with
    | some x => if !c.mvAddrOk x then some 3
                else if mvOp x = 4 ∧ tileReserved (s.spmLE n (c.mvAddr x).toNat 32) = true then some 1 else none
    | none => none
  let mx := match b.mx with
    | some x => if (mxTiles x).all fun t => (Tile.ofBits (c.tile t).toNat).addrOk then none else some 3
    | none => none
  sc <|> mv <|> mx

/-- The value of a register of R39: s, a, v, t. -/
def CoreS.regVal (c : CoreS) (r : Nat) : Nat :=
  if r < 100 then (c.reg r).toNat else if r < 200 then leVal (c.vbytes (r - 100) 0 8192) else (c.tile (r - 200)).toNat

/-- Set the value of a register of R39. -/
def CoreS.setRegVal (c : CoreS) (r v : Nat) : CoreS :=
  if r < 100 then c.setReg r (BitVec.ofNat 64 v)
  else if r < 200 then c.setVbytes (r - 100) 0 (leBytes 8192 v)
  else c.setTile (r - 200) (BitVec.ofNat 256 v)

/-- The registers as a queued operation reads them (R39, R40): as they stand, but for those that its own bundle wrote. -/
def CoreS.seenBy (c : CoreS) (q : QCmd) : CoreS := q.was.foldl (fun c e => c.setRegVal e.1 e.2) c

/-- Of the registers an operation reads, those that another slot of its bundle writes, with the values before the bundle (R40). -/
def CoreS.kept (c : CoreS) (b : Bundle) (reads own : List Nat) : List (Nat × Nat) :=
  (b.writes.filter fun r => reads.contains r && !own.contains r).map fun r => (r, c.regVal r)

/-- Queue the matrix and vector operations of a bundle (R79, R156); `c0` holds the registers before the bundle. A drain may read any tile, through the configuration in force when it starts (R122). -/
def CoreS.enqueue (c c0 : CoreS) (b : Bundle) : CoreS :=
  let c := match b.mx with
    | some x =>
      let rd := mxReads x ++ (if mxOp x = 5 || mxOp x = 6 then (List.range 16).map (200 + ·) else [])
      if mxOp x = 0 then c else { c with mq := c.mq ++ [⟨x, c0.pc, c0.kept b rd []⟩] }
    | none => c
  match b.vc with
  | some x => if vcOp x = 0 then c else { c with vq := c.vq ++ [⟨x, c0.pc, c0.kept b (vcReads x) (vcWrites x)⟩] }
  | none => c

/-- The effect of a bundle that issues without error. All slots read the registers as they stand before any slot writes (R40). A transfer that leaves the allowed region ends the instance with ILLEGAL_PC after the other slots have executed (R41); a TB in the bundle of a branch stores the target as the PC of the bundle after it, in the bundle of an END that bundle itself (DESIGN CHOICE, log entries 39 and 139). -/
def State.issueEffect (s : State) (n : Nat) (b : Bundle) : State :=
  let c0 := s.core n
  let mvt := match b.sc with | some x => c0.pcMove x | none => .next
  let next := (c0.pc + 1) % 8192
  let res := match b.sc with | some x => s.scResult n x | none => none
  let s := match b.mv with | some x => s.mvEffect n x c0 | none => s
  let s := match res with | some (r, v) => s.modCore n (·.setReg r v) | none => s
  let s := s.modCore n fun c => { c.enqueue c0 b with waiting := false }
  let s := match b.sc with | some x => if scOp x = 0x3F then s.modCore n fun c => { c with ending := true, inst := c.inst.map fun (i : KInst) => { i with replaying := false } } else s | none => s
  let s := match mvt.apply c0.pc c0.umode with
    | some (pc, um) => s.modCore n fun c => { c with pc := pc, umode := um }
    | none => s
  let tgt := match mvt.apply c0.pc c0.umode with | some (pc, _) => pc | none => next
  let s := match b.sy with | some x => s.syEffect n x tgt c0 | none => s
  let s := s.finc (F.cntCbund_N n) 1
  match mvt.apply c0.pc c0.umode with
  | some _ => s
  | none => s.progError n 2

/-- The core halts (R466): CAUSE 1 HALT, 2 STEP, 3 breakpoint `bk`; a DEBUG event leaves. -/
def State.haltCore (s : State) (n cause bk : Nat) : State :=
  let s := ((s.fset (F.coreDbg_HALTED n) 1).fset (F.coreDbg_CAUSE n) cause).fset (F.coreDbg_BKHIT n) bk
  ((s.debugTouchCore n).tailCore n 0 0x05 (cause + (s.core n).pc * 65536)).modCore n fun c => { c with step := false, waiting := false }

/-- The enabled breakpoint that matches the PC, the lowest-numbered first (R466). -/
def State.breakpoint (s : State) (n : Nat) : Option Nat :=
  [0, 1, 2, 3].find? fun i => bitAt (s.fget (F.coreDbg_BKEN n)) i && decide (bitsOf (s.reg (.coreBkpt n)) (16 * i + 12) (16 * i) = (s.core n).pc)

/-- The bundle of core `n` issues, waits or ends its instance (R39, R42): it waits for registers, queues and its sync slot before its operations are judged (R45, R49). -/
def State.issueNow (s : State) (n : Nat) (b : Bundle) : State :=
  if !b.legal then s.progError n 1
  else
    let c := s.core n
    let wait := fun (s : State) => s.modCore n fun c => { c with waiting := true }
    if c.regWaits b then wait s
    else match b.sy.filter c.syWaits with
      | some x => wait (if syOp x = 5 then s.sendBar n else s)
      | none =>
        match s.issueError n b with
        | some code => s.progError n code
        | none => s.issueEffect n b

/-- Issue a bundle on core `n` (R39, R466): nothing while the core cannot issue; a breakpoint halts it first, but not under STEP, after which it halts again. -/
def State.issue (s : State) (n : Nat) (b : Bundle) : State :=
  if !s.canIssue n then s
  else if (s.core n).step then
    let s := s.issueNow n b
    if (s.core n).waiting then s else s.haltCore n 2 0
  else
    match s.breakpoint n with
    | some k => s.haltCore n 3 k
    | none => s.issueNow n b

/-! ### Tile boundaries -/

/-- The 2,048 bytes of a checkpoint (R67). -/
def CoreS.checkpoint (c : CoreS) (imm pc n : Nat) : Bytes :=
  leBytes 8 (imm + n * 2 ^ 32) ++ leBytes 8 pc
  ++ ((List.range 48).map fun i => leBytes 8 (c.reg i).toNat).flatten
  ++ ((List.range 16).map fun i => leBytes 32 (c.tile i).toNat).flatten
  ++ ((List.range 64).map fun i => leBytes 4 (c.evc i).toNat).flatten
  ++ zeroBytes 880

/-- Restore registers, tiles and counters from a checkpoint (R69, step 4). -/
def CoreS.restore (c : CoreS) (b : Bytes) : CoreS :=
  let c := (List.range 48).foldl (fun c i => c.setReg i (BitVec.ofNat 64 (recField b (16 + 8 * i) 8))) { c with r := [], t := [], ev := [] }
  let c := (List.range 16).foldl (fun c i => c.setTile i (BitVec.ofNat 256 (recField b (400 + 32 * i) 32))) c
  (List.range 64).foldl (fun c i => c.setEv i (BitVec.ofNat 32 (recField b (912 + 4 * i) 4))) c

/-- Issue a bundle that holds one operation, as each slot row does. -/
def State.issueSc (s : State) (n x : Nat) : State := s.issue n { Bundle.empty with sc := some x }
def State.issueMv (s : State) (n x : Nat) : State := s.issue n { Bundle.empty with mv := some x }
def State.issueSy (s : State) (n x : Nat) : State := s.issue n { Bundle.empty with sy := some x }

/-- The outcome type of a meaning. -/
abbrev Out := Host.Outcome State Fault Refusal

end Sys2Proof.Machine
end

