-- ==== Sys2Proof/Machine/Flags.lean ====
section
/-! DEFINITION. The flag computations: the vector flags of R149 and R159, and the result counters of R120 and R463. -/

namespace Sys2Proof.Machine

/-- IEEE 754-2019 minimum of two values: NaN wins, and -0 is less than +0 (R149). -/
def numMin (a b : Num) : Num :=
  if a.isNan || b.isNan then .nan
  else if Num.lt a b then a else if Num.lt b a then b else if a.sign then a else b

/-- IEEE 754-2019 maximum. -/
def numMax (a b : Num) : Num :=
  if a.isNan || b.isNan then .nan
  else if Num.lt a b then b else if Num.lt b a then a else if a.sign then b else a

/-- Flag masks of VXE_FLAGS (R161). -/
def fNV : Nat := 1
def fDZ : Nat := 2
def fOF : Nat := 4
def fUF : Nat := 8
def fNX : Nat := 16
def fSAT : Nat := 32
def fFLUSH : Nat := 64

/-- The flags are sticky (R159). -/
def State.raise (s : State) (n m : Nat) : State := s.setReg (.vxeFlags n) (s.reg (.vxeFlags n) ||| m)

/-- A result with the flags it raises. -/
structure FRes where
  bits : Nat
  fl : Nat
  deriving DecidableEq, Repr

/-- FP32 narrowing with flags (R149): rounding RNE or RTZ, overflow to infinity or MAX, tininess after rounding, FTZ. `exact` is the unrounded value. -/
def fp32Res (mode : RMode) (ftz : Bool) (exact : Num) : FRes :=
  match exact with
  | .nan => ⟨fmtFP32.canonNan, 0⟩
  | .inf s => ⟨fmtFP32.infBits s, 0⟩
  | .fin s 0 _ => ⟨fmtFP32.signBit s, 0⟩
  | .fin s m e =>
    let q := fmtFP32.quantum m e
    let mag := fmtFP32.pack (roundCount mode m e q) q
    let inf := fmtFP32.infBits false
    if inf ≤ mag then
      ⟨fmtFP32.signBit s + (if mode = .rtz then fmtFP32.maxBits else inf), fOF ||| fNX⟩
    else
      let bits := fmtFP32.signBit s + mag
      let inex := fmtFP32.inexact bits exact
      -- tininess after rounding: the value rounded with an unbounded exponent lies below the smallest normal
      let q' := numExp m e - 23
      let r := roundCount mode m e q'
      let tiny := magLt r q' 1 (-126)
      if ftz && fmtFP32.isSub bits then ⟨fmtFP32.signBit s, fUF ||| fNX⟩
      else ⟨bits, (if inex then fNX else 0) ||| (if tiny && inex then fUF else 0)⟩

/-- 16-bit narrowing with flags (R130, R149): NX when inexact, OF with SAT, UF when tiny and inexact, which includes every FLUSH. -/
def cvt16Res (f : FFmt) (mode : RMode) (ftz : Bool) (exact : Num) : FRes :=
  let (bits, cat) := convert f mode ftz exact
  let inex := match exact with | .fin _ 0 _ => false | .fin _ _ _ => f.inexact bits exact | _ => false
  let tiny := match exact with
    | .fin _ 0 _ => false
    | .fin _ m e =>
      let q := numExp m e - f.fb
      magLt (roundCount mode m e q) q 1 (1 - (f.bias : Int))
    | _ => false
  ⟨bits, (if inex then fNX else 0) ||| (if cat = .sat then fOF ||| fSAT else 0)
    ||| (if cat = .flush then fFLUSH ||| fUF else if tiny && inex then fUF else 0)⟩

/-- Narrowing of a result to an operation's TYPE: 0 FP32, 1 BF16, 4 FP16. -/
def narrow (ty : Nat) (mode : RMode) (ftz : Bool) (exact : Num) : FRes :=
  match ty with
  | 0 => fp32Res mode ftz exact
  | 1 => cvt16Res fmtBF16 mode ftz exact
  | _ => cvt16Res fmtFP16 mode ftz exact

/-- Counts of one drain command (R120): elements, zero, sat, flush, nan, inf. -/
structure Counts where
  el : Nat
  ze : Nat
  sa : Nat
  fl : Nat
  na : Nat
  inf : Nat
  deriving DecidableEq, Repr

def Counts.zero : Counts := ⟨0, 0, 0, 0, 0, 0⟩

/-- Count one element (R120). -/
def Counts.add (c : Counts) (k : Cat) : Counts :=
  let c := { c with el := c.el + 1 }
  match k with
  | .none => c
  | .zero => { c with ze := c.ze + 1 }
  | .sat => { c with sa := c.sa + 1 }
  | .flush => { c with fl := c.fl + 1 }
  | .nan => { c with na := c.na + 1 }
  | .inf => { c with inf := c.inf + 1 }

/-- Add the counts into a statistics block: 64-bit counters that wrap (R120). -/
def State.statAdd (s : State) (n base : Nat) (c : Counts) : State :=
  ([c.el, c.ze, c.sa, c.fl, c.na, c.inf].zipIdx).foldl (fun s p =>
    s.spmPut n (base + 8 * p.2) (leBytes 8 ((s.spmLE n (base + 8 * p.2) 8 + p.1) % 2 ^ 64))) s

/-- Add the counts to numeric watch entry `t` of partition `p` (R463). -/
def State.watchAdd (s : State) (p t : Nat) (c : Counts) (stream seq die : Nat) : State :=
  let s := ([c.el, c.ze, c.sa, c.fl, c.na, c.inf].zipIdx).foldl (fun s q =>
    s.setReg (.cntNw p t q.2) ((s.reg (.cntNw p t q.2) + q.1) % 2 ^ 64)) s
  if c.na = 0 ∧ c.inf = 0 then s
  else
    let s := s.setReg (.cntNw p t 6) (stream + seq * 2 ^ 32)
    if s.reg (.cntNw p t 7) = 0 then s.setReg (.cntNw p t 7) (s.now die) else s

end Sys2Proof.Machine
end

