-- ==== Sys2Proof/Machine/Access.lean ====
section
/-! DEFINITION. Accesses of the device's own requesters beyond plain memory: the LLC slices' tags (R173, R174), the host-line cache (R189), back-invalidate snoops (R188), poison seen by readers (R206, R214), near-memory atomics (R184-R186). -/

namespace Sys2Proof.Machine

/-! ### The LLC (R173, R174) -/

/-- The first way of slice `m` in cache mode: during a commit, of those that stay in it (R177). -/
def State.cacheFrom (s : State) (m : Nat) : Nat :=
  match s.llcOp.find? (·.1 = m / 8) with
  | some p => max (s.spwOf (m / 8)) p.2
  | none => s.spwOf (m / 8)

/-- A slice caches: some way is in cache mode, and the slice is good and its MCH not retired (R174, R175, R212). -/
def State.caches (s : State) (m : Nat) : Bool :=
  s.cacheFrom m < 16 && s.sliceGood m && s.fget (F.memMchStat_STATE m) ≠ 3

/-- The key of way `w` of set `set` of slice `m`. -/
def llcKey (m set w : Nat) : Nat := (m * 256 + set) * 16 + w

/-- A way's line; a line with no valid sector is empty. -/
def State.llcLine (s : State) (k : Nat) : LlcLine := Sparse.getD (fun _ => ⟨0, 0, 0⟩) s.llc k

/-- The cache-mode way of slice `m` that holds line `l` (offset over 256). -/
def State.llcWay (s : State) (m l : Nat) : Option Nat :=
  if s.caches m then
    (List.range 16).find? fun w => decide (s.cacheFrom m ≤ w) &&
      (let e := s.llcLine (llcKey m (l % 256) w); decide (e.valid ≠ 0) && decide (e.tag = l))
  else none

/-- The sector of line `l` at offset `off` is present. -/
def State.llcHit (s : State) (m off : Nat) : Bool :=
  match s.llcWay m (off / 256) with
  | some w => bitAt (s.llcLine (llcKey m (off / 256 % 256) w)).valid (off / 64 % 4)
  | none => false

/-- The nodes of the replacement tree on the path to way `w`: node and side, node 1 the root. -/
def plruPath (w : Nat) : List (Nat × Nat) :=
  [(1, w / 8), (2 + w / 8, w / 4 % 2), (4 + w / 4, w / 2 % 2), (8 + w / 2, w % 2)]

/-- The tree after a use of way `w`: every node on its path points to the other side. -/
def plruUse (t w : Nat) : Nat := (plruPath w).foldl (fun t p => setBit t p.1 (p.2 = 0)) t

/-- The way a tree chooses among those at or above `lo` (R174): at each node the side it points to, unless that side has no cache-mode way. -/
def plruVictim (t lo : Nat) : Nat :=
  let step := fun (base size node : Nat) =>
    let right := bitAt t node || decide (base + size / 2 ≤ lo)
    if right then base + size / 2 else base
  let b1 := step 0 16 1
  let b2 := step b1 8 (2 + b1 / 8)
  let b3 := step b2 4 (4 + b2 / 4)
  max (step b3 2 (8 + b3 / 2)) lo

/-- The tags after an access to the sector at `off` of MCH `m` (R174): a hit, an allocation, and the replacement state; `whole` is a write of the whole sector. -/
def State.llcTouch (s : State) (m off : Nat) (write whole : Bool) : State :=
  if !s.caches m then s
  else
    let l := off / 256
    let set := l % 256
    let sec := 2 ^ (off / 64 % 4)
    let t := Sparse.getD (fun _ => 0) s.plru (m * 256 + set)
    let lo := s.cacheFrom m
    let w := match s.llcWay m l with
      | some w => w
      | none =>
        match (List.range 16).find? fun w => decide (lo ≤ w) && decide ((s.llcLine (llcKey m set w)).valid = 0) with
        | some w => w
        | none => plruVictim t lo
    let old := s.llcLine (llcKey m set w)
    let old := if old.valid ≠ 0 ∧ old.tag = l then old else ⟨l, 0, 0⟩
    let valid := if bitAt old.valid (off / 64 % 4) then old.valid else if write && whole then old.valid ||| sec else 15
    let e : LlcLine := ⟨l, valid, if write then old.dirty ||| sec else old.dirty⟩
    { s with llc := Sparse.setD (fun _ => ⟨0, 0, 0⟩) s.llc (llcKey m set w) e
             plru := Sparse.setD (fun _ => 0) s.plru (m * 256 + set) (plruUse t w) }

/-- Remove the cache-mode lines of slice `m` from way `lo` to way `hi - 1`. -/
def State.llcDrop (s : State) (m lo hi : Nat) : State :=
  { s with llc := s.llc.filter fun e => decide (e.1 / 4096 ≠ m) || decide (e.1 % 16 < lo) || decide (hi ≤ e.1 % 16) }

/-- MCH `m` retrains (R210). -/
def State.retraining (s : State) (m : Nat) : Bool := s.fget (F.memMchStat_STATE m) = 2

/-- The slice group, way and slice of an LLC-window offset (R175). -/
def llcPlace (o : Nat) : Nat × Nat × Nat := (o / 65536 % 768 / 8, o / 65536 / 768, o / 65536 % 768)

/-- A way changes mode in a running LLC commit; window accesses to it wait (R177). -/
def State.wayChanging (s : State) (o : Nat) : Bool :=
  let (g, w, _) := llcPlace o
  match s.llcOp.find? (·.1 = g) with
  | some p => decide (min (s.spwOf g) p.2 ≤ w) && decide (w < max (s.spwOf g) p.2)
  | none => false

/-- Width of an atomic's target (R185). -/
def atomBytes (op : Nat) : Nat := if op = 1 then 2 else 4

/-- Bytes a request touches. -/
def Held.len (h : Held) : Nat :=
  match h.atom, h.acc with
  | some op, _ => atomBytes op
  | none, .read n => n
  | none, .write d => d.length

/-- A request stores. -/
def Held.writes (h : Held) : Bool := h.atom.isSome || (match h.acc with | .write _ => true | .read _ => false)

/-- A request writes a whole sector. -/
def Held.whole (h : Held) : Bool := h.atom.isNone && h.writes && decide (h.addr % 64 = 0) && decide (h.len = 64)

/-- A request touches the line at `l`. -/
def Held.touches (h : Held) (l : Nat) : Bool := (lines64 h.addr h.len).contains (l / 64 * 64)

/-- The home slice of an address, if it has one (R163, R173). -/
def State.sliceOf (s : State) (a : Nat) : Option Nat :=
  match spaceOf a with
  | .stack x => some (s.physOf x).1
  | .llc o => some (llcPlace o).2.2
  | _ => none

/-- An earlier request to the line at `a` has not been served: requests to one line are served in the order they arrive (R180). -/
def State.lineHeld (s : State) (a : Nat) : Bool :=
  (match s.sliceOf a with
   | some m => (s.mch m).held.any (·.touches a) || (s.mch m).net.any (·.touches a)
   | none => false) || s.snpq.any (·.touches a)

/-- An access to one line must wait: its MCH retrains and the slice cannot serve it (R210), its way is changing mode (R177), or an earlier request to the line waits (R180). -/
def State.mchWaits (s : State) (a : Nat) (write whole narrow : Bool) : Bool :=
  s.lineHeld a || match spaceOf a with
  | .stack x =>
    let (m, off) := s.physOf x
    s.retraining m && !s.llcHit m off && !(write && whole && !narrow && s.caches m)
  | .llc o => s.wayChanging o
  | _ => false

/-- A request enters the holding queue of its slice, or waits in the network while the queue holds 64 (R173, R210). -/
def State.hold (s : State) (m : Nat) (h : Held) : State :=
  s.modMch m fun c => if c.held.length < 64 && c.net.isEmpty then { c with held := c.held ++ [h] } else { c with net := c.net ++ [h] }

/-- A request brings MCH `m`'s stack out of self-refresh (R428). -/
def State.wakeStack (s : State) (m : Nat) : State :=
  { s with pow := { s.pow with selfRef := setBit s.pow.selfRef (m / 64) false } }

/-- An access to the line at `a` takes its slice's input (R334, R338) and, where the slice cannot serve it, a burst slot of the MCH; the tags follow it, and the narrow path allocates nothing (R183). -/
def State.touch (s : State) (a : Nat) (write whole narrow : Bool) : State :=
  match spaceOf a with
  | .stack x =>
    let (m, off) := s.physOf x
    let s := (s.wakeStack m).grant 4 m 0
    let hit := s.llcHit m off
    let s := if hit || (write && whole && !narrow && s.caches m) then s else s.mchSlot m (if narrow then 1 else 0)
    if narrow && !hit then s else s.llcTouch m off write whole
  | .llc o => s.grant 4 (llcPlace o).2.2 0
  | .spm n off => s.bankLines n 6 off 1
  | _ => s

/-! ### Back-invalidate snoops (R188) -/

/-- The home slice of a stacked-memory line. -/
def State.homeOf (s : State) (a : Nat) : Nat := (s.physOf a).1

/-- The lines slice `m`'s filter holds, oldest first: line * 2, plus 1 when the host may hold it modified. -/
def State.filterOf (s : State) (m : Nat) : List Nat := Sparse.getD (fun _ => []) s.snoop m

/-- Replace a filter. -/
def State.setFilter (s : State) (m : Nat) (l : List Nat) : State :=
  { s with snoop := Sparse.setD (fun _ => []) s.snoop m l }

/-- The access to the line at `a` needs a snoop response first: before a read, of a line the host may hold modified; before a write, of any line it may hold. -/
def State.snoopNeeded (s : State) (a : Nat) (write : Bool) : Bool :=
  match spaceOf a with
  | .stack x =>
    let f := s.filterOf (s.homeOf x)
    f.contains (x / 64 * 2 + 1) || (write && f.contains (x / 64 * 2))
  | _ => false

/-- Send a snoop for the line at `a` unless one is outstanding; it takes the slice's input (R334). -/
def State.sendSnoop (s : State) (a : Nat) (inv : Bool) : State :=
  let l := a / 64 * 64
  if s.bisnp.any (·.1 = l) then s
  else
    let m := s.homeOf l
    let s := ({ s with bisnp := s.bisnp ++ [(l, inv)] }).grant 4 m 2
    s.emit (if inv then .biSnpInv l else .biSnpData l)

/-- The host may hold a line from now on (R188). -/
def State.hostHolds (s : State) (a : Nat) (modified : Bool) : State :=
  let m := s.homeOf a
  let f := (s.filterOf m).filter (· / 2 ≠ a / 64)
  s.setFilter m (f ++ [a / 64 * 2 + (if modified then 1 else 0)])

/-- The entries that full filters must evict, the oldest of each, before the host may hold the lines of a range (R188). -/
def State.filterFull (s : State) (a len : Nat) : List Nat :=
  (lines64 a len).filterMap fun l =>
    let f := s.filterOf (s.homeOf l)
    if 4096 ≤ f.length && !f.any (fun e => e / 2 = l / 64) then some (f.headD 0 / 2 * 64) else none

/-- The lines of a range that must be snooped. -/
def State.snoopLines (s : State) (a len : Nat) (write : Bool) : List Nat :=
  if s.snoop.isEmpty then [] else (lines64 a len).filter fun l => s.snoopNeeded l write

/-- Send the snoops that an access to a range needs; `none` when it needs none. -/
def State.snoopFirst (s : State) (a len : Nat) (write : Bool) : Option State :=
  let sn := s.snoopLines a len write
  if sn.isEmpty then none else some (sn.foldl (fun s l => s.sendSnoop l write) s)

/-- The lines of a range that hold an access back (R177, R180, R210). -/
def State.waitLines (s : State) (a len : Nat) (write narrow : Bool) : List Nat :=
  (lines64 a len).filter fun l => s.mchWaits l write (decide (a ≤ l) && decide (l + 64 ≤ a + len)) narrow

/-- What keeps an access to a range from being served: the state that has sent the snoops it needs first (R188), or the state as it is while a slice holds its lines (R180, R210); `none` when it may proceed. -/
def State.blocked (s : State) (a len : Nat) (write : Bool) : Option State :=
  match s.snoopFirst a len write with
  | some s => some s
  | none => if (s.waitLines a len write false).isEmpty then none else some s

/-! ### The host-line cache (R189, R220) -/

/-- The host can answer CXL.cache: the port is up and the host speaks CXL (R218). -/
def State.hostUp (s : State) : Bool := s.cxl.st = 2 && s.cxl.gen ≠ .pcie

/-- Eight fresh free words as 64 bytes: what a host line holds is the host's (log entry 16). -/
def State.drawLine (s : State) : Bytes × State :=
  (List.range 8).foldl (fun (p : Bytes × State) _ =>
    let (w, s) := p.2.draw
    (p.1 ++ leBytes 8 w.toNat, s)) ([], s)

/-- Drop a line from the host-line cache: a modified one with its data (DirtyEvict), another without (CleanEvictNoData; R220). -/
def State.hostEvict (s : State) (l : Nat) : State :=
  match Sparse.find s.hlc (l / 64) with
  | none => s
  | some h =>
    let s := if h.st = 2 then s.emit (.cacheReq .dirtyEvict l (s.getBytes l 64)) else s.emit (.cacheReq .cleanEvictNoData l [])
    { s with hlc := Sparse.erase s.hlc (l / 64), mem := s.mem.clearRange l (l + 64) }

/-- Make room in the line's set of 16; the victim is free (log entry 17). -/
def State.hostRoom (s : State) (l : Nat) : State :=
  let mates := s.hlc.filter fun e => e.1 % 4096 = l / 64 % 4096
  if mates.length < 16 then s
  else
    let (w, s) := s.draw
    s.hostEvict ((mates.getD (w.toNat % 16) (0, ⟨0⟩)).1 * 64)

/-- Bring the host line at `l` into the cache for a read (RdShared), or own it for a write (RdOwnNoData for a line held shared, ItoMWr for a whole line, else RdOwn). Which of the requests of R220 serves which access is the model's (DESIGN CHOICE, log entry 151). -/
def State.hostLine (s : State) (l : Nat) (write whole : Bool) : State :=
  match Sparse.find s.hlc (l / 64) with
  | some h =>
    if write && h.st ≠ 2 then { s with hlc := Sparse.insert s.hlc (l / 64) ⟨2⟩ }.emit (.cacheReq .rdOwnNoData l []) else s
  | none =>
    let s := s.hostRoom l
    let s := s.emit (.cacheReq (if write && whole then .itoMWr else if write then .rdOwn else .rdShared) l [])
    let s := { s with hlc := Sparse.insert s.hlc (l / 64) ⟨if write then 2 else 1⟩ }
    if write && whole then s
    else let (b, s) := s.drawLine; s.setBytes l b

/-- A requester that cannot be put aside waits for the snoop of the line at `l` within its step: the host's answer, clean or a dirty line, is free (R188; log entry 164). -/
def State.snoopNow (s : State) (l : Nat) (write : Bool) : State :=
  let out := s.bisnp
  let s := { s.sendSnoop l write with bisnp := out }
  let m := s.homeOf l
  let f := s.filterOf m
  let (w, s) := s.draw
  let (b, s) := if f.contains (l / 64 * 2 + 1) && decide (w.toNat % 2 = 1) then s.drawLine else (s.getBytes l 64, s)
  let s := s.setFilter m (if write then f.filter (· / 2 ≠ l / 64) else f.map fun e => if e / 2 = l / 64 then l / 64 * 2 else e)
  s.setBytes l b

/-- An address lies in the host window. -/
def isHost (a : Nat) : Bool := match spaceOf a with | .host _ => true | _ => false

/-- The status a host-window access meets before its data: OUT_OF_BOUNDS on a PCIe-only link (R218), TIMEOUT while the port is not up (R220). -/
def State.hostStatus (s : State) (a : Nat) : Nat :=
  if !isHost a then stOK else if s.hostUp then stOK else if s.cxl.st = 2 then stOutOfBounds else stTimeout

/-! ### Loads and stores of a requester -/

/-- A requester has read the poisoned burst of `a` (R206, R214): counted, recorded. -/
def State.poisonSeen (s : State) (who : Asker) (a : Nat) : State :=
  match spaceOf a with
  | .stack x =>
    let m := s.homeOf x
    let s := s.fsat (F.memMchEcc_POISON m) 1
    s.error { unit := unitMch m, code := 0x43, cls := 1, addr := x / 64 * 64, stream := who.stream, seq := who.seq }
  | _ => s

/-- A running command fills some byte of a range (R56). -/
def State.inFlux (s : State) (a len : Nat) : Bool := s.flux.any fun f => decide (f.lo < a + len) && decide (a < f.hi)

/-- The byte of `a` while a command fills it: the old one or the new one, free. -/
def State.mixByte (s : State) (a : Nat) (b : Byte) : Byte × State :=
  match s.flux.find? fun f => decide (f.lo ≤ a) && decide (a < f.hi) with
  | none => (b, s)
  | some f =>
    let (w, s) := s.draw
    (if w.toNat % 2 = 0 then b else f.data.getD (a - f.lo) 0, s)

/-- Bytes read from a range, mixed where a command fills it. -/
def State.mixBytes (s : State) (a : Nat) : Bytes → Bytes × State
  | [] => ([], s)
  | b :: bs =>
    let r := s.mixByte a b
    let q := r.2.mixBytes (a + 1) bs
    (r.1 :: q.1, q.2)

/-- A read of `len` bytes served at home: status, bytes, and the state with the tags, the host-line cache and the records it leaves. -/
def State.loadHome (s : State) (who : Asker) (a len : Nat) (narrow : Bool) : Nat × Bytes × State :=
  let st := s.hostStatus a
  if st ≠ stOK then (st, [], s)
  else
    let s := if isHost a then (lines64 a len).foldl (fun s l => s.hostLine l false false) s else s
    let r := s.read a len
    let s := if r.1 = stPoison then ((lines64 a len).filter s.poisonedAt).foldl (fun s l => s.poisonSeen who l) s else s
    let s := if r.1 = stOutOfBounds then s else (lines64 a len).foldl (fun s l => s.touch l false false narrow) s
    if s.inFlux a len then
      let q := s.mixBytes a r.2
      (r.1, q.1, q.2)
    else (r.1, r.2, s)

/-- A write served at home: status and state. -/
def State.storeHome (s : State) (a : Nat) (data : Bytes) (narrow : Bool) : Nat × State :=
  let st := s.hostStatus a
  if st ≠ stOK then (st, s)
  else
    let whole := fun (l : Nat) => (lineSlice a data l).2.length = 64
    let s := if isHost a then (lines64 a data.length).foldl (fun s l => s.hostLine l true (whole l)) s else s
    let s := (lines64 a data.length).foldl (fun s l => if s.backed (max l a) then s.touch l true (whole l) narrow else s) s
    s.write a data

/-- A load of a requester of the device: snoops of lines the host may hold come first (R188). -/
def State.load (s : State) (who : Asker) (a len : Nat) (narrow : Bool := false) : Nat × Bytes × State :=
  ((s.snoopLines a len false).foldl (fun s l => s.snoopNow l false) s).loadHome who a len narrow

/-- A store of a requester of the device. -/
def State.store (s : State) (a : Nat) (data : Bytes) (narrow : Bool := false) : Nat × State :=
  ((s.snoopLines a data.length true).foldl (fun s l => s.snoopNow l true) s).storeHome a data narrow

/-! ### Near-memory atomics (R185, R186) -/

/-- The new value of an atomic operation on a target's pattern. -/
def atomNew (op old x : Nat) : Nat :=
  let f := fun (n : Nat) => fmtFP32.dec n
  match op with
  | 0 => fmtFP32.rne (Num.add (f old) (f x))
  | 1 => (convert fmtBF16 .rne false (Num.add (fmtBF16.dec old) (fmtBF16.dec x))).1
  | 2 => fmtFP32.rne (numMin (f old) (f x))
  | 3 => fmtFP32.rne (numMax (f old) (f x))
  | 4 => min old x
  | 5 => max old x
  | _ => if old = x % 2 ^ 32 then bitsOf x 63 32 else old

/-- Apply an atomic to the target at `a`: status, old pattern, state (R186). The update is made in a cached line, else straight in memory. -/
def State.atomApply (s : State) (who : Asker) (op a x : Nat) : Nat × Nat × State :=
  let w := atomBytes op
  let r := s.read a w
  if r.1 = stPoison then (stPoison, 0, s.poisonSeen who a)
  else if r.1 ≠ stOK then (r.1, 0, s)
  else
    let old := leVal r.2
    (stOK, old, (s.store a (leBytes w (atomNew op old x)) true).2)

end Sys2Proof.Machine
end

