-- ==== Sys2Proof/Machine/Desc.lean ====
section
/-! DEFINITION. A core's DMA queues: the fields of a descriptor (R52, R184), the heads of the queues, the two address generators (R341), refused requests (R54). -/

namespace Sys2Proof.Machine

/-! ### The descriptor (R52) -/

/-- Bits `hi` to `lo` of the 64-bit word at byte `o` of a descriptor. -/
def dF (d o hi lo : Nat) : Nat := bitsOf d (8 * o + hi) (8 * o + lo)

def dOp (d : Nat) : Nat := dF d 0 7 0
def dNdim (d : Nat) : Nat := dF d 0 10 8
def dEsz (d : Nat) : Nat := dF d 0 13 11
def dNarrow (d : Nat) : Bool := dF d 0 14 14 = 1
def dEvEn (d : Nat) : Bool := dF d 0 15 15 = 1
def dEv (d : Nat) : Nat := dF d 0 21 16
def dTag (d : Nat) : Nat := dF d 0 63 32
def dSrc (d : Nat) : Nat := dF d 8 47 0
def dDst (d : Nat) : Nat := dF d 16 47 0
/-- Count of dimension `k`; 1 at or above NDIM. -/
def dCnt (d k : Nat) : Nat := if dNdim d ≤ k then 1 else dF d (24 + 4 * k) 31 0
/-- Signed byte stride of dimension `k` (dimension 0 steps by the element size). -/
def dStride (d base k : Nat) : Int := if k = 0 then (2 ^ dEsz d : Nat) else sextN 48 (dF d (base + 8 * (k - 1)) 47 0)
def dSrcStride (d k : Nat) : Int := dStride d 48 k
def dDstStride (d k : Nat) : Int := dStride d 80 k
def dIndex (d : Nat) : Nat := dF d 112 20 0
def dPattern (d : Nat) : Nat := dF d 120 63 0
/-- Bytes of an element. -/
def dBytes (d : Nat) : Nat := 2 ^ dEsz d
/-- Elements in all. -/
def dTotal (d : Nat) : Nat := dCnt d 0 * dCnt d 1 * dCnt d 2 * dCnt d 3 * dCnt d 4

/-- A destination in the atomic alias window (R184). -/
def isAlias (a : Nat) : Bool := a / 2 ^ 44 = 1
def aliasOp (a : Nat) : Nat := bitsOf a 42 40
def aliasFetch (a : Nat) : Bool := bitAt a 43
def aliasTarget (a : Nat) : Nat := a % 2 ^ 40
/-- ESIZE of an atomic OP (R185). -/
def atomEsz (op : Nat) : Nat := if op = 1 then 1 else if op = 6 then 3 else 2

/-! ### The heads of the queues -/

/-- The head of queue `q`. -/
def CoreS.dmaHead (c : CoreS) (q : Nat) : Option DmaJob := (c.dmaq.getD q []).head?

/-- Change the head of queue `q`. -/
def State.modHead (s : State) (n q : Nat) (f : DmaJob → DmaJob) : State :=
  s.modCore n fun c => { c with dmaq := c.dmaq.modify q fun l => match l with | j :: r => f j :: r | [] => [] }

/-- Drop the head of queue `q`. -/
def State.popHead (s : State) (n q : Nat) : State :=
  s.modCore n fun c => { c with dmaq := c.dmaq.modify q List.tail }

/-! ### Generators (R341) -/

/-- Heads that have passed their checks, have bytes to move and are not served. -/
def CoreS.waitingHeads (c : CoreS) : List Nat :=
  (List.range 8).filter fun q =>
    match c.dmaHead q with
    | some j => j.checked && decide (j.done < dTotal j.desc) && !c.gens.any (·.queue = some q)
    | none => false

/-- A generator that serves nothing takes a waiting head by the arbiter's decision. -/
def State.takeHead (s : State) (n g : Nat) : State :=
  let c := s.core n
  match s.arbitrate (dieOfCore n) 1 n c.waitingHeads none with
  | (some q, s) => s.modCore n fun c => { c with gens := c.gens.set g ⟨some q, 0⟩ }
  | (none, s) => s

/-- Free generators take waiting heads. -/
def State.fillGens (s : State) (n : Nat) : State :=
  [0, 1].foldl (fun s g => if ((s.core n).gens.getD g ⟨none, 0⟩).queue = none then s.takeHead n g else s) s

/-- Queue `q`'s head goes, and the generator that served it is free (R341). -/
def State.dropHead (s : State) (n q : Nat) : State :=
  (s.popHead n q).modCore n fun c => { c with gens := c.gens.map fun g => if g.queue = some q then ⟨none, 0⟩ else g }

/-- A request of queue `q`'s head is refused: the descriptor issues nothing more and the instance ends (R54); the free generator takes a waiting head (R341). -/
def State.headRefused (s : State) (n q status : Nat) : State := ((s.dropHead n q).requestRefused n status).fillGens n

/-- A target answers a request of queue `q`'s moving head with an error status (R54). -/
def State.dmaRefused (s : State) (n q status : Nat) : State :=
  let c := s.core n
  match c.dmaHead q with
  | none => s
  | some j =>
    if j.checked && decide (j.done < dTotal j.desc) && [stOutOfBounds, stDenied, stTimeout, stPoison, stTargetReset].contains status then
      let s := s.tailCore n 3 0x31 (dTag j.desc + q * 2 ^ 32 + status * 2 ^ 40)
      s.headRefused n q status
    else s

/-- Requests that wait for MCH `m` complete with POISON as it retires (R212). -/
def State.waitersPoisoned (s : State) (m : Nat) : State :=
  s.cores.foldl (fun s (e : Nat × CoreS) => (List.range 8).foldl (fun s q =>
    match (s.core e.1).dmaHead q with
    | some j => if j.waitM = some m then s.dmaRefused e.1 q stPoison else s
    | none => s) s) s

end Sys2Proof.Machine
end

