-- ==== Sys2Proof/Machine/Tail.lean ====
section
/-! DEFINITION. Tail, the trace (R444-R457): packets, buffers, triggers, the crash reserve, the token buckets. -/

namespace Sys2Proof.Machine

/-! ### Packets (R445) -/

/-- The 16 bytes of a packet. -/
def packet (kind src event die : Nat) (part : Option Nat) (ts payload : Nat) : Bytes :=
  leBytes 2 (kind * 4096 + src) ++ leBytes 1 event ++ leBytes 1 (die * 16 + (match part with | some p => 8 + p | none => 0))
  ++ leBytes 4 ts ++ leBytes 8 payload

/-- The bytes of a packet in a FIFO. -/
def pktBytes (p : TailPkt) : Bytes :=
  packet p.kind.toNat p.src.toNat p.event.toNat p.die.toNat (p.part.map (·.val)) p.ts.toNat p.payload.toNat

/-- The die of a source (R444). -/
def dieOfSrc (src : Nat) : Nat :=
  if src < 1920 then dieOfCore (src / 5)
  else if src < 2016 then 4 + (src - 1920) / 24
  else if src < 2112 then 4 + (src - 2016) / 24
  else if src < 2176 then dieOfUnit (unitLink (src - 2112))
  else if src < 2188 then [0, 1, 2, 3, 0, 2, 0, 1, 0, 1, 2, 3].getD (src - 2176) 0
  else if src = 2253 then 9
  else if 2254 ≤ src ∧ src < 2286 then (src - 2254) / 8
  else if src = 2298 ∨ src = 2299 then 9
  else 8

/-! ### Token buckets (R453) -/

/-- Bytes times 3 that a die's bucket gains each timestamp count: 176 GB/s and 8 GB/s at 1.2 GHz. -/
def tokenRate (die : Nat) : Nat := if die < 4 then 440 else 20

/-- The bucket of a die now. -/
def State.bucket (s : State) (die : Nat) : Nat :=
  let b := Sparse.getD (fun _ => (196608, 0)) s.tokens die
  min 196608 (b.1 + (s.now die - b.2) * tokenRate die)

/-- Take bytes from a die's bucket; `false` when it does not hold them. -/
def State.takeTokens (s : State) (die bytes : Nat) : Bool × State :=
  let b := s.bucket die
  if b < 3 * bytes then (false, s)
  else (true, { s with tokens := Sparse.setD (fun _ => (196608, 0)) s.tokens die (b - 3 * bytes, s.now die) })

/-! ### Buffers (R448, R449) -/

/-- Bytes of buffer `b`. -/
def State.bufZ (s : State) (b : Nat) : Nat := 2 ^ s.fget (F.trcBcfg_LOG2SZ b)
/-- The first main-area byte: the crash reserve is 16 MiB. -/
def mainLo : Nat := 0x1000000
/-- One past the last main-area byte: the summary is the last 64 KiB. -/
def State.mainHi (s : State) (b : Nat) : Nat := s.bufZ b - 65536

/-- The main area records. -/
def State.mainOn (s : State) (b : Nat) : Bool := s.fget (F.trcBstat_STATE b) = 1 || s.fget (F.trcBstat_STATE b) = 2

/-- The summary (R449): a LOSS packet for each source with drops, ascending, then one SYNC packet for each die; the main area stops. -/
def State.tailSummary (s : State) (b : Nat) : State :=
  let t := s.tbuf b
  let loss := t.drops.map fun e => packet 1 e.1 0 (dieOfSrc e.1) none (s.now (dieOfSrc e.1) % 2 ^ 32) (e.2.1 + e.2.2 * 2 ^ 32)
  let (w, s) := s.draw
  let sync := (List.range 10).map fun d => packet 3 (w.toNat % 4096) 0 d none (s.now d % 2 ^ 32) (s.now d)
  let s := (s.write (s.fget (F.trcBbase_BASE b) + s.mainHi b) (loss ++ sync).flatten).2
  (s.modTbuf b fun t => { t with drops := [], post := none }).fset (F.trcBstat_STATE b) 3

/-- Write one packet into the main area (R449); FILL stops when full. -/
def State.mainPut (s : State) (b : Nat) (p : Bytes) : State :=
  if !s.mainOn b || (s.tbuf b).post = some 0 then s
  else
    let pos := s.fget (F.trcBstat_WRPOS b)
    let s := (s.write (s.fget (F.trcBbase_BASE b) + pos) p).2
    let s := s.modTbuf b fun t => { t with post := t.post.map (· - 16) }
    if pos + 16 < s.mainHi b then s.fset (F.trcBstat_WRPOS b) (pos + 16)
    else if s.fget (F.trcBcfg_MODE b) = 1 then (s.fset (F.trcBstat_WRPOS b) (pos + 16)).tailSummary b
    else (s.fset (F.trcBstat_WRPOS b) mainLo).fset (F.trcBstat_WRAPPED b) 1

/-- Write one packet into the crash reserve unless it is frozen (R451). -/
def State.reservePut (s : State) (b : Nat) (p : Bytes) : State :=
  if s.fbit (F.trcBstat_FROZEN b) then s
  else
    let r := (s.tbuf b).rsv
    let s := (s.write (s.fget (F.trcBbase_BASE b) + r) p).2
    (s.modTbuf b fun t => { t with rsv := (r + 16) % mainLo }).fset (F.trcBtrig_CRASHPOS b) r

/-- Write a packet into both areas. -/
def State.bufPut (s : State) (b : Nat) (p : Bytes) : State := (s.reservePut b p).mainPut b p

/-- A die's SYNC packet for buffer `b` (R456); its SRC field is free (log entry 20). -/
def State.syncPut (s : State) (b d : Nat) : State :=
  let (w, s) := s.draw
  let s := (s.takeTokens d 32).2
  s.bufPut b (packet 3 (w.toNat % 4096) 0 d none (s.now d % 2 ^ 32) (s.now d))

/-- Buffer `b` admits some source of die `d`. -/
def State.bufDie (s : State) (b d : Nat) : Bool :=
  (List.range 2308).any fun src => decide (dieOfSrc src = d) && s.tailAdmits b src

/-- The SYNC packets of every admitted die. -/
def State.syncAll (s : State) (b : Nat) : State :=
  (List.range 10).foldl (fun s d => if s.bufDie b d then s.syncPut b d else s) s

/-- A trigger of cause `k` (R450): the first one taken writes a TRIGGER packet, and POST_MIB MiB follow. -/
def State.trigger (s : State) (b k src die : Nat) : State :=
  if s.fget (F.trcBcfg_MODE b) = 2 ∧ s.fget (F.trcBstat_STATE b) = 1 then
    let s := s.fset (F.trcBtrig_TRIGPOS b) (s.fget (F.trcBstat_WRPOS b))
    let s := s.mainPut b (packet 4 src 0 die none (s.now die % 2 ^ 32) k)
    let s := s.fset (F.trcBstat_STATE b) 2
    s.modTbuf b fun t => { t with post := some (s.fget (F.trcBcfg_POST_MIB b) * 2 ^ 20) }
  else s

/-- A comparator fires on an EVENT packet (R450). -/
def comparatorFires (c : Nat) (p : TailPkt) : Bool :=
  bitAt c 63 && p.kind = 0 && decide (bitsOf c 43 36 = p.event.toNat) && (bitAt c 62 || decide (bitsOf c 55 44 = p.src.toNat))
  && (p.event ≠ 0x70 || decide (bitsOf c 61 59 ≤ bitsOf p.payload.toNat 26 24))

/-- Buffer `b` writes an admitted packet, a LOSS packet before it where the source has drops; the two find room in the bucket together or are dropped together (R452, R453). -/
def State.takePkt (s : State) (b : Nat) (p : TailPkt) : State :=
  let src := p.src.toNat
  let die := p.die.toNat
  let d := Sparse.getD (fun _ => (0, 0)) (s.tbuf b).drops src
  let n := if d.1 = 0 then 1 else 2
  match s.takeTokens die (32 * n) with
  | (false, s) => s.tailDrop b src p.ts.toNat
  | (true, s) =>
    let s := if d.1 = 0 then s else
      (s.bufPut b (packet 1 src 0 die (p.part.map (·.val)) p.ts.toNat (d.1 + d.2 * 2 ^ 32))).modTbuf b fun t => { t with drops := t.drops.erase src }
    let s := s.bufPut b (pktBytes p)
    let s := if p.kind = 0 ∧ p.event = 0x70 ∧ s.fget (F.trcBcfg_CRASH_CLASS b) ≤ bitsOf p.payload.toNat 26 24 ∧ s.fbit (F.trcBstat_FROZEN b) = false
      then s.modTbuf b fun t => { t with freezing := true } else s
    match [0, 1, 2, 3].find? fun i => comparatorFires (s.reg (.trcTrig b i)) p with
    | some i => s.trigger b i src die
    | none => s

/-- The next packet of its source for buffer `b` reaches the buffer (R447, R449). -/
def State.tailAdmit (s : State) (b : Nat) (p : TailPkt) : State :=
  let src := p.src.toNat
  let q := Sparse.getD (fun _ => []) s.tailq src
  match q.find? fun e => bitAt e.bufs b with
  | none => s
  | some e =>
    if e.pkt ≠ p then s
    else
      let q' := (q.map fun x => if x = e then { x with bufs := setBit x.bufs b false } else x).filter (·.bufs ≠ 0)
      let s := { s with tailq := Sparse.setD (fun _ => []) s.tailq src q' }
      if s.fbit (F.trcBcfg_EN b) then s.takePkt b p else s

/-- The POST window has been written: the summary follows and the buffer stops (R449). -/
def State.postEnd (s : State) (b : Nat) : State :=
  if s.fget (F.trcBstat_STATE b) = 2 ∧ (s.tbuf b).post = some 0 then s.tailSummary b else s

/-- 2 µs have passed since a qualifying fault: the reserve freezes (R451). -/
def State.crashFreeze (s : State) (b : Nat) : State :=
  if (s.tbuf b).freezing then (s.modTbuf b fun t => { t with freezing := false }).fset (F.trcBstat_FROZEN b) 1 else s

/-- Bit 30 of die `d`'s timestamp has changed (R456). -/
def State.syncPacket (s : State) (d : Nat) : State :=
  (List.range 9).foldl (fun s b => if s.fbit (F.trcBcfg_EN b) && s.bufDie b d then s.syncPut b d else s) s

/-- A fatal-to-device fault freezes every enabled buffer's reserve and stops every main area (R451). -/
def State.tailFatal (s : State) : State :=
  (List.range 9).foldl (fun s b =>
    if s.fbit (F.trcBcfg_EN b) then
      let s := s.modTbuf b fun t => { t with freezing := true }
      if s.mainOn b then s.tailSummary b else s
    else s) s

/-- Arm a buffer (R454): drop counts cleared, both areas from their first byte, STATE RECORDING. -/
def State.tailArm (s : State) (b : Nat) : State :=
  let s := { s with tbufs := s.tbufs.erase b }
  let s := (s.setReg (.trcBstat b) (2 ^ 61 + mainLo)).fset (F.trcBtrig_TRIGPOS b) 0
  s.syncAll b

/-! ### The rows that are no register writes -/

def execTailPacketAdmit (b : Fin 9) (pkt : TailPkt) (s : State) : Out := .next (s.tailAdmit b pkt)
def execPostWindowEnd (b : Fin 9) (s : State) : Out := .next (s.postEnd b)
def execCrashFreeze (b : Fin 9) (s : State) : Out := .next (s.crashFreeze b)
def execSyncPacket (d : Fin 10) (s : State) : Out := .next (s.syncPacket d)

end Sys2Proof.Machine
end

