-- ==== Sys2Proof/Machine/Fatal.lean ====
section
/-! DEFINITION. What a fault does to the device: the alert (R435, R440), the field defect record (R409), a fatal-to-device fault (R314), fencing a core (R69, R411). -/

namespace Sys2Proof.Machine

/-! ### The alert -/

/-- The lowest set bit of a byte. -/
def lowestBit (n : Nat) : Nat := ((List.range 8).find? (bitAt n)).getD 0

/-- Set bit `b` of SAF_ALERT; when ALERT_N asserts, an in-band interrupt leaves (R435, R440). -/
def State.alert (s : State) (b : Nat) : State :=
  let old := s.reg .safAlert
  let s := s.setReg .safAlert (setBit old b true)
  if old = 0 then s.emit (.ibi (lowestBit (s.reg .safAlert))) else s

/-! ### Flash (R375, R376) -/

/-- An erased byte of flash. -/
def flashErased : Nat → Byte := fun _ => 0xFF

/-- Bytes of flash. -/
def State.flashGet (s : State) (a len : Nat) : Bytes := (List.range len).map fun i => Sparse.getD flashErased s.flash (a + i)

/-- The number that bytes of flash spell. -/
def State.flashLE (s : State) (a len : Nat) : Nat := leVal (s.flashGet a len)

/-- Put bytes into flash. -/
def State.flashPut (s : State) (a : Nat) (b : Bytes) : State :=
  { s with flash := (List.range b.length).foldl (fun m i => Sparse.setD flashErased m (a + i) (b.getD i 0)) s.flash }

/-- Erase flash from `lo` to `hi - 1`. -/
def State.flashErase (s : State) (lo hi : Nat) : State := { s with flash := s.flash.clearRange lo hi }

/-! ### The field defect record (R409) -/

/-- Entry `i` of the record as BOOT_FDR holds it. -/
def State.fdrEntry (s : State) (i : Nat) : Bytes :=
  ((List.range 8).map fun w => leBytes 8 (s.reg (.bootFdr (8 * i + w)))).flatten

/-- Slots used. -/
def State.fdrUsed (s : State) : Nat := s.fget F.bootStatus_FDR_USED

/-- An entry's CRC is good (R409). -/
def fdrGood (e : Bytes) : Bool := crc64xz (e.take 56) = recField e 56 8

/-- A good entry names the unit with the kind. -/
def State.fdrHas (s : State) (unit kind : Nat) : Bool :=
  (List.range s.fdrUsed).any fun i => let e := s.fdrEntry i; fdrGood e && recField e 4 2 = unit && recField e 6 1 = kind

/-- Append an entry (R409): KIND 1 FENCED, 2 RETIRED, 3 DEGRADED; a repeat is not appended, and a full record gives FDR_FULL. -/
def State.fdrAppend (s : State) (unit kind code detail : Nat) : State :=
  if s.fdrHas unit kind then s
  else
    let n := s.fdrUsed
    if 256 ≤ n then s.error { unit := unitMgmt, code := 0xF2, cls := 1 }
    else
      let e := mkRec 64 [(0, 4, n), (4, 2, unit), (6, 1, kind), (7, 1, code), (8, 8, s.now 8),
        (16, 4, s.fget F.mgtFwstat_FW_VERSION), (24, 8, detail)]
      let e := recPut e 56 (leBytes 8 (crc64xz (e.take 56)))
      let s := s.flashPut (0x30000 + 64 * n) e
      let s := (List.range 8).foldl (fun s w => s.setReg (.bootFdr (8 * n + w)) (recField e (8 * w) 8)) s
      s.fset F.bootStatus_FDR_USED (n + 1)

/-! ### Units in use (R405, R408) -/

/-- A fuse code: 3 reads as 2. -/
def fuseCode (m : Sparse Nat) (i : Nat) : Nat := min (Sparse.getD (fun _ => 0) m i % 4) 2

/-- The fuse code of a unit by UNIT_ID; a unit without one is good. -/
def State.fuseOf (s : State) (u : Nat) : Nat :=
  match u / 4096 with
  | 1 => fuseCode s.fuses.core (u % 4096)
  | 2 => fuseCode s.fuses.bar (u % 4096)
  | 3 => fuseCode s.fuses.mch (u % 4096)
  | 4 => fuseCode s.fuses.link (u % 4096)
  | 5 => fuseCode s.fuses.slice (u % 4096)
  | _ => 0

/-- The field defect record carries a FENCED or RETIRED entry of the unit. -/
def State.defect (s : State) (u : Nat) : Bool := s.fdrHas u 1 || s.fdrHas u 2

/-- A unit may be used (R408): its fuse code is 0, the record does not name it, and its last known-answer run passed. -/
def State.usable (s : State) (u : Nat) : Bool := s.fuseOf u = 0 && !s.defect u && !s.boot.failed.contains u

/-! ### Fatal to the device (R314) -/

/-- Halo removes the Eclipse rail: every switch in through moves towards bypass (R271). -/
def State.eclRelease (s : State) : State :=
  { (List.range 30).foldl (fun s p => if s.fget (F.lnkEcl_STATE p) = 1 then s else s.fset (F.lnkEcl_STATE p) 2) s with eclRail := false }

/-- The device stops and enters FAILED: viral, ALERT_N, trace frozen (R451), the Eclipse rail removed; lasers go off because the device is FAILED (R438). -/
def State.failDevice (s : State) : State :=
  if s.failed then s
  else
    let s := (s.emit .viral).tailFatal
    { (s.alert 3).eclRelease with failed := true }

/-- A fatal-to-device fault: its record goes to every enabled ring and the Halo store, then R314. -/
def State.fatalDevice (s : State) (unit code addr : Nat) (stream : Nat := 0) : State :=
  (s.error { unit := unit, code := code, cls := 4, addr := addr, stream := stream }).failDevice

/-! ### Cores taken out of service -/

/-- Clear a bit of the floor plan after a fault in service (R411). -/
def State.fpRemove (s : State) (off u : Nat) : State := (s.fpSet off u false).fpStamp true

/-- Recount GOOD_CORES (R410). -/
def State.fpCount (s : State) : State := s.fpPut 4 2 (((List.range 384).filter s.coreGood).length)

/-- A core is fenced in service: CORE_FENCE, the floor plan and the field defect record (R69, R72, R411). -/
def State.fenceCore (s : State) (n code : Nat) : State :=
  let s := (s.fset (F.coreFence_FENCE n) 1).modCore n fun c => { c with fenced := true }
  let s := (s.fpSet 8 n false).fpCount.fpStamp true
  s.fdrAppend (unitCore n) 1 code 0

end Sys2Proof.Machine
end

