-- ==== Sys2Proof/Machine/Image.lean ====
section
/-! DEFINITION. The firmware image (R380) in its slot of the firmware area (R390), and the microcode of a core (R388, R389, R392). -/

namespace Sys2Proof.Machine

/-! ### The image header (R380) -/

/-- A component of an image: its OFFSET, LENGTH and DIGEST. -/
structure Comp where
  off : Nat
  len : Nat
  dig : Nat
  deriving DecidableEq, Repr

/-- COMP[i] of a header: its TYPE, and the component. -/
def hdrCompAt (h : Bytes) (i : Nat) : Nat × Comp :=
  let b := 64 + 96 * i
  (recField h b 1, ⟨recField h (b + 8) 8, recField h (b + 16) 8, recField h (b + 24) 64⟩)

/-- The component of a type: 1 HALO, 2 MBOOT, 3 MGT, 4 UCODE, 5 DEFCFG. -/
def hdrComp (h : Bytes) (ty : Nat) : Option Comp := (((List.range 8).map (hdrCompAt h)).find? (·.1 = ty)).map (·.2)

def hdrVersion (h : Bytes) : Nat := recField h 12 4
def hdrSvn (h : Bytes) : Nat := recField h 16 1
def hdrHaloAbi (h : Bytes) : Nat := recField h 18 1
def hdrUcodeAbi (h : Bytes) : Nat := recField h 19 1
def hdrLen (h : Bytes) : Nat := recField h 24 8

/-- The size limit of a component (R380); UCODE is exact. -/
def compFits (ty : Nat) (c : Comp) : Bool :=
  match ty with
  | 1 => decide (c.len ≤ 0x80000)
  | 2 => decide (c.len ≤ 0x200000)
  | 3 => decide (c.len ≤ 0x2000000)
  | 4 => decide (c.len = 32768)
  | 5 => decide (c.len ≤ 0x20000) && decide (c.len % 16 = 0)
  | _ => false

/-- The header's layout (R380): magic, lengths, and each component type once, inside the image and apart. -/
def hdrLayoutOk (h : Bytes) : Bool :=
  let cs := ((List.range 8).map (hdrCompAt h)).filter (·.1 ≠ 0)
  decide (h.take 8 = [0x5A, 0x58, 0x52, 0x46, 0x57, 0x30, 0x30, 0x31]) && decide (recField h 8 4 = 4096)
  && decide (recField h 17 1 = 5) && decide (hdrSvn h ≤ 64) && decide (4096 ≤ hdrLen h) && decide (hdrLen h ≤ 50335744)
  && decide (cs.length = 5) && [1, 2, 3, 4, 5].all (fun ty => decide ((cs.filter (·.1 = ty)).length = 1))
  && cs.all (fun c => compFits c.1 c.2 && decide (4096 ≤ c.2.off) && decide (c.2.off + c.2.len ≤ hdrLen h))
  && cs.all (fun c => cs.all fun e => decide (c.1 = e.1) || decide (c.2.off + c.2.len ≤ e.2.off) || decide (e.2.off + e.2.len ≤ c.2.off))

/-- The SHAKE256 digest of bytes, as a number. -/
def shake (b : Bytes) : Nat := (Config.shake256 b).toNat

/-- The header's signature verifies under the firmware key in the boot ROM (R380). -/
def hdrSigOk (h : Bytes) : Bool := Config.ed448Verify Config.romKey (leBytes 64 (shake (h.take 3968))) ((h.drop 3968).take 114)

/-- Digest of the HALO, MBOOT and MGT, and UCODE components for the measurements of R364 (R380). -/
def measHalo (h : Bytes) : Nat := ((hdrComp h 1).map (·.dig)).getD 0
def measUcode (h : Bytes) : Nat := ((hdrComp h 4).map (·.dig)).getD 0
def measMgt (h : Bytes) : Nat :=
  let d := fun (ty : Nat) => ((hdrComp h ty).map (·.dig)).getD 0
  shake (leBytes 64 (d 2) ++ leBytes 64 (d 3))

/-! ### The firmware area (R390) -/

/-- First byte of image slot `k`: the two slots stand first in the area, in order (log entry 28). -/
def State.slotBase (s : State) (k : Nat) : Nat := s.fget F.mgtFwarea_BASE * 2 ^ 30 + k * 2 ^ 26

/-- The slot that does not run. -/
def State.stagedSlot (s : State) : Nat := 1 - s.fw.slot

/-- Bytes of a component in a slot. -/
def State.slotComp (s : State) (k : Nat) (c : Comp) : Bytes := s.getBytes (s.slotBase k + c.off) c.len

/-! ### Microcode in a core (R388) -/

/-- The bundle in bytes `32 i` to `32 i + 31`. -/
def bundleAt (b : Bytes) (i : Nat) : BitVec 256 := BitVec.ofNat 256 (recField b (32 * i) 32)

/-- Put a microcode image into bundles 0 to 1,023 of core `n`; its bitmap is full. -/
def State.putUcode (s : State) (n : Nat) (b : Bytes) : State :=
  s.modCore n fun c =>
    { c with imem := (List.range 1024).foldl (fun m i => Sparse.setD (fun _ => 0) m i (bundleAt b i)) (c.imem.clearRange 0 1024)
             ucMap := 2 ^ 65 - 1, ucOk := true }

/-- UCODE of the image in force, as the firmware area holds it; `none` where it cannot be read. -/
def State.ucodeImage (s : State) : Option (Bytes × Nat) :=
  match hdrComp s.fw.hdr 4 with
  | none => none
  | some c => if (s.read (s.slotBase s.fw.slot + c.off) c.len).1 = stOK then some (s.slotComp s.fw.slot c, c.dig) else none

/-- A core takes the microcode of the image in force where its digest is good; it waits for it no longer (R392). -/
def State.takeUcode (s : State) (n : Nat) : State :=
  match s.ucodeImage with
  | some (b, dig) =>
    if shake b = dig then { s with fw := { s.fw with swaps := s.fw.swaps.filter (· ≠ n) } }.putUcode n b else s
  | none => s

/-- UCODE_PENDING reads 1 until every good core has swapped; then M_UCODE changes (R392). -/
def State.swapsSeen (s : State) : State :=
  if s.fbit F.mgtFwstat_UCODE_PENDING && s.fw.swaps.all (fun n => !s.coreGood n) then
    { s.fset F.mgtFwstat_UCODE_PENDING 0 with fw := { s.fw with ucHdr := s.fw.hdr, swaps := [] } }
  else s

end Sys2Proof.Machine
end

