-- ==== Sys2Proof/Machine/Measure.lean ====
section
/-! DEFINITION. The measurement M_PART of a sealed partition (R361). -/

namespace Sys2Proof.Machine

/-- The PART fields that name partition `p`: links, channels and streams, each by kind and number. -/
def State.partFields (s : State) (p : Nat) : List Nat :=
  ((List.range 64).filter fun l => decide (s.fget (F.lnkCfg_PART l) = p)).map (0x10000 + ·)
  ++ ((List.range 64).filter fun c => decide (s.fget (F.colChcfg_PART c) = p)).map (0x20000 + ·)
  ++ ((List.range 65536).filter fun k => decide (s.fget (F.strCtl_PART k) = p)).map (0x30000 + ·)

/-- The UMB_ registers of `p`, by offset. -/
def State.umbWords (s : State) (p : Nat) : List (Nat × Word) := s.regs.range (Reg.umbSet p).off ((Reg.umbSet p).off + 0x100)

/-- The partition record that M_PART digests; the order of its parts is R361's, their byte form the model's (log entry 29). -/
def State.partRecord (s : State) (p : Nat) : Bytes :=
  let w := fun (n : Nat) => leBytes 8 n
  w (s.reg (.prtCfg p) % 2 ^ 32) ++ w (s.reg (.coreVcfg p))
  ++ ((List.range 384).map fun v => w (s.reg (.coreVmap p v))).flatten
  ++ ((s.regions p).map fun r => w r.idx ++ w (s.reg (.prtRgnA p r.idx)) ++ w r.limit).flatten
  ++ ((s.partFields p).map w).flatten
  ++ w (s.reg .secSealpol)
  ++ ((s.umbWords p).map fun e => w e.1 ++ w e.2.toNat).flatten

/-- M_PART is computed again after a change the device itself makes to a sealed partition (R361). -/
def State.remeasure (s : State) (p : Nat) : State :=
  if s.partState p = 2 then
    let m := (Config.shake256 (s.partRecord p)).toNat
    s.modSec p fun c => { c with mPart := m }
  else s

end Sys2Proof.Machine
end

