-- ==== Sys2Proof/Machine/Replay.lean ====
section
/-! DEFINITION. Loading and starting instances (R38, R228) and replaying them (R69, R70, R72). -/

namespace Sys2Proof.Machine

/-! ### Loading a core -/

/-- Write zeros over the vector registers, the scratchpad and the accumulator store of core `n` (R38, R417). -/
def State.zeroCore (s : State) (n : Nat) : State :=
  let s := { s with mem := s.mem.clearRange (spmAddr n 0) (spmAddr (n + 1) 0) }
  s.modCore n fun c => { c with vr := [], acc := [], accH := [], accN := [], accF := [] }

/-- Write zeros over the program region of core `n`; it holds no image (R228, R363). -/
def State.zeroProgram (s : State) (n : Nat) : State :=
  s.modCore n fun c => { c with imem := c.imem.clearRange 1024 8192, progDig := 0 }

/-- Copy an image into bundles 1,024 onwards of core `n`, with its digest (R228, R363). -/
def State.putProgram (s : State) (n : Nat) (b : Bytes) (dig : Nat) : State :=
  s.modCore n fun c =>
    { c with imem := (List.range (b.length / 32)).foldl (fun m i => Sparse.setD (fun _ => 0) m (1024 + i) (bundleAt b i)) c.imem
             progDig := dig }

/-- Core `n` passes to partition `p` at its CREATE: zeros are written when it held another one's contents (R38; log entry 33). -/
def State.enterPart (s : State) (n p : Nat) : State :=
  let s := if (s.core n).lastPart = some p then s else s.zeroCore n
  s.modCore n fun c => { c with lastPart := some p }

/-- The units and registers of a core as an instance finds them at its start (R38, R41, R82): every register, tile and counter 0, queues and buffers empty. -/
def CoreS.fresh (c : CoreS) : CoreS :=
  { c with umode := false, r := [], t := [], ev := [], act := .empty, inact := .empty, mq := [], mcfg := .init, cfgSeen := false,
           ldBusy := false, stBusy := false, drBusy := false, drParts := [], fifo := 0, vq := [], vrun := [],
           bar := 0, barCnt := 0, barRep := 0, barFin := 0, remCnt := 0, remRep := 0, tb := none, ending := false,
           waiting := false, fault := none, parked := false, step := false }

/-- Start instance `i` on core `n` at its entry bundle with s1 and s4 (R38); its per-command counters restart under its tag (R461), its vector flags clear (R159), MXE_CTL holds its reset value (R82), and a LAUNCH event leaves. -/
def State.startInstance (s : State) (n : Nat) (i : KInst) : State :=
  let s := s.modCore n fun c =>
    ((({ c.fresh with inst := some i, pc := i.entry } : CoreS).setReg 1 (BitVec.ofNat 64 i.args)).setReg 4 (BitVec.ofNat 64 i.ckpt))
  let s := ((((s.clearReg (.cntCbund n)).clearReg (.cntCstall n)).clearReg (.cntCrows n)).clearReg (.vxeFlags n)).clearReg (.mxeCtl n)
  let s := (s.fset (F.cntCtag_SEQ n) i.seq).fset (F.cntCtag_STREAM n) i.stream
  s.tailCore n 0 0x01 (i.stream + i.seq * 2 ^ 16 + i.vcore * 2 ^ 48)

/-! ### Replay (R69, R70) -/

/-- The free reserve cores of partition `p`: good, in service, mapped by nothing, running nothing (R61, R62). -/
def State.reserves (s : State) (p : Nat) : List Nat :=
  let mapped := (List.range (s.vcount p)).filterMap (s.vmap p)
  (List.range 384).filter fun n =>
    bitAt (s.fget (F.prtCfg_CLUSTERS p)) (clusterOfCore n) && s.coreGood n && !s.fbit (F.coreFence_FENCE n)
    && !mapped.contains n && (s.core n).inst.isNone && !s.resetting.contains n

/-- The reserve core chosen: the lowest-numbered free one on the die, else on any die. -/
def State.pickReserve (s : State) (p n : Nat) : Option Nat :=
  let l := s.reserves p
  match l.find? fun r => dieOfCore r = dieOfCore n with
  | some r => some r
  | none => l.head?

/-- Everything the faulted core was doing stops (R69, step 1). -/
def State.stopCore (s : State) (n : Nat) : State :=
  s.modCore n fun c => { c.fresh with inst := none, dmaq := [[], [], [], [], [], [], [], []], gens := [⟨none, 0⟩, ⟨none, 0⟩] }

/-- The replay meets poison (R69): the instance ends on the reserve core, which stays mapped and in service. -/
def State.replayPoison (s : State) (r : Nat) (i : KInst) : State :=
  let s := s.modCore r fun c => { c.fresh with inst := some i }
  s.poisonConsumed r

/-- Steps 2 to 4 on reserve core `r` (R69). Counts of arrivals and signals move with the instance; with no checkpoint yet it begins anew (log entry 18). A copy or read that fails with another status than POISON is treated as poison (DESIGN CHOICE, log entry 142). -/
def State.replayOn (s : State) (r : Nat) (i : KInst) (old : CoreS) (halted : Bool) : State :=
  let p := i.part
  let s := (s.fset (F.coreVmap_PCORE p i.vcore) r).remeasure p
  let s := if s.fw.swaps.contains r then s.takeUcode r else s
  let who : Asker := ⟨i.stream, i.seq⟩
  let img := s.load who i.prog (32 * i.bundles)
  let s := img.2.2
  if img.1 ≠ stOK then s.replayPoison r i
  else
    let s := s.putProgram r img.2.1 old.progDig
    let i' := { i with replays := i.replays + 1, faultsTB := i.faultsTB + 1, replaying := true }
    let ck := match i.valid with | some a => s.load who a 2048 | none => (stOK, [], s)
    let s := ck.2.2
    if ck.1 ≠ stOK then s.replayPoison r i
    else
      let s := match i.valid with
        | none => s.startInstance r { i' with rpc := 0 }
        | some _ =>
          let s := s.startInstance r { i' with rpc := recField ck.2.1 8 8 % 8192 }
          s.modCore r fun c => { (c.restore ck.2.1) with pc := i.restore }
      let s := s.modCore r fun c => { c with barCnt := old.barCnt, barRep := 0, barFin := old.barFin, remCnt := old.remCnt, remRep := 0 }
      let s := s.tailCore r 0 0x06 (r + (i.replays + 1) % 256 * 65536)
      if halted then s.haltCore r 1 0 else s

/-- Codes of class fatal-to-core that R72 replays. -/
def isFatalCore (code : Nat) : Bool := [0x20, 0x22, 0x23, 0x24, 0x27].contains code

/-- SECDED corrected scratchpad word `w` of core `n`: SPM_ECC counts it and names its offset (R191). -/
def State.spmCorrected (s : State) (n w : Nat) : State := (s.fsat (F.spmEcc_CORRECTED n) 1).fset (F.spmEcc_LAST n) (8 * w)

/-- A core fault (R72). 0x21 is corrected and only recorded: it writes no CORE_ERR (DESIGN CHOICE, log entry 143); 0x25 ends the instance with POISON; 0x28 fences without a replay; the rest fence and replay, or end the instance (R70); under a reset it is only recorded (R418). -/
def State.coreFault (s : State) (n code0 : Nat) : State :=
  let old := s.core n
  let code := old.fault.getD code0
  let st := (old.inst.map (·.stream)).getD 0
  let sq := (old.inst.map (·.seq)).getD 0
  if code = 0x21 then s.error { unit := unitCore n, code := code, cls := 0, stream := st, seq := sq }
  else if code = 0x25 then s.poisonConsumed n
  else if !isFatalCore code && code ≠ 0x28 then s
  else
    let s := s.error { unit := unitCore n, code := code, cls := 2, stream := st, seq := sq }
    if s.resetting.contains n then s else
    let s := s.coreErr n code
    let halted := s.halted n
    let s := s.fenceCore n code
    match old.inst with
    | none => s.stopCore n
    | some i =>
      let pick := if i.noReplay || code = 0x28 || 2 ≤ i.faultsTB then none else s.pickReserve i.part n
      match pick with
      | none => (s.endInstance n stCheckFail code).stopCore n
      | some r => (s.stopCore n).replayOn r i old halted

/-! ### The rows of the command table -/

/-- A core fault with its code; `word` is the scratchpad word that code 0x21 corrects. -/
def execReplay (core : Fin 384) (code : BitVec 8) (word : Fin 262144) (s : State) : Out :=
  let own := (s.core core).fault
  .next ((if code = 0x21 && own.isNone then s.spmCorrected core word else s).coreFault core code.toNat)

end Sys2Proof.Machine
end

