-- ==== Sys2Proof/Machine/RegBase.lean ====
section
/-! DEFINITION. A write to a register as its effect sees it (R14-R16, R493), and the areas no region may cover (R167). -/

namespace Sys2Proof.Machine

/-- A register write that has passed the checks of view, capability and width: who writes, the register, the data written, and the register's word with the fields the requester may write replaced and the W1C bits written with 1 cleared (R15). -/
structure Wr where
  req : Req
  reg : Reg
  raw : Nat
  new : Nat
  deriving DecidableEq, Repr

/-- What a register write does: its completion status and the state after it. -/
abbrev Hook := State → Wr → Nat × State

/-- The value of a field in the merged word. -/
def Wr.fld (w : Wr) (f : Fld) : Nat := bitsOf w.new f.hi f.lo

/-- A bit of the data written. -/
def Wr.set (w : Wr) (f : Fld) : Bool := bitsOf w.raw f.hi f.lo % 2 = 1

/-- The write takes effect. -/
def State.wOk (s : State) (w : Wr) : Nat × State := (stOK, s.setReg w.reg w.new)

/-- The write is discarded with DENIED. -/
def State.wDeny (s : State) : Nat × State := (stDenied, s)

/-- The write takes effect when `ok` holds, else it is discarded with DENIED (R14). R14 keeps the previous value of the field that holds a reserved value and does not say whether the write's other fields take effect: the model discards the whole write (DESIGN CHOICE, log entry 137). -/
def State.wIf (s : State) (w : Wr) (ok : Bool) : Nat × State := if ok then s.wOk w else s.wDeny

/-- The write stays outstanding (R169): no completion is sent yet. -/
def stPending : Nat := 0x100

/-- A command register (R493): while `busy`, DENIED with the code for GO while busy where the table gives one; else the RW fields take their values and, when GO is written, GO reads 1 and the command starts. -/
def State.wGo (s : State) (w : Wr) (go : Fld) (busy : Bool) (res : Option (Fld × Nat)) (start : State → State) : Nat × State :=
  if busy then
    (stDenied, match res with | some (f, c) => if w.set go then s.fset f c else s | none => s)
  else
    let s := s.setReg w.reg w.new
    if w.set go then (stOK, start (s.fset go 1)) else (stOK, s)

/-- The requester is the operator or acts for it; a partition's function is not. -/
def partOfReq : Req → Option Nat
  | .vf p => some p
  | _ => none

/-! ### Areas in force -/

/-- Areas that no region may cover, each with its first and last byte, while it is in force (R167). -/
def State.areas (s : State) : List (Nat × Nat) :=
  let gib : Bool → Nat → List (Nat × Nat) := fun on b => if on then [(b * 2 ^ 30, b * 2 ^ 30 + 2 ^ 30 - 1)] else []
  let slot := max 64 (roundUp (32 + 8 * s.fget (F.cntScfg_NCNT 0)) 64)
  gib (s.fbit F.strCtx_LOCK) (s.fget F.strCtx_BASE)
  ++ gib (s.fbit F.colPriv_LOCK) (s.fget F.colPriv_BASE)
  ++ gib (s.fbit F.mgtFwarea_LOCK) (s.fget F.mgtFwarea_BASE)
  ++ (if s.fbit F.colPool_LOCK then
        let b := 0x10000000000 + s.fget F.colPool_BASE * 65536
        [(b, b + s.fget F.colPool_CHUNKS * 65536 - 1)] else [])
  ++ (if s.fbit (F.mgtErrbase_EN 0) then
        let b := s.fget (F.mgtErrbase_BASE 0)
        [(b, b + 32 * 2 ^ s.fget (F.mgtErrbase_LOG2N 0) - 1)] else [])
  ++ (if s.fbit (F.trcBcfg_EN 0) then
        let b := s.fget (F.trcBbase_BASE 0)
        [(b, b + 2 ^ s.fget (F.trcBcfg_LOG2SZ 0) - 1)] else [])
  ++ (if s.fbit (F.cntScfg_EN 0) then
        let b := s.fget (F.cntSbase_BASE 0)
        [(b, b + slot * 2 ^ s.fget (F.cntScfg_LOG2N 0) - 1)] else [])

/-- Two ranges meet. -/
def meets (a b : Nat × Nat) : Bool := decide (a.1 ≤ b.2) && decide (b.1 ≤ a.2)

/-- A range of stacked memory that lies in a STACK region of no partition: backed and covered by no valid region (R317, R448, R458). -/
def State.freeStack (s : State) (b len : Nat) : Bool :=
  decide (b + len ≤ s.mapN * 2 ^ 30) && decide (0 < len) && !s.anyRegionIn b (b + len - 1)

/-- A range that lies in one STACK region of partition `p` with WR. -/
def State.ownStack (s : State) (p b len : Nat) : Bool := s.inRegion p b len fun r => r.ty = 0 && r.wr

end Sys2Proof.Machine
end

