-- ==== Sys2Proof/Machine/CoreRegs.lean ====
section
/-! DEFINITION. The registers of cores (R73-R75, R99, R104, R466, R467): the debug registers, fences, the virtual-core map, and the words computed from the core's state. -/

namespace Sys2Proof.Machine

/-! ### Debug (R466, R467) -/

/-- CORE_DREG[i]: the scalar and address registers, the words of the tiles, the counters in pairs, the PC. -/
def CoreS.dreg (c : CoreS) (i : Nat) : Nat :=
  if i < 48 then (c.reg i).toNat
  else if i < 112 then bitsOf (c.tile ((i - 48) / 4)).toNat (64 * ((i - 48) % 4) + 63) (64 * ((i - 48) % 4))
  else if i < 144 then (c.evc (2 * (i - 112))).toNat + (c.evc (2 * (i - 112) + 1)).toNat * 2 ^ 32
  else c.pc

/-- Write CORE_DREG[i]. -/
def CoreS.setDreg (c : CoreS) (i v : Nat) : CoreS :=
  if i < 48 then c.setReg i (BitVec.ofNat 64 v)
  else if i < 112 then
    let t := (i - 48) / 4
    let k := (i - 48) % 4
    c.setTile t (BitVec.ofNat 256 (setBits (c.tile t).toNat (64 * k + 63) (64 * k) v))
  else if i < 144 then
    (c.setEv (2 * (i - 112)) (BitVec.ofNat 32 v)).setEv (2 * (i - 112) + 1) (BitVec.ofNat 32 (v / 2 ^ 32))
  else { c with pc := v % 8192 }

/-- A write of CORE_DREG: only while the core is halted (R466). -/
def State.dregWrite (s : State) (n i : Nat) (w : Wr) : Nat × State :=
  if s.halted n then (stOK, (s.debugTouchCore n).modCore n (·.setDreg i w.raw)) else s.wDeny

/-- A write of CORE_DBG (R466): HALT stops the sequencer before its next bundle, HALT = 0 resumes it, STEP issues one bundle of a halted core. -/
def State.dbgWrite (s : State) (n : Nat) (w : Wr) : Nat × State :=
  let halt := w.set (F.coreDbg_HALT n)
  let was := s.halted n
  if w.set (F.coreDbg_STEP n) && !was then s.wDeny
  else
    let s := (s.fset (F.coreDbg_HALT n) (if halt then 1 else 0)).fset (F.coreDbg_BKEN n) (w.fld (F.coreDbg_BKEN n))
    if w.set (F.coreDbg_STEP n) then (stOK, (s.debugTouchCore n).modCore n fun c => { c with step := true })
    else if halt && !was then (stOK, s.haltCore n 1 0)
    else if !halt && was then
      (stOK, ((s.fset (F.coreDbg_HALTED n) 0).fset (F.coreDbg_CAUSE n) 0).modCore n fun c => { c with step := false })
    else (stOK, s)

/-- A write of CORE_BKPT. -/
def State.bkptWrite (s : State) (n : Nat) (w : Wr) : Nat × State := (stOK, (s.debugTouchCore n).setReg w.reg w.new)

/-! ### Fences and maps -/

/-- A write of CORE_FENCE (R73): a core that the floor plan marks unused stays fenced. -/
def State.fenceWrite (s : State) (n : Nat) (w : Wr) : Nat × State := s.wIf w (w.fld (F.coreFence_FENCE n) = 1 || s.coreGood n)

/-- An instance of partition `p` runs. -/
def State.partRuns (s : State) (p : Nat) : Bool :=
  s.cores.any fun e => match e.2.inst with | some i => decide (i.part = p) | none => false

/-- A write of CORE_VCFG (R74). -/
def State.vcfgWrite (s : State) (p : Nat) (w : Wr) : Nat × State :=
  s.wIf w (!s.partRuns p && decide (w.fld (F.coreVcfg_RSV p) ≤ 16) && decide (w.fld (F.coreVcfg_VCOUNT p) ≤ 384))

/-- A write of CORE_VMAP[v] (R75): a valid entry names a good core of the partition's clusters that no other entry names. A write with VALID 0 is not checked, whatever core its PCORE names, and software may rewrite the map of a created partition, which R63 calls otherwise fixed (DESIGN CHOICE, log entry 141). -/
def State.vmapWrite (s : State) (p v : Nat) (w : Wr) : Nat × State :=
  let c := w.fld (F.coreVmap_PCORE p v)
  let taken := (List.range 8).any fun q => (List.range 384).any fun u =>
    decide ((q, u) ≠ (p, v)) && s.fbit (F.coreVmap_VALID q u) && decide (s.fget (F.coreVmap_PCORE q u) = c)
  if w.fld (F.coreVmap_VALID p v) = 0 then s.wOk w
  else s.wIf w (decide (c < 384) && bitAt (s.fget (F.prtCfg_CLUSTERS p)) (clusterOfCore c) && s.coreGood c && !taken)

/-! ### Words computed from the state of the core -/

/-- STATE of CORE_STATUS (R73, R69). -/
def State.coreState (s : State) (n : Nat) : Nat :=
  let c := s.core n
  if s.fbit (F.coreFence_FENCE n) then (if s.fpGet 0 2 = 0 || s.coreGood n || c.fenced then 4 else 5)
  else match c.inst with
    | some i => if s.halted n then 7 else if i.replaying then 3 else if c.waiting || c.tb.isSome || c.ending || c.parked then 2 else 1
    | none =>
      if s.halted n then 7
      else match s.partOfCore n with
        | some p => if (s.vcoreOf p n).isSome then 0 else 6
        | none => 0

/-- CORE_STATUS (R73). -/
def State.coreStatus (s : State) (n : Nat) : Nat :=
  let p := s.partOfCore n
  let v := p.bind fun p => s.vcoreOf p n
  (v.getD 0xFFFF) * 2 ^ 32 + (p.getD 0) * 2 ^ 24 + s.coreState n * 2 ^ 20 + (s.core n).pc

/-- MXE_STAT (R104). -/
def State.mxeStat (s : State) (n : Nat) : Nat :=
  let c := s.core n
  c.mq.length * 2 ^ 48 + c.fifo * 2 ^ 40 + c.act.fmt * 2 ^ 36 + (if c.act.st = 2 then 2 ^ 35 else 0) + c.inact.fmt * 2 ^ 28 + c.inact.st * 2 ^ 26

/-- VXE_STAT (R161): the operation issuing groups is the one started last (R156). -/
def State.vxeStat (s : State) (n : Nat) : Nat :=
  let c := s.core n
  c.vq.length * 2 ^ 48 + (match c.vrun.getLast? with | some r => r.opc * 256 | none => 0) + (if c.vcIdle then 0 else 1)

end Sys2Proof.Machine
end

