-- ==== Sys2Proof/Machine/Mch.lean ====
section
/-! DEFINITION. The stacked memory system (R193-R215): burst reads and writes, refresh, temperature, scrubbing, erased pins, retraining, retirement, the rebuilt map. -/

namespace Sys2Proof.Machine

/-! ### The last second of an MCH -/

/-- The counts of the last second: what happened a second ago or earlier no longer counts (R207, R212). -/
def State.mchSecond (s : State) (m : Nat) : State :=
  let t := s.now (dieOfUnit (unitMch m))
  s.modMch m fun c => { c with hits := c.hits.filter fun (h : PinHit) => decide (t < h.t + oneSecond), ues := c.ues.filter fun (u : Nat) => decide (t < u + oneSecond) }

/-- Corrections on pin `p` in the last second, newest last. -/
def State.pinHits (s : State) (m p : Nat) : List PinHit := (s.mch m).hits.filter (·.pin = p)

/-- Add to entry `i` of a list of counters, filling with zeros. -/
def countAt (l : List Nat) (i n : Nat) : List Nat := (List.range (max l.length (i + 1))).map fun k => l.getD k 0 + (if k = i then n else 0)

/-- The pin with the most corrected symbols, the lowest on a tie (R215). -/
def topPin (l : List Nat) : Nat × Nat :=
  (List.range l.length).foldl (fun (b : Nat × Nat) i => if b.2 < l.getD i 0 then (i, l.getD i 0) else b) (0, 0)

/-- A corrected burst (R199, R214, R215): counted, with its symbols counted on their pins; at most one record each second. -/
def State.mchCorrected (s : State) (who : Asker) (m addr : Nat) (pat : List (Nat × Nat)) : State :=
  let s := (s.mchSecond m).fsat (F.memMchEcc_CE m) 1
  let t := s.now (dieOfUnit (unitMch m))
  let s := s.modMch m fun c =>
    { c with pinCnt := pat.foldl (fun l p => countAt l (p.1 / 2) 1) c.pinCnt
             hits := c.hits ++ pat.map fun p => ⟨t, p.1 / 2, addr, who⟩ }
  let p := topPin (s.mch m).pinCnt
  let s := (s.fset (F.memMchPin_PIN m) p.1).fset (F.memMchPin_COUNT m) (min p.2 (2 ^ 32 - 1))
  s.error { unit := unitMch m, code := 0x40, cls := 0, addr := addr, stream := who.stream, seq := who.seq, every := oneSecond }

/-- An uncorrectable burst: counted (R215), and in the last second (R212). -/
def State.mchUncorrectable (s : State) (m : Nat) : State :=
  let s := (s.mchSecond m).fsat (F.memMchEcc_UE m) 1
  let t := s.now (dieOfUnit (unitMch m))
  s.modMch m fun c => { c with ues := c.ues ++ [t] }

/-- The key of byte 0 of a physical burst in memory. -/
def burstKey (m b : Nat) : Nat := m * 2 ^ 30 + b * 64

/-- The 64 bytes of a physical burst. -/
def State.burstBytes (s : State) (m b : Nat) : Bytes :=
  (List.range 64).map fun i => Sparse.getD memDflt s.mem (burstKey m b + i)

/-- Put a burst: its bytes and its poison. A poisoned burst holds data symbols 0x00 (R200). -/
def State.putBurst (s : State) (m b : Nat) (d : Bytes) (poison : Bool) : State :=
  { s with mem := (List.range 64).foldl (fun mm i => Sparse.setD memDflt mm (burstKey m b + i) (if poison then 0 else d.getD i 0)) s.mem
           poison := Sparse.setD (fun _ => false) s.poison (m * 2 ^ 24 + b) poison }

/-- The logical pin whose two symbols the decoder takes as erased (R199, R201): the erased pin, or, where that is the spare, the pin whose symbols the spare carries. -/
def State.erasedPin (s : State) (m : Nat) : Option Nat :=
  let p := s.fget (F.memMchStat_ERASED_PIN m)
  if p = 0x3F then none else if p = 36 then some (s.fget (F.memMchStat_SPARE_PIN m)) else some p

/-- What the decoder makes of a burst whose word shows some symbol errors (R199, R200). -/
inductive BurstRead where
  | good
  | corrected (pat : List (Nat × Nat)) (data : Bytes)
  | uncorrectable
  | poisoned
  deriving DecidableEq, Repr

/-- Errors as a word of 72 symbols. -/
def errWord (errs : SymErrs) : List Nat :=
  errs.foldl (fun w e => w.set e.1 (w.getD e.1 0 ^^^ e.2.toNat)) (List.replicate 72 0)

/-- The 72 symbols of a burst as written (R197, R200): its data and their check symbols, or the poison word. -/
def State.burstWord (s : State) (m b : Nat) : List Nat :=
  if Sparse.getD (fun _ => false) s.poison (m * 2 ^ 24 + b) then poisonWord
  else let d := (s.burstBytes m b).map (·.toNat); d ++ rsCheck d

/-- Read and decode (R199, R200): the poison word is seen before any correction, a poisoned burst with errors is uncorrectable. -/
def State.decodeBurst (s : State) (m b : Nat) (errs : SymErrs) : BurstRead :=
  let w := errWord errs
  if List.zipWith (· ^^^ ·) (s.burstWord m b) w = poisonWord then .poisoned
  else if Sparse.getD (fun _ => false) s.poison (m * 2 ^ 24 + b) then .uncorrectable
  else if w.all (· = 0) then .good
  else match rsDecode w (s.erasedPin m) with
    | none => .uncorrectable
    | some pat =>
      let out := pat.foldl (fun w p => w.set p.1 (w.getD p.1 0 ^^^ p.2)) w
      .corrected pat (List.zipWith (fun (x : Byte) y => x ^^^ BitVec.ofNat 8 y) (s.burstBytes m b) out)

/-- A requester's read of a burst (R199, R205, R206): the answer goes to the requester. -/
def State.mchRead (s : State) (who : Asker) (m b : Nat) (errs : SymErrs) : State :=
  let addr := s.addrOf m (b * 64)
  match s.decodeBurst m b errs with
  | .good => s.answer stOK (s.burstBytes m b)
  | .corrected pat d => (s.mchCorrected who m addr pat).answer stOK d
  | .uncorrectable =>
    let s := (s.mchUncorrectable m).putBurst m b [] true
    (s.error { unit := unitMch m, code := 0x42, cls := 1, addr := addr, stream := who.stream, seq := who.seq }).answer stPoison []
  | .poisoned =>
    let s := s.fsat (F.memMchEcc_POISON m) 1
    (s.error { unit := unitMch m, code := 0x43, cls := 1, addr := addr, stream := who.stream, seq := who.seq }).answer stPoison []

/-- MCH `m` serves bursts: trained and not retired or retraining. -/
def State.mchServes (s : State) (m : Nat) : Bool := s.fget (F.memMchStat_STATE m) ≤ 1

/-- MCH_BURST_READ. A retired MCH answers OUT_OF_BOUNDS (R212). -/
def State.mchBurstRead (s : State) (who : Asker) (m b : Nat) (errs : SymErrs) : State :=
  if s.fget (F.memMchStat_STATE m) = 3 then s.answer stOutOfBounds []
  else if s.mchServes m then (s.mchSlot m 0).mchRead who m b errs else s

/-- MCH_BURST_WRITE (R197, R200, R206). -/
def State.mchBurstWrite (s : State) (m b : Nat) (d : Bytes) (poison : Bool) : State :=
  if s.fget (F.memMchStat_STATE m) = 3 then s.answer stOutOfBounds []
  else if s.mchServes m then ((s.mchSlot m 0).putBurst m b d poison).answer stOK [] else s

/-- The patrol scrubber reads the next burst (R204). -/
def State.scrub (s : State) (m : Nat) (errs : SymErrs) : State :=
  if !s.mchServes m then s
  else
    let s := s.mchSlot m 2
    let b := (s.mch m).scrub
    let addr := s.addrOf m (b * 64)
    let s' := match s.decodeBurst m b errs with
      | .good | .poisoned => s
      | .corrected pat d => (s.mchCorrected {} m addr pat).putBurst m b d false
      | .uncorrectable =>
        let s := (s.mchUncorrectable m).putBurst m b [] true
        s.error { unit := unitMch m, code := 0x44, cls := 1, addr := addr }
    s'.modMch m fun c => { c with scrub := (b + 1) % 2 ^ 24 }

/-! ### Retraining (R207-R211) -/

/-- A trigger joins the queue unless its MCH already waits (R208); a retired or untrained MCH has none. -/
def State.rtTrigger (s : State) (ms : List Nat) (req : Bool) : State :=
  let live := ms.filter fun m => s.fget (F.memMchStat_STATE m) ≤ 2
  if live.isEmpty then s
  else if live.all fun m => s.rtq.any fun j => j.mchs.contains m then
    if req then { s with rtq := s.rtq.map fun j => if live.all j.mchs.contains then { j with req := true } else j } else s
  else { s with rtq := s.rtq ++ [⟨live, [], req⟩] }

/-- The rate of R203 after a reading, from the rate in force; 4× where the reading is that of a failed sensor (R434). -/
def refreshRate (old : Nat) (t : Int) : Nat :=
  let up : Nat := if 95 ≤ t ∨ t < -40 then 2 else if 85 ≤ t then 1 else 0
  let down : Nat := if t ≤ 83 then 0 else if t ≤ 93 then min old 1 else old
  max up down

/-- A stack controller reads its sensor (R203, R207); the stack's MCHs far from their training temperature are triggered. -/
def State.stackTemp (s : State) (k : Nat) (t : Int) : State :=
  let s := s.fset (F.memStack_RATE k) (refreshRate (s.fget (F.memStack_RATE k)) t)
  let s := s.fset (F.memStack_TEMP k) (wrapI 8 t)
  (List.range 64).foldl (fun s i =>
    let m := 64 * k + i
    let d := (t - sextN 8 (s.fget (F.memMchStat_TRAIN_TEMP m))).natAbs
    if s.fget (F.memMchStat_STATE m) ≤ 2 ∧ s.fget F.memCfg_RT_TEMP ≤ d ∧ s.fget F.memCfg_RT_TEMP ≠ 0 then s.rtTrigger [m] false else s) s

/-- Corrections on a pin reach PIN_THRESH within one second (R207): the pin is erased when none is, with a record of the burst that reached it (R214), and a retraining is triggered; pin 37 stands for a command or address pin of the channel (R208). -/
def State.pinThreshold (s : State) (m p : Nat) : State :=
  if p = 37 then s.rtTrigger [m / 2 * 2, m / 2 * 2 + 1] false
  else
    let s := s.mchSecond m
    let thr := s.fget F.memCfg_PIN_THRESH
    let hits := s.pinHits m p
    if thr = 0 ∨ hits.length < thr ∨ 2 < s.fget (F.memMchStat_STATE m) then s
    else
      let s := match (s.erasedPin m).isNone && decide (p < 36), hits.getLast? with
        | true, some h =>
          (s.fset (F.memMchStat_ERASED_PIN m) p).error
            { unit := unitMch m, code := 0x41, cls := 0, addr := h.addr, stream := h.who.stream, seq := h.who.seq }
        | _, _ => s
      s.rtTrigger [m] false

/-- RT_PERIOD hours have passed since MCH `m` was trained (R207). -/
def State.rtPeriod (s : State) (m : Nat) : State :=
  if s.fget F.memCfg_RT_PERIOD = 0 then s else s.rtTrigger [m] false

/-- The next retraining in the queue starts and its slices hold (R208, R209); none starts in Park (R428). -/
def State.rtStart (s : State) : State :=
  match s.rtRun, s.rtq with
  | none, j :: rest =>
    if s.fget F.pwrStat_PARK ≠ 0 then s
    else
      let live := j.mchs.filter fun m => s.fget (F.memMchStat_STATE m) ≤ 1
      if live.isEmpty then
        let s := if j.req then (s.fset F.memRetrain_GO 0).fset F.memRetrain_RESULT 4 else s
        { s with rtq := rest }
      else
        let prev := live.map fun m => s.fget (F.memMchStat_STATE m)
        let s := live.foldl (fun s m =>
          let die := dieOfUnit (unitMch m)
          (s.fset (F.memMchStat_STATE m) 2).tail (1920 + m / 8) 0x40 die none m) s
        { s with rtq := rest, rtRun := some { j with mchs := live, prev := prev } }
  | _, _ => s

/-- The number of retired MCHs. -/
def State.retiredCount (s : State) : Nat := ((List.range 768).filter fun m => s.fget (F.memMchStat_STATE m) = 3).length

/-- A CXL.mem answer leaves (R206, R219): a read that is not OK returns data with the poison indication. -/
def State.hostReply (s : State) (k n status : Nat) (d : Bytes) : State :=
  if status = stOK then s.emit (.memData k d false status)
  else let (b, s) := s.drawLine; s.emit (.memData k (b.take n) true status)

/-- The answer of a request that its slice held and whose MCH retires (R212). -/
def State.heldPoisoned (s : State) (h : Held) : State :=
  match h.host, h.acc with
  | some k, .read n => s.hostReply k n stPoison []
  | some k, .write _ => s.emit (.memData k [] false stPoison)
  | none, _ => s.answer stPoison []

/-- Retire MCH `m` (R212): its held requests and the transfers that wait for it complete with POISON, its lines go, a fatal-to-device record is written, the field defect record and the floor plan say so. -/
def State.retire (s : State) (m code : Nat) : State :=
  if s.fget (F.memMchStat_STATE m) = 3 then s
  else
    let c := s.mch m
    let s := s.fset (F.memMchStat_STATE m) 3
    let s := s.modMch m fun c => { c with held := [], net := [], newlyRetired := true }
    let s := ((c.held ++ c.net).foldl State.heldPoisoned s).waitersPoisoned m
    let s := s.llcDrop m 0 16
    let s := { s with rtq := (s.rtq.map (fun (j : RtJob) => { j with mchs := j.mchs.filter (· ≠ m) })).filter (fun j => !j.mchs.isEmpty || j.req) }
    let s := (s.fpSet 112 m false).fpStamp true
    let s := s.fdrAppend (unitMch m) 2 code (bitsOf (s.reg (.memMchStat m)) 45 32)
    s.fatalDevice (unitMch m) 0x47 0

/-- The pins of R201 for a set of bad pins: state, spare pin, erased pin; `none` with three or more. -/
def trainPins (bad : List Nat) : Option (Nat × Nat × Nat) :=
  let b := ((List.range 37).filter bad.contains)
  match b with
  | [] => some (0, 0x3F, 0x3F)
  | [p] => some (0, if p = 36 then 0x3F else p, 0x3F)
  | [p, q] => some (1, p, q)
  | _ => none

/-- Set the outcome of a training of MCH `m` at its stack's temperature (R201, R202). -/
def State.setTrained (s : State) (m : Nat) (o : Nat × Nat × Nat) (temp : Nat) : State :=
  ((((s.fset (F.memMchStat_STATE m) o.1).fset (F.memMchStat_SPARE_PIN m) o.2.1).fset (F.memMchStat_ERASED_PIN m) o.2.2).fset (F.memMchStat_TRAIN_TEMP m) temp)

/-- The line at `a` loses its way in the slice, with its dirty sectors. -/
def State.llcForget (s : State) (m off : Nat) : State :=
  match s.llcWay m (off / 256) with
  | some w => { s with llc := Sparse.setD (fun _ => ⟨0, 0, 0⟩) s.llc (llcKey m (off / 256 % 256) w) ⟨0, 0, 0⟩ }
  | none => s

/-- What a slice's SECDED does before a request is served (R173, R174, R205, R214). A corrected word is only recorded. An uncorrectable one drops a clean line, which is fetched again; a dirty sector is written back with poison. A line in cache mode that is not present, and a way in scratchpad mode, are recorded alone (log entry 147). -/
def State.sliceEcc (s : State) (h : Held) : State :=
  match h.ecc, s.sliceOf h.addr with
  | .good, _ | _, none => s
  | e, some m =>
    let code := if e = .corrected then 0x48 else 0x49
    let s := s.error { unit := unitSlice m, code := code, cls := code - 0x48, addr := h.addr / 64 * 64, stream := h.who.stream, seq := h.who.seq }
    match e, spaceOf h.addr with
    | .uncorrectable, .stack x =>
      let off := (s.physOf x).2
      match s.llcWay m (off / 256) with
      | none => s
      | some w =>
        let l := s.llcLine (llcKey m (off / 256 % 256) w)
        if bitAt l.dirty (off / 64 % 4) then
          let b := off / 64
          ({ s with llc := Sparse.setD (fun _ => ⟨0, 0, 0⟩) s.llc (llcKey m (off / 256 % 256) w) { l with dirty := setBit l.dirty (off / 64 % 4) false } }).putBurst m b [] true
        else if l.dirty = 0 then s.llcForget m off
        else { s with llc := Sparse.setD (fun _ => ⟨0, 0, 0⟩) s.llc (llcKey m (off / 256 % 256) w) { l with valid := setBit l.valid (off / 64 % 4) false } }
    | _, _ => s

/-- A request is served at its home slice (R174, R175, R183, R185): the answer goes to the requester, the host's through its port; data with the poison indication leave their burst poisoned (R205). -/
def State.serve (s : State) (h : Held) : State :=
  let s := s.sliceEcc h
  match h.atom, h.acc with
  | some op, .write d =>
    let r := s.atomApply h.who op h.addr (leVal d)
    r.2.2.answer r.1 (if r.1 = stOK then leBytes (atomBytes op) r.2.1 else [])
  | _, .read n =>
    let r := s.loadHome h.who h.addr n h.narrow
    match h.host with
    | some k => r.2.2.hostReply k n r.1 r.2.1
    | none => r.2.2.answer r.1 r.2.1
  | none, .write d =>
    let r := s.storeHome h.addr d h.narrow
    let s := if h.poison && r.1 ≠ stOutOfBounds then (lines64 h.addr d.length).foldl (fun s l => s.setPoison l true) r.2 else r.2
    match h.host with
    | some k => s.emit (.memData k [] false r.1)
    | none => s.answer r.1 []

/-- The host may hold device lines read through decoder `k` (R188, R248). -/
def State.hdmDb (s : State) (k : Nat) : Bool := s.fget (F.hstHdm_MODE k) = 1

/-- The snoops that must be answered before a request (R188): for a device requester those of the lines it touches; for a read by a host that may then hold the lines, the eviction of a full filter's oldest entry. -/
def State.requestSnoops (s : State) (h : Held) : Option State :=
  match h.host, h.acc with
  | none, _ => s.snoopFirst h.addr h.len h.writes
  | some k, .read n =>
    let ev := if s.hdmDb k then s.filterFull h.addr n else []
    if ev.isEmpty then none else some (ev.foldl (fun s l => s.sendSnoop l true) s)
  | some _, .write _ => none

/-- A request reaches its home slice (R163, R174, R175, R180, R188, R210): it waits behind earlier requests to its lines, for a snoop, for its MCH or for a changing way, or it is served. An address that no slice is home of is not backed there. -/
def State.sliceRequest (s : State) (h : Held) : State :=
  match s.sliceOf h.addr with
  | none => s.answer stOutOfBounds []
  | some m =>
    if s.snpq.any fun (q : Held) => (lines64 h.addr h.len).any q.touches then { s with snpq := s.snpq ++ [h] }
    else match s.requestSnoops h with
      | some s => { s with snpq := s.snpq ++ [h] }
      | none =>
        if (lines64 h.addr h.len).any fun l => s.mchWaits l h.writes h.whole h.narrow then s.hold m h
        else
          let s := match h.host, h.acc with
            | some k, .read n => if s.hdmDb k then (lines64 h.addr n).foldl (fun (s : State) l => s.hostHolds l true) s else s
            | _, _ => s
          s.serve h

/-- The requests that slice `m` holds are issued in the order they arrived, and each takes the slice's input (R209, R334); one that must still wait is held again. -/
def State.releaseHeld (s : State) (m : Nat) : State :=
  let c := s.mch m
  let l := c.held ++ c.net
  if l.isEmpty then s
  else
    let s := (s.modMch m fun c => { c with held := [], net := [] }).grant 4 m 1
    l.foldl State.sliceRequest s

/-- The requests that wait for snoops are tried again in their order. -/
def State.retrySnooped (s : State) : State := s.snpq.foldl State.sliceRequest { s with snpq := [] }

/-- MCH `m` ends a retraining with some bad pins (R201, R209 step 5, R211); one retired meanwhile stays so (R212). -/
def State.rtEndOne (s : State) (m prev : Nat) (bad : List Nat) : State :=
  if s.fget (F.memMchStat_STATE m) = 3 then s
  else
    let s := s.fsat (F.memMchStat_RETRAINS m) 1
    let s := s.tail (1920 + m / 8) 0x40 (dieOfUnit (unitMch m)) none (m + 1024)
    match trainPins bad with
    | none => s.retire m 0x47
    | some o =>
      let s := s.setTrained m o (s.fget (F.memStack_TEMP (m / 64)))
      let s := s.error { unit := unitMch m, code := 0x45, cls := 0 }
      let s := if o.1 = 1 ∧ prev ≠ 1 then
          let s := s.error { unit := unitMch m, code := 0x46, cls := 0 }
          s.fdrAppend (unitMch m) 3 0x46 (bitsOf (s.reg (.memMchStat m)) 45 32)
        else s
      s.releaseHeld m

/-- The running retraining ends (R209-R211); `bad` and `bad2` are what steps 3 and 4 found on its first and second MCH. One that MEM_RETRAIN asked for gives the outcome of that register's MCH. -/
def State.rtEnd (s : State) (bad bad2 : List Nat) : State :=
  match s.rtRun with
  | none => s
  | some j =>
    let s := { s with rtRun := none }
    let s := (j.mchs.zip (j.prev.zip [bad, bad2])).foldl (fun s p => s.rtEndOne p.1 p.2.1 p.2.2) s
    if j.req then
      let st := s.fget (F.memMchStat_STATE (s.fget F.memRetrain_MCH))
      (s.fset F.memRetrain_GO 0).fset F.memRetrain_RESULT (if st = 3 then 3 else st + 1)
    else s

/-- A write of MEM_RETRAIN.GO (R207, R208, R215): a retraining is queued, or the request joins the one that waits for its MCH. An UNTRAINED MCH has none to queue: GO falls back and RESULT stays (DESIGN CHOICE, log entry 148). -/
def State.retrainGo (s : State) : State :=
  let m := s.fget F.memRetrain_MCH
  match s.fget (F.memMchStat_STATE m) with
  | 3 => s.fset F.memRetrain_RESULT 4
  | 4 => s
  | _ => (s.fset F.memRetrain_GO 1).rtTrigger [m] true

/-- Uncorrectable reads reach 16 within a second under AUTO_RETIRE (R212). -/
def State.autoRetire (s : State) (m : Nat) : State :=
  let s := s.mchSecond m
  if s.fbit F.memCfg_AUTO_RETIRE && 16 ≤ (s.mch m).ues.length then s.retire m 0x47 else s

/-- The host answers a snoop (R188): a dirty line is written, the filter follows, and the requests that waited proceed. -/
def State.snoopAnswer (s : State) (a : Nat) (dirty : Bool) (d : Bytes) : State :=
  let l := a / 64 * 64
  match s.bisnp.find? (·.1 = l) with
  | none => s
  | some (_, inv) =>
    let s := { s with bisnp := s.bisnp.filter (·.1 ≠ l) }
    let s := if dirty then ((s.touch l true true false).write l d).2 else s
    let m := s.homeOf l
    let f := s.filterOf m
    let s := s.setFilter m (if inv then f.filter (· / 2 ≠ l / 64) else f.map fun e => if e / 2 = l / 64 then l / 64 * 2 else e)
    s.retrySnooped

/-! ### The rebuilt map (R213) -/

/-- No instance runs in any partition. -/
def State.noInstances (s : State) : Bool := s.cores.all fun e => e.2.inst.isNone

/-- Put the map for the live MCHs into MEM_MAP and MEM_LIVE (R213, R406); there is none once more than 16 are retired. -/
def State.setMap (s : State) : State :=
  let live := fun (m : Nat) => decide (s.fget (F.memMchStat_STATE m) ≠ 3)
  let n := ((List.range 768).filter live).length
  if n < 752 then s
  else
    let s := (List.range 12).foldl (fun s i =>
      s.setReg (.memLive i) ((List.range 64).foldl (fun w b => if live (64 * i + b) then w + 2 ^ b else w) 0)) s
    let s := (s.fset F.memMap_N n).fset F.memMap_RETIRED (768 - n)
    s.fpPut 6 2 n

/-! ### The rows of the command table -/

/-- The asker that a request names. -/
def askerOf (w : ReqId) : Asker := ⟨w.stream.toNat, w.seq.toNat⟩

def execMchBurstRead (mch : Fin 768) (burst : BitVec 24) (rd : MchRead) (s : State) : Out :=
  .next (s.mchBurstRead (askerOf rd.who) mch burst.toNat rd.errs)
def execMchBurstWrite (mch : Fin 768) (burst : BitVec 24) (data : Bytes) (poison : Bool) (s : State) : Out :=
  if data.length = 64 then .next (s.mchBurstWrite mch burst.toNat data poison) else .fault .illFormed
/-- A refresh falls due and takes the next burst slots of its MCH (R203, R340): no request moves and no requester ages. -/
def execRefresh (mch : Fin 768) (s : State) : Out := .next (s.refreshDue mch)
def execStackTempRead (stack : Fin 12) (temp : Int) (s : State) : Out := .next (s.stackTemp stack temp)
def execScrubRead (mch : Fin 768) (errs : SymErrs) (s : State) : Out :=
  .next (if s.fget F.pwrStat_PARK = 0 then s.scrub mch errs else s)
def execPinThresholdReached (mch : Fin 768) (pin : Fin 38) (s : State) : Out := .next (s.pinThreshold mch pin)
def execRetrainPeriodExpiry (mch : Fin 768) (s : State) : Out := .next (s.rtPeriod mch)
def execRetrainStart (s : State) : Out := .next s.rtStart
def execAutoRetire (mch : Fin 768) (s : State) : Out := .next (s.autoRetire mch)
end Sys2Proof.Machine
end

