-- ==== Sys2Proof/Machine/Dma.lean ====
section
/-! DEFINITION. Core DMA (R51-R56, R183-R186, R341): the checks of a descriptor, the elements it moves, preemption, completion; the rows of near-memory atomics. -/

namespace Sys2Proof.Machine

/-! ### The encodings of a descriptor (R52, R54) -/

/-- Reserved bits that are not 0 (R52). -/
def dReserved (d : Nat) : Bool :=
  dF d 0 31 22 ≠ 0 || dF d 8 63 48 ≠ 0 || dF d 16 63 48 ≠ 0 || dF d 40 63 32 ≠ 0
  || ([48, 56, 64, 72, 80, 88, 96, 104].any fun o => dF d o 63 48 ≠ 0) || dF d 112 63 21 ≠ 0

/-- The scratchpad window names a virtual core (R53). -/
def spmWin (a : Nat) : Option (Nat × Nat) := match spaceOf a with | .spm v o => some (v, o) | _ => none

/-- Step 0 of R54: the encodings. `own` is the core's virtual number. -/
def descBad (d own : Nat) : Bool :=
  let dst := dDst d
  let op := aliasOp dst
  3 < dOp d || 3 < dEsz d || dNdim d = 0 || 5 < dNdim d
  || ((dOp d = 1 || dOp d = 2) && dNdim d = 1)
  || (dNarrow d && !isAlias dst && !(dOp d ≠ 3 && dSrc d < 0xC000000000) && !(dst < 0xC000000000))
  || (isAlias dst &&
      (dOp d = 1 || op = 7 || dEsz d ≠ atomEsz op || aliasTarget dst % atomBytes op ≠ 0
       || ((List.range 5).any fun k => k ≠ 0 && !(dOp d = 2 && k = 1) && decide (1 < dCnt d k) && decide (dDstStride d k % (atomBytes op : Int) ≠ 0))
       || (aliasFetch dst && (dOp d = 3 || (match spmWin (dSrc d) with | some (v, _) => v ≠ own | none => true)))))
  || dReserved d

/-! ### Footprints (R54) -/

/-- Offsets, least and greatest, that an extent of indices `lo` to `hi` of one stride adds. -/
def strideSpan (st : Int) (lo hi : Nat) : Int × Int :=
  let a := st * lo
  let b := st * hi
  (min a b, max a b)

/-- The footprint of a side: lowest byte, highest byte; `idx` replaces dimension 1's indices on the indexed side. -/
def footprint (d base width : Nat) (stride : Nat → Int) (idx : Option (Nat × Nat)) : Int × Int :=
  let sp := (List.range 5).foldl (fun (a : Int × Int) k =>
    let (lo, hi) := match k, idx with
      | 1, some (l, h) => (l, h)
      | _, _ => (0, dCnt d k - 1)
    let s := strideSpan (stride k) lo hi
    (a.1 + s.1, a.2 + s.2)) ((0, 0) : Int × Int)
  ((base : Int) + sp.1, (base : Int) + sp.2 + width - 1)

/-- The space of partition `p` that holds a base: first and last byte, by the window of a virtual core or a region with the permission (R53, R54, R168). -/
def State.dmaSpace (s : State) (p base : Nat) (ok : Rgn → Bool) : Option (Nat × Nat) :=
  match spmWin base with
  | some (v, _) => if (s.vmap p v).isSome then some (base / 0x200000 * 0x200000, base / 0x200000 * 0x200000 + 0x1FFFFF) else none
  | none => match s.regionAt p base with
    | some r => if ok r then some (r.base, r.limit) else none
    | none => none

/-- Permissions of a side. -/
def rdOk (r : Rgn) : Bool := r.rd
def wrOk (r : Rgn) : Bool := r.wr
def atomOk (r : Rgn) : Bool := r.wr && r.atom && r.ty = 0

/-- Steps 2 and 3 of R54 for one side: 4 DMA_BOUNDS, 5 DMA_LENGTH. -/
def sideError (sp : Option (Nat × Nat)) (fp : Int × Int) : Option Nat :=
  match sp with
  | none => some 4
  | some (lo, hi) => if fp.1 < lo ∨ (hi : Int) < fp.2 then some 5 else none

/-- The destination's base and width: the target of an atomic. -/
def dDstBase (d : Nat) : Nat := if isAlias (dDst d) then aliasTarget (dDst d) else dDst d
def dDstWidth (d : Nat) : Nat := if isAlias (dDst d) then atomBytes (aliasOp (dDst d)) else dBytes d

/-- The space of the source side; `none` where it is unreachable. -/
def State.srcSpace (s : State) (p d : Nat) : Option (Nat × Nat) :=
  if isAlias (dSrc d) then none
  else s.dmaSpace p (dSrc d) fun r => r.rd && (!(isAlias (dDst d) && aliasFetch (dDst d)) || r.wr)

/-- The space of the destination side. -/
def State.dstSpace (s : State) (p d : Nat) : Option (Nat × Nat) :=
  if isAlias (dDst d) then (if dDstBase d < 0xC000000000 then s.dmaSpace p (dDstBase d) atomOk else none)
  else s.dmaSpace p (dDst d) wrOk

/-- What the checks of R54 decide. -/
inductive DmaCheck where
  | err (code : Nat)
  | noop
  | ok (idx : List Nat)
  deriving DecidableEq, Repr

/-- The checks of R54 in order, for core `n` of partition `p` at virtual core `own`. -/
def State.dmaCheck (s : State) (n p own d : Nat) : DmaCheck :=
  if descBad d own then .err 6
  else if (List.range (dNdim d)).any fun k => dCnt d k = 0 then .noop
  else
    let useSrc := dOp d ≠ 3
    let ssp := s.srcSpace p d
    let dsp := s.dstSpace p d
    let gather := dOp d = 1
    let scatter := dOp d = 2
    if (useSrc && ssp.isNone) || dsp.isNone then .err 4
    else
      let sfp := footprint d (dSrc d) (dBytes d) (dSrcStride d)
      let dfp := footprint d (dDstBase d) (dDstWidth d) (dDstStride d)
      let e1 := if useSrc && !gather then sideError ssp (sfp none) else none
      let e2 := if scatter then none else sideError dsp (dfp none)
      match e1 <|> e2 with
      | some e => .err e
      | none =>
        if !gather && !scatter then .ok []
        else if 65536 < dCnt d 1 ∨ 0x200000 < dIndex d + 4 * dCnt d 1 then .err 5
        else
          let idx := (List.range (dCnt d 1)).map fun i => s.spmLE n (dIndex d + 4 * i) 4
          let lo := idx.foldl min (idx.headD 0)
          let hi := idx.foldl max 0
          let e3 := if gather then sideError ssp (sfp (some (lo, hi))) else sideError dsp (dfp (some (lo, hi)))
          match e3 with
          | some e => .err e
          | none =>
            if scatter && isAlias (dDst d) && idx.any fun i => (dDstStride d 1 * i) % (dDstWidth d : Int) ≠ 0 then .err 6
            else .ok idx

/-! ### Elements -/

/-- Index of element `e` in dimension `k`, i0 fastest (R52). -/
def elemIdx (d e k : Nat) : Nat := (List.range k).foldl (fun x j => x / dCnt d j) e % dCnt d k

/-- The address of element `e` of a side; `idx` replaces dimension 1's index where it is given. -/
def elemAddr (d base : Nat) (stride : Nat → Int) (idx : List Nat) (e : Nat) : Nat :=
  ((base : Int) + (List.range 5).foldl (fun (a : Int) k =>
    let i := elemIdx d e k
    a + stride k * (if k = 1 ∧ idx ≠ [] then idx.getD i 0 else i)) 0).toNat

/-- The physical address behind a DMA address: a virtual core's scratchpad through the map (R53). -/
def State.dmaPhys (s : State) (p a : Nat) : Option Nat :=
  match spmWin a with
  | some (v, o) => (s.vmap p v).map fun n => spmAddr n o
  | none => some a

/-- The address of element `e` on the source side. -/
def jobSrc (j : DmaJob) (e : Nat) : Nat := elemAddr j.desc (dSrc j.desc) (dSrcStride j.desc) (if dOp j.desc = 1 then j.idx else []) e
/-- The address of element `e` on the destination side, the target of an atomic. -/
def jobDst (j : DmaJob) (e : Nat) : Nat := elemAddr j.desc (dDstBase j.desc) (dDstStride j.desc) (if dOp j.desc = 2 then j.idx else []) e

/-! ### Moving elements -/

/-- Where one request leaves a transfer: moved, waiting (for an MCH, where it does), or refused with a status. -/
inductive ElemOut where
  | moved (s : State)
  | waits (s : State) (m : Option Nat)
  | refused (status : Nat) (s : State)

/-- The scratchpad of a core under reset answers TARGET_RESET (R416); the answer of the space otherwise comes from the access. -/
def State.underReset (s : State) (a : Nat) : Bool :=
  match spaceOf a with | .spm n _ => s.resetting.contains n | _ => false

/-- Elements carried by the request that begins at element `e`: those that follow it along dimension 0 within one 64 B line of each side (R180, R183), at most `left`; an atomic update is one element (R185; log entry 32). -/
def jobRun (j : DmaJob) (e left : Nat) : Nat :=
  if isAlias (dDst j.desc) then 1
  else
    let row := min left (dCnt j.desc 0 - e % dCnt j.desc 0)
    let dst := (64 - jobDst j e % 64) / dBytes j.desc
    let src := if dOp j.desc = 3 then dst else (64 - jobSrc j e % 64) / dBytes j.desc
    max 1 (min row (min dst src))

/-- The die where an address is served: a slice's, a core's, and the north I/O die for the host window (R17, R189). -/
def State.dieAt (s : State) (a : Nat) : Nat :=
  match spaceOf a with
  | .stack x => 4 + (s.physOf x).1 / 192
  | .llc o => 4 + (llcPlace o).2.2 / 192
  | .spm n _ => dieOfCore n
  | _ => 8

/-- A request of core `n` and its answer pass the crossings between them (R178, R342): `out` bytes go with the request, `back` bytes come with the answer. The ports are the core's number and 1,000 plus the line's slice, or the peer core. -/
def State.dmaCross (s : State) (n a out back : Nat) : State :=
  let port := match s.sliceOf a with | some m => 1000 + m | none => match spmWin a with | some (v, _) => v | none => 2000
  let there := s.dieAt a
  (s.sendAcross 0 n port out (dieOfCore n) there).sendAcross 1 port n back there (dieOfCore n)

/-- Move the `k` elements from element `e` of a job of core `n` and partition `p` as one request (R52, R185). The NARROW bit is ignored with an atomic, whose target always takes the narrow path (R184). -/
def State.moveElem (s : State) (n p : Nat) (who : Asker) (j : DmaJob) (e k : Nat) : ElemOut :=
  let d := j.desc
  let fill := dOp d = 3
  let atom := isAlias (dDst d)
  let len := k * dBytes d
  let src := if fill then some 0 else s.dmaPhys p (jobSrc j e)
  let dst := s.dmaPhys p (jobDst j e)
  match src, dst with
  | some sa, some da =>
    let wid := if atom then dDstWidth d else len
    let narrow := dNarrow d && !atom
    let waits := (if fill then [] else s.waitLines sa len false narrow) ++ s.waitLines da wid true (narrow || atom)
    match (if fill then none else s.snoopFirst sa len false) <|> s.snoopFirst da wid true with
    | some s => .waits s none
    | none =>
    if !waits.isEmpty then .waits s (s.sliceOf (waits.headD 0))
    else if (!fill && s.hostStatus sa = stTimeout) || s.hostStatus da = stTimeout then .waits s none
    else if (!fill && s.underReset sa) || s.underReset da then .refused stTargetReset s
    else
      let s := if fill then s else s.dmaCross n sa 0 len
      let r := if fill then (stOK, (List.replicate k (leBytes (dBytes d) (dPattern d))).flatten, s) else s.load who sa len narrow
      if r.1 ≠ stOK then .refused r.1 r.2.2
      else
        let s := r.2.2.dmaCross n da wid (if atom && aliasFetch (dDst d) then dDstWidth d else 0)
        if atom then
          let a := s.atomApply who (aliasOp (dDst d)) da (leVal r.2.1)
          if a.1 ≠ stOK then .refused a.1 a.2.2
          else if aliasFetch (dDst d) then .moved (a.2.2.setBytes sa (leBytes (dDstWidth d) a.2.1))
          else .moved a.2.2
        else
          let w := s.store da r.2.1 narrow
          if w.1 ≠ stOK then .refused w.1 w.2 else .moved w.2
  | _, _ => .refused stOutOfBounds s

/-- Elements that reach the next preemption point: those up to 4,096 B since the generator took the descriptor (R341). -/
def burstElems (d bytes : Nat) : Nat := ceilDiv (4096 - min bytes 4096) (dBytes d)

/-- Move up to `left` elements of queue `q`'s head, in at most `fuel` requests; a refused request ends the instance (R54). Elements move in element order, so of bytes that two of them write the later one's stand (R56: DESIGN CHOICE, log entry 145). -/
def State.moveElems (s : State) (n p : Nat) (who : Asker) (q left : Nat) : Nat → State
  | 0 => s
  | fuel + 1 =>
    match (s.core n).dmaHead q with
    | none => s
    | some j =>
      if left = 0 ∨ dTotal j.desc ≤ j.done then s
      else
        let k := jobRun j j.done left
        match s.moveElem n p who j j.done k with
        | .waits s m => s.modHead n q fun j => { j with waitM := m }
        | .refused st s => s.headRefused n q st
        | .moved s =>
          let s := s.modHead n q fun j => { j with done := j.done + k, waitM := none }
          let s := s.modCore n fun c => { c with gens := c.gens.map fun g => if g.queue = some q then { g with bytes := g.bytes + k * dBytes j.desc } else g }
          State.moveElems s n p who q (left - k) fuel

/-- The DMA engine of core `n` runs: the core's units do, its instance has not faulted, and no reset covers it. -/
def State.dmaRuns (s : State) (n : Nat) : Bool :=
  let c := s.core n
  c.fault.isNone && s.unitsRun n && !s.resetting.contains n &&
  (match c.inst with | some i => !bitAt s.gated i.part && (i.replaying || s.fget F.pwrStat_G ≠ 0) | none => true)

/-- Descriptors already moving when their instance ended run on for its partition (R54). -/
def State.dmaPart (s : State) (n : Nat) : Nat :=
  match (s.core n).inst with | some i => i.part | none => ((s.core n).lastPart).getD 0

/-- A queued descriptor of opcode `op` is checked, taken by a generator and moves elements up to its next preemption point (R52, R54, R341). -/
def State.dma (s : State) (n q op : Nat) : State :=
  if !s.dmaRuns n then s
  else
    let c := s.core n
    match c.dmaHead q with
    | none => s
    | some j =>
      if dOp j.desc ≠ op ∧ (j.checked ∨ dOp j.desc ≤ 3 ∨ op ≠ 0) then s
      else
        let p := s.dmaPart n
        let who : Asker := match c.inst with | some i => ⟨i.stream, i.seq⟩ | none => {}
        let s := if j.checked then s else
          match c.inst with
          | none => s.popHead n q
          | some i =>
            match s.dmaCheck n p i.vcore j.desc with
            | .err e => (s.popHead n q).progError n e
            | .noop => s.modHead n q fun j => { j with checked := true, done := dTotal j.desc }
            | .ok idx =>
              let s := s.tailCore n 3 0x30 (dTag j.desc + q * 2 ^ 32)
              s.modHead n q fun j => { j with checked := true, idx := idx }
        let s := s.fillGens n
        match (s.core n).gens.find? (·.queue = some q) with
        | none => s
        | some g => s.moveElems n p who q (burstElems j.desc g.bytes) (burstElems j.desc g.bytes)

/-- A preemption point of the generator that serves queue `q` (R341). -/
def State.dmaPreempt (s : State) (n q : Nat) : State :=
  let c := s.core n
  match (List.range 2).find? fun g => (c.gens.getD g ⟨none, 0⟩).queue = some q with
  | none => s
  | some g =>
    match c.dmaHead q with
    | none => (s.modCore n fun c => { c with gens := c.gens.set g ⟨none, 0⟩ }).fillGens n
    | some j =>
      if dTotal j.desc ≤ j.done then (s.modCore n fun c => { c with gens := c.gens.set g ⟨none, 0⟩ }).fillGens n
      else if (c.gens.getD g ⟨none, 0⟩).bytes < 4096 then s
      else
        let (w, s) := s.arbitrate (dieOfCore n) 1 n (q :: c.waitingHeads) (some q)
        match w with
        | none => s
        | some w =>
          let s := s.modCore n fun c => { c with gens := c.gens.set g ⟨some w, 0⟩ }
          if w = q then s else s.tailCore n 3 0x32 (dTag j.desc + q * 2 ^ 32)

/-- Every byte of queue `q`'s head is visible: it completes (R55). -/
def State.dmaComplete (s : State) (n q : Nat) : State :=
  let c := s.core n
  match c.dmaHead q with
  | none => s
  | some j =>
    if j.checked && dTotal j.desc ≤ j.done then
      let s := (s.dropHead n q).tailCore n 3 0x31 (dTag j.desc + q * 2 ^ 32)
      let s := if dEvEn j.desc && c.inst.isSome then s.modCore n (·.incEv (dEv j.desc) 1) else s
      s.fillGens n
    else s

/-- A command of one atomic update through the alias of its operation, at its home slice, where it waits as every request does (R184-R186, R210); a target that is not aligned is no atomic (R184). The old value is answered. -/
def State.atomic (s : State) (op a x : Nat) : State :=
  if a % atomBytes op ≠ 0 then s.answer stDenied []
  else s.sliceRequest { addr := a, acc := .write (leBytes (2 ^ atomEsz op) x), narrow := true, atom := some op }

/-! ### The rows of the command table -/

def execDmaCopy (core : Fin 384) (q : Fin 8) (s : State) : Out := .next (s.dma core q 0)
def execDmaGather (core : Fin 384) (q : Fin 8) (s : State) : Out := .next (s.dma core q 1)
def execDmaScatter (core : Fin 384) (q : Fin 8) (s : State) : Out := .next (s.dma core q 2)
def execDmaFill (core : Fin 384) (q : Fin 8) (s : State) : Out := .next (s.dma core q 3)
def execDmaPreemptionPoint (core : Fin 384) (q : Fin 8) (s : State) : Out := .next (s.dmaPreempt core q)
def execDmaRequestRefused (core : Fin 384) (q : Fin 8) (status : BitVec 8) (s : State) : Out := .next (s.dmaRefused core q status.toNat)
def execDmaComplete (core : Fin 384) (q : Fin 8) (s : State) : Out := .next (s.dmaComplete core q)
def execFadd32 (addr : BitVec 40) (x : BitVec 32) (s : State) : Out := .next (s.atomic 0 addr.toNat x.toNat)
def execBfadd16 (addr : BitVec 40) (x : BitVec 16) (s : State) : Out := .next (s.atomic 1 addr.toNat x.toNat)
def execFmin32 (addr : BitVec 40) (x : BitVec 32) (s : State) : Out := .next (s.atomic 2 addr.toNat x.toNat)
def execFmax32 (addr : BitVec 40) (x : BitVec 32) (s : State) : Out := .next (s.atomic 3 addr.toNat x.toNat)
def execUmin32 (addr : BitVec 40) (x : BitVec 32) (s : State) : Out := .next (s.atomic 4 addr.toNat x.toNat)
def execUmax32 (addr : BitVec 40) (x : BitVec 32) (s : State) : Out := .next (s.atomic 5 addr.toNat x.toNat)
def execCas32 (addr : BitVec 40) (x : BitVec 64) (s : State) : Out := .next (s.atomic 6 addr.toNat x.toNat)

end Sys2Proof.Machine
end

