-- ==== Sys2Proof/Machine/Stream.lean ====
section
/-! DEFINITION. Streams (R221-R242, R246): rings, doorbells, fetching, completion records, the duplicate cache, halting, the start of each descriptor that moves no collective. -/

namespace Sys2Proof.Machine

/-! ### Descriptors (R226) -/

/-- Bits of the 64-bit word at byte `o` of a 64-byte descriptor. -/
def sF (d o hi lo : Nat) : Nat := bitsOf d (8 * o + hi) (8 * o + lo)

def sdSeq (d : Nat) : Nat := sF d 0 31 0
def sdOp (d : Nat) : Nat := sF d 4 7 0
def sdHaltOnErr (d : Nat) : Bool := sF d 5 7 7 = 1
def sdLoaded (d : Nat) : Bool := sF d 5 4 4 = 1
def sdCheck (d : Nat) : Bool := sF d 5 3 3 = 1
def sdDcrc (d : Nat) : Bool := sF d 5 2 2 = 1
def sdNoReplay (d : Nat) : Bool := sF d 5 1 1 = 1
def sdIrq (d : Nat) : Bool := sF d 5 0 0 = 1
/-- The descriptor with HALT_ON_ERR 0: a CRC mismatch, a gap and a failed COMMIT halt the stream with causes of their own (log entry 34). -/
def noHaltOnErr (d : Nat) : Nat := setBits d 47 47 0
def sdTag (d : Nat) : Nat := sF d 6 15 0
def sdCrc (d : Nat) : Nat := sF d 60 31 0

/-- Bodies of R228, R229, R235. -/
def lProg (d : Nat) : Nat := sF d 8 47 0
def lBundles (d : Nat) : Nat := sF d 16 12 0
def lEntry (d : Nat) : Nat := sF d 18 12 0
def lRestore (d : Nat) : Nat := sF d 20 12 0
def lVfirst (d : Nat) : Nat := sF d 22 8 0
def lVnum (d : Nat) : Nat := sF d 24 9 0
def lArgs (d : Nat) : Nat := sF d 32 47 0
def lStride (d : Nat) : Nat := sF d 40 31 0
def lCkpt (d : Nat) : Nat := sF d 48 47 0
def cSrc (d : Nat) : Nat := sF d 8 47 0
def cDst (d : Nat) : Nat := sF d 16 47 0
def cLen (d : Nat) : Nat := sF d 24 39 0
def cExp (d : Nat) : Nat := sF d 32 63 0
def nQp (d : Nat) : Nat := sF d 16 9 0
def nRaddr (d : Nat) : Nat := sF d 32 63 0
def nRkey (d : Nat) : Nat := sF d 40 31 0
def gStream (d : Nat) : Nat := sF d 8 15 0
def gValue (d : Nat) : Nat := sF d 16 63 0
def gTimeout (d : Nat) : Nat := sF d 24 31 0

/-! ### A stream's registers -/

def State.strState (s : State) (k : Nat) : Nat := s.fget (F.strStat_STATE k)
def State.strPart (s : State) (k : Nat) : Nat := s.fget (F.strCtl_PART k)
def State.setStrState (s : State) (k v : Nat) : State := s.fset (F.strStat_STATE k) v
def State.nextSeq (s : State) (k : Nat) : Nat := s.fget (F.strStat_NEXT_SEQ k)

/-- The function of stream `k`'s partition (R217). -/
def State.strFn (s : State) (k : Nat) : Nat := 1 + s.strPart k

/-- Streams of partition `p` that are not DISABLED. -/
def State.liveStreams (s : State) (p : Nat) : List Nat :=
  (s.regs.range 0 0x400000).filterMap fun e =>
    let k := e.1 / 0x40
    if e.1 % 0x40 = 0x20 ∧ s.strState k ≠ 0 ∧ s.strPart k = p then some k else none

/-- OUTSTANDING follows the started list. -/
def State.setStarted (s : State) (k : Nat) (f : List StrOp → List StrOp) : State :=
  let s := s.modStr k fun t => { t with started := f t.started }
  s.fset (F.strStat_OUTSTANDING k) (s.str k).started.length

/-! ### Halting (R236) -/

/-- Fetched descriptors that have not started are discarded: HEAD returns to the first of them, NEXT_SEQ to a checked one, which leaves no entry in the duplicate cache (R230). -/
def State.discardFetched (s : State) (k : Nat) : State :=
  let t := s.str k
  let s := s.fset (F.strHead_HEAD k) (s.fget (F.strHead_HEAD k) + 2 ^ 32 - t.fetched.length)
  let s := if t.checked then s.fset (F.strStat_NEXT_SEQ k) (s.nextSeq k + 2 ^ 32 - 1) else s
  s.modStr k fun t => { t with fetched := [], checked := false, dup := if t.checked then t.dup.tail else t.dup }

/-- The stream enters HALTED with a cause. -/
def State.haltStream (s : State) (k cause : Nat) : State :=
  if s.strState k = 1 ∨ s.strState k = 2 then
    ((s.discardFetched k).setStrState k 3).fset (F.strStat_HCAUSE k) cause
  else s

/-- The stream enters HELD, a halted one too (R240). -/
def State.holdStream (s : State) (k : Nat) : State :=
  if s.strState k = 1 ∨ s.strState k = 2 then (s.discardFetched k).setStrState k 4
  else if s.strState k = 3 then s.setStrState k 4 else s

/-! ### Completion records (R237, R238, R241) -/

/-- The host-lost function of a partition whose stream's completion ring lies in the host window: its records go to the log. -/
def State.strLogs (s : State) (k : Nat) : Bool :=
  s.fbit (F.hstAttach_LOST (s.strFn k)) && isHost (s.fget (F.strCq_BASE k))

/-- A record without its PHASE. -/
def strRecord (k d status orig detail result ts : Nat) (badcrc : Bool) : Bytes :=
  mkRec 32 [(0, 4, sdSeq d), (4, 1, status), (5, 1, orig), (6, 1, sdOp d), (7, 1, if badcrc then 2 else 0),
    (8, 2, k), (10, 2, sdTag d), (12, 1, detail), (16, 8, result), (24, 8, ts)]

/-- The completion ring has no free slot (R225). -/
def State.cqFull (s : State) (k : Nat) : Bool :=
  decide (((s.str k).cqn + 2 ^ 32 - s.fget (F.strCqhead_CQHEAD k)) % 2 ^ 32 = 2 ^ s.fget (F.strCq_LOG2N k))

/-- Write a record to the next slot of the completion ring with its PHASE. -/
def State.cqWrite (s : State) (k : Nat) (r : Bytes) : State :=
  let n := (s.str k).cqn
  let size := 2 ^ s.fget (F.strCq_LOG2N k)
  let r := recPut r 7 (leBytes 1 (recField r 7 1 / 2 * 2 + (if n / size % 2 = 0 then 1 else 0)))
  let s := (s.store (s.fget (F.strCq_BASE k) + n % size * 32) r).2
  s.modStr k fun t => { t with cqn := (n + 1) % 2 ^ 32 }

/-- Records that wait go to the ring while it has a free slot and the host answers, each with its MSI-X message (R220, R225, R238). -/
def State.cqFlushN (s : State) (k : Nat) : Nat → State
  | 0 => s
  | n + 1 =>
    match (s.str k).cqWait with
    | [] => s
    | (r, irq) :: rest =>
      if s.cqFull k || s.hostStatus (s.fget (F.strCq_BASE k)) = stTimeout then s
      else
        let s := (s.modStr k fun t => { t with cqWait := rest }).cqWrite k r
        State.cqFlushN (if irq then s.emit (.msix (s.strFn k) (s.fget (F.strCtl_VECTOR k))) else s) k n

/-- Every record that can goes to the ring. -/
def State.cqFlush (s : State) (k : Nat) : State := s.cqFlushN k (s.str k).cqWait.length

/-- A record for the completion ring: behind those that wait. -/
def State.cqPut (s : State) (k : Nat) (r : Bytes) (irq : Bool) : State :=
  (s.modStr k fun t => { t with cqWait := t.cqWait ++ [(r, irq)] }).cqFlush k

/-- The completion log of partition `p` (R241): 2,097,152 records; a record beyond them is dropped and counted, with one LOG_OVERFLOW record for each filling. -/
def State.logRecord (s : State) (k : Nat) (r : Bytes) (irq : Bool) : State :=
  let p := s.strPart k
  let l := Sparse.getD (fun _ => []) s.clog p
  if l.length < 2097152 then { s with clog := Sparse.setD (fun _ => []) s.clog p (l ++ [(k, r, irq)]) }
  else
    let s := s.fsat (F.hstFstat_LOG_LOST (1 + p)) 1
    if bitAt s.clogOvf p then s
    else { s with clogOvf := setBit s.clogOvf p true }.error { unit := 0x7000, code := 0x65, cls := 1, addr := 1 + p, stream := k }

/-- Deliver a record: to the log or the ring, where its MSI-X message follows it (R226, R238). A stopped device writes none (R314). -/
def State.deliver (s : State) (k d : Nat) (r : Bytes) : State :=
  if s.failed then s
  else if s.strLogs k then s.logRecord k r (sdIrq d)
  else s.cqPut k r (sdIrq d)

/-- The records that wait for a host that is lost go to the log (R241). -/
def State.logWaiting (s : State) (k : Nat) : State :=
  if s.strLogs k then (s.str k).cqWait.foldl (fun s e => s.logRecord k e.1 e.2) (s.modStr k fun t => { t with cqWait := [] }) else s

/-- A descriptor has completed other than OK: FENCE and COMMIT see it (R233, R234), and HALT_ON_ERR halts its stream (R226). -/
def State.descFailed (s : State) (k d status : Nat) : State :=
  if status = stOK then s
  else
    let s := s.modStr k fun t => { t with badF := t.badF ++ [(sdSeq d, status)], badC := t.badC ++ [(sdSeq d, status)] }
    if sdHaltOnErr d then s.haltStream k 4 else s

/-- The DUPLICATE record of a descriptor whose original is known (R231): a completion other than OK (log entry 67). -/
def State.dupRecord (s : State) (k d : Nat) (o : Option DupRec) : State :=
  let r := match o with
    | some o => strRecord k d stDuplicate o.status o.detail o.result (s.now 8) false
    | none => strRecord k d stDuplicate 0xFF 0 0 (s.now 8) false
  let s := s.tail (2300 + s.strPart k) 0x72 8 (some (s.strPart k)) (k + sdSeq d * 2 ^ 16 + sdOp d * 2 ^ 48 + stDuplicate * 2 ^ 56)
  (s.deliver k d r).descFailed k d stDuplicate

/-- A descriptor completes (R237): its DESC event, record, duplicate-cache entry, waiting duplicates, and what HALT_ON_ERR, FENCE and COMMIT see of it. One that step 1 or 2 of R230 turns away (`taken` false) was not accepted and leaves the cache as it is. -/
def State.completeDesc (s : State) (k d status detail result : Nat) (badcrc : Bool := false) (taken : Bool := true) : State :=
  let p := s.strPart k
  let seq := sdSeq d
  let s := s.tail (2300 + p) 0x72 8 (some p) (k + seq * 2 ^ 16 + sdOp d * 2 ^ 48 + status * 2 ^ 56)
  let s := s.deliver k d (strRecord k d status 0 detail result (s.now 8) badcrc)
  let rec' : DupRec := ⟨status, detail, result⟩
  let waits := if taken then (s.str k).dupWait.filter (·.1 = seq) else []
  let s := if taken then s.modStr k fun t =>
      { t with dup := t.dup.map fun e => if e.1 = seq ∧ e.2 = none then (seq, some rec') else e
               dupWait := t.dupWait.filter (·.1 ≠ seq) }
    else s
  (waits.foldl (fun s w => s.dupRecord k w.2 (some rec')) s).descFailed k d status

/-- A started descriptor completes. -/
def State.completeOp (s : State) (k seq status detail result : Nat) : State :=
  match (s.str k).started.find? (·.seq = seq) with
  | none => s
  | some o => (s.setStarted k (·.filter (·.seq ≠ seq))).completeDesc k o.desc status detail result

/-- The lowest-SEQ failure (R233, R234): SEQs count modulo 2^32, those from 2^31 below NEXT_SEQ to 2^31 - 1 above it in their order. -/
def State.firstBad (s : State) (k : Nat) (l : List (Nat × Nat)) : Option (Nat × Nat) :=
  let place := fun (q : Nat) => (q + 2 ^ 32 + 2 ^ 31 - s.nextSeq k) % 2 ^ 32
  l.foldl (fun (b : Option (Nat × Nat)) e => match b with
    | none => some e
    | some x => if place e.1 < place x.1 then some e else some x) none

/-! ### Fetching (R225) -/

/-- The stream runs: RUN or WAIT, on a device that is neither FAILED nor tripped. -/
def State.strRuns (s : State) (k : Nat) : Bool := (s.strState k = 1 || s.strState k = 2) && !s.failed && !s.tripped

/-- A stream has a slot to fetch: it runs, the doorbell has named more, and fewer than 16 beyond the last started are held (R225). -/
def State.fetchable (s : State) (k : Nat) : Bool :=
  s.strRuns k && decide (s.fget (F.strHead_HEAD k) ≠ s.fget (F.strHead_TAIL k)) && decide ((s.str k).fetched.length < 16)

/-- The address of the slot at HEAD. -/
def State.fetchAddr (s : State) (k : Nat) : Nat :=
  s.fget (F.strRing_BASE k) + s.fget (F.strHead_HEAD k) % 2 ^ s.fget (F.strRing_LOG2N k) * 64

/-- The slot at HEAD cannot be read: once it is next, a record with the SEQ expected, and the stream halts (R238). -/
def State.fetchFailed (s : State) (k : Nat) : State :=
  if (s.str k).fetched.isEmpty then
    (s.deliver k (s.nextSeq k) (strRecord k (s.nextSeq k) stOutOfBounds 0 1 0 (s.now 8) false)).haltStream k 5
  else s

/-- Fetch the slot at HEAD of stream `k`. A host that does not answer leaves the fetch outstanding (R220). -/
def State.fetchSlot (s : State) (k : Nat) : State :=
  let a := s.fetchAddr k
  let r := if s.inRegion (s.strPart k) a 64 (·.rd) then s.load ⟨k, 0⟩ a 64 else (stOutOfBounds, [], s)
  if r.1 = stOK then
    (r.2.2.fset (F.strHead_HEAD k) (s.fget (F.strHead_HEAD k) + 1)).modStr k fun t => { t with fetched := t.fetched ++ [leVal r.2.1] }
  else if r.1 = stTimeout then s
  else r.2.2.fetchFailed k

/-- The stream of partition `p` that the round robin by stream number serves next, among those with a slot to fetch (R334). -/
def State.fetchTurn (s : State) (p : Nat) : Option Nat :=
  let l := (s.liveStreams p).filter s.fetchable
  let last := Sparse.find s.strTurn p
  (l.find? fun k => match last with | some x => decide (x < k) | none => true) <|> l.head?

/-- A descriptor fetch that stream `k` asks for: the stream fetch arbiter decides among the partitions that have a slot to fetch, and the winner's next stream is served (R225, R334), unless a snoop or a slice holds its line. -/
def State.strFetch (s : State) (k : Nat) : State :=
  if !s.fetchable k then s
  else
    let d := s.arbitrate 8 8 0 ((List.range 8).filter fun p => (s.fetchTurn p).isSome) none
    match d.1.bind fun p => (s.fetchTurn p).map fun j => (p, j) with
    | none => s
    | some (p, j) =>
      match s.blocked (s.fetchAddr j) 64 false with
      | some s => s
      | none => { d.2 with strTurn := Sparse.insert s.strTurn p j }.fetchSlot j

/-! ### Doorbells (R224) -/

/-- The port presents function `f` (R217, R218): PF0; a VF whose partition exists, on a link other than CXL 1.1 and PCIe. -/
def State.fnOn (s : State) (f : Nat) : Bool :=
  f = 0 || (s.partState (f - 1) ≠ 0 && !(s.cxl.st = 2 && (s.cxl.gen = .cxl11 || s.cxl.gen = .pcie)))

/-- Function `f` may operate stream `k` (R221). -/
def State.fnOwns (s : State) (f k : Nat) : Bool := f = 0 || (s.strPart k = f - 1 && s.fnOn f)

/-- A partition under a running reset (R416). -/
def State.partResetting (s : State) (p : Nat) : Bool := s.resets.any fun j => j.level = 2 && j.target = p

/-- A doorbell through function `f`'s page. -/
def State.doorbell (s : State) (f v : Nat) : State :=
  let k := bitsOf v 47 32
  let tail := bitsOf v 31 0
  let head := s.fget (F.strHead_HEAD k)
  if !s.fnOwns f k || s.partResetting (s.strPart k) || 2 ^ s.fget (F.strRing_LOG2N k) < (tail + 2 ^ 32 - head) % 2 ^ 32 then
    s.fsat (F.hstFstat_DB_DROP f) 1
  else if tail = s.fget (F.strHead_TAIL k) then s
  else (s.fset (F.strHead_TAIL k) tail).tail 2296 0x73 8 (some (s.strPart k)) (k + tail * 2 ^ 16)

/-! ### Checks of R230 -/

/-- The bytes of a body that an opcode uses, from byte 8 (R228, R229, R235, R286). -/
def bodyMask (op : Nat) : List (Nat × Nat × Nat) :=
  match op with
  | 1 => [(8, 47, 0), (16, 12, 0), (18, 12, 0), (20, 12, 0), (22, 8, 0), (24, 9, 0), (32, 47, 0), (40, 31, 0), (48, 47, 0)]
  | 2 => [(8, 47, 0), (16, 47, 0), (24, 39, 0), (32, 63, 0)]
  | 3 => [(8, 11, 0), (10, 5, 0), (11, 7, 0), (12, 7, 0), (13, 7, 0), (14, 15, 0), (16, 47, 0), (24, 47, 0), (32, 39, 0), (40, 39, 0), (48, 47, 0)]
  | 6 => [(8, 15, 0), (16, 63, 0)]
  | 7 => [(8, 15, 0), (16, 63, 0), (24, 31, 0)]
  | 8 => [(8, 47, 0), (16, 9, 0), (24, 39, 0), (32, 63, 0), (40, 31, 0)]
  | _ => []

/-- The body with the bits its opcode uses cleared is 0 (R226: other bytes are reserved). -/
def bodyClean (d : Nat) : Bool :=
  let d' := (bodyMask (sdOp d)).foldl (fun d m => setBits d (8 * m.1 + m.2.1) (8 * m.1 + m.2.2) 0) d
  bitsOf d' 479 64 = 0

/-- A reserved encoding (R226-R229; step 3 of R230). -/
def descReserved (d : Nat) : Bool :=
  8 < sdOp d || sF d 5 6 5 ≠ 0
  || !bodyClean d
  || (sdOp d = 1 && (lProg d % 64 ≠ 0 || lBundles d = 0 || 7168 < lBundles d || lEntry d < 1024 || lRestore d < 1024
        || 384 < lVnum d || lStride d % 64 ≠ 0 || lCkpt d % 4096 ≠ 0))

/-- Steps 2 and 3 of R232 for one address and length: the status when it fails. -/
def State.footStatus (s : State) (p a len : Nat) (ok : Rgn → Bool) : Option Nat :=
  match s.dmaSpace p a ok with
  | none => some stOutOfBounds
  | some (_, hi) => if hi < a + len - 1 then some stBadLength else none

/-- The same for an image or a checkpoint, which lie in memory and in no scratchpad (R67, R228). -/
def State.memStatus (s : State) (p a len : Nat) (ok : Rgn → Bool) : Option Nat :=
  if (spmWin a).isSome then some stOutOfBounds else s.footStatus p a len ok

/-- The result of step 4 of R230: a no-op, a failure, or good. -/
inductive AddrCheck where
  | noop
  | bad (status : Nat)
  | good
  deriving DecidableEq, Repr

/-- The byte at an address lies in a sealed region of `p`. -/
def State.inSealed (s : State) (p a : Nat) : Bool := match s.regionAt p a with | some r => r.sealed | none => false

/-- Addresses and lengths of a descriptor of partition `p` (R232, R235, R244, R362). -/
def State.descAddrs (s : State) (p d : Nat) : AddrCheck :=
  let fin := fun (o : Option Nat) => match o with | some e => AddrCheck.bad e | none => .good
  match sdOp d with
  | 1 =>
    let n := lVnum d
    if n = 0 then .noop
    else if s.vcount p < lVfirst d + n then .bad stOutOfBounds
    else fin (s.memStatus p (lProg d) (32 * lBundles d) (fun r => r.rd && r.ty = 0)
      <|> s.footStatus p (lArgs d) ((n - 1) * lStride d + 4096) (·.rd)
      <|> s.memStatus p (lCkpt d) (8192 * n) (fun r => r.wr && (r.ty = 0 || r.ty = 1)))
  | 2 => if cLen d = 0 then .noop else fin (s.footStatus p (cSrc d) (cLen d) (·.rd) <|> s.footStatus p (cDst d) (cLen d) (·.wr)
      <|> (if s.inSealed p (cSrc d) = s.inSealed p (cDst d) then none else some stDenied))
  | 6 | 7 => if s.strPart (gStream d) = p then .good else .bad stDenied
  | 8 =>
    if cLen d = 0 then .noop
    else match s.footStatus p (cSrc d) (cLen d) (·.rd) with
      | some e => .bad e
      | none => if (Sparse.find s.qps (nQp d)).map (·.1) = some p && !s.inSealed p (cSrc d) then .good else .bad stDenied
  | _ => .good

/-- CRC-32C of bytes 0-59. -/
def descCrc (d : Nat) : Nat := crc32c (leBytes 60 d)

/-- Drop the oldest fetched descriptor. -/
def State.popFetched (s : State) (k : Nat) : State := s.modStr k fun t => { t with fetched := t.fetched.tail, checked := false }

/-- The descriptor that has become next to start is checked (R230, R231). The cache keeps a 65th record, which no duplicate is old enough to meet, for the case that the newest entry is discarded (R230). `coll` is step 4 for a COLLECTIVE. -/
def State.strCheck (s : State) (k : Nat) (coll : State → Nat → AddrCheck) : State :=
  let t := s.str k
  match t.fetched with
  | [] => s
  | d :: _ =>
    if !s.strRuns k || t.checked then s
    else if 256 ≤ t.started.length || s.cqFull k then s.setStrState k 2
    else
      let s := s.setStrState k 1
      let seq := sdSeq d
      let p := s.strPart k
      let df := (seq + 2 ^ 32 - s.nextSeq k) % 2 ^ 32
      if descCrc d ≠ sdCrc d then ((s.popFetched k).completeDesc k (noHaltOnErr d) stCheckFail 2 0 true false).haltStream k 2
      else if df ≠ 0 ∧ df < 2 ^ 31 then ((s.popFetched k).completeDesc k (noHaltOnErr d) stDenied 3 0 false false).haltStream k 3
      else if 2 ^ 31 ≤ df then
        let s := s.popFetched k
        if df < 2 ^ 32 - 64 then s.dupRecord k d none
        else match (t.dup.find? (·.1 = seq)) with
          | some (_, some o) => s.dupRecord k d (some o)
          | some (_, none) => s.modStr k fun t => { t with dupWait := t.dupWait ++ [(seq, d)] }
          | none => s.dupRecord k d none
      else
        let s := s.fset (F.strStat_NEXT_SEQ k) (seq + 1)
        let s := s.modStr k fun t => { t with dup := ((seq, none) :: t.dup).take 65 }
        if descReserved d then (s.popFetched k).completeDesc k d stDenied 0 0
        else
          match (if sdOp d = 3 then coll s d else s.descAddrs p d) with
          | .noop => (s.popFetched k).completeDesc k d stOK 0 0
          | .bad st => (s.popFetched k).completeDesc k d st 0 0
          | .good => s.modStr k fun t => { t with checked := true, waitAt := s.now 8 }

/-! ### Starting -/

/-- The checked descriptor at the head of stream `k` with opcode `op`, when the stream may start it (R225); none is started while Park is being entered or held (R427). -/
def State.strHead (s : State) (k op : Nat) : Option Nat :=
  let t := s.str k
  match t.fetched with
  | d :: _ => if s.strRuns k && t.checked && sdOp d = op && s.fget F.pwrStat_PARK = 0 then some d else none
  | [] => none

/-- The head starts: it leaves the fetched list, and a DESC event leaves. -/
def State.strStart (s : State) (k d : Nat) : State :=
  let p := s.strPart k
  ((s.popFetched k).setStrState k 1).tail (2300 + p) 0x72 8 (some p) (k + sdSeq d * 2 ^ 16 + sdOp d * 2 ^ 48 + 0xFF * 2 ^ 56)

/-- The head starts and stays outstanding. -/
def State.strBegin (s : State) (k d left : Nat) : State :=
  (s.strStart k d).setStarted k (· ++ [⟨sdSeq d, sdOp d, d, left, [], 0⟩])

/-- The head's start condition does not hold: the stream is in WAIT. -/
def State.strWait (s : State) (k : Nat) : State := s.setStrState k 2

/-- Every earlier descriptor of the stream has completed. -/
def State.strDrained (s : State) (k : Nat) : Bool := (s.str k).started.isEmpty

def State.strNop (s : State) (k : Nat) : State :=
  match s.strHead k 0 with
  | none => s
  | some d => (s.strStart k d).completeDesc k d stOK 0 0

/-- FENCE (R233). -/
def State.strFence (s : State) (k : Nat) : State :=
  match s.strHead k 4 with
  | none => s
  | some d =>
    if !s.strDrained k then s.strWait k
    else
      let bad := if sdHaltOnErr d then s.firstBad k (s.str k).badF else none
      let s := (s.strStart k d).modStr k fun t => { t with badF := [] }
      match bad with
      | some (q, st) =>
        let s := s.completeDesc k d st 0 q
        s.modStr k fun t => { t with badF := [] }
      | none => s.completeDesc k d stOK 0 0

/-- COMMIT (R234): a failure halts the stream whatever HALT_ON_ERR says. -/
def State.strCommit (s : State) (k : Nat) : State :=
  match s.strHead k 5 with
  | none => s
  | some d =>
    if !s.strDrained k || !(s.str k).colOpen.isEmpty then s.strWait k
    else
      let bad := s.firstBad k (s.str k).badC
      let s := s.strStart k d
      let s := match bad with
        | some (q, st) => (s.completeDesc k (noHaltOnErr d) st 0 q).haltStream k 1
        | none => s.completeDesc k d stOK 0 0
      s.modStr k fun t => { t with badF := [], badC := [] }

/-- SIGNAL (R235). -/
def State.strSignal (s : State) (k : Nat) : State :=
  match s.strHead k 6 with
  | none => s
  | some d =>
    if !s.strDrained k then s.strWait k
    else
      let s := s.finc (F.strScnt_SCNT (gStream d)) (gValue d)
      (s.strStart k d).completeDesc k d stOK 0 0

/-- WAIT (R235). -/
def State.strWaitOp (s : State) (k : Nat) : State :=
  match s.strHead k 7 with
  | none => s
  | some d =>
    if s.fget (F.strScnt_SCNT (gStream d)) < gValue d then s.strWait k
    else (s.strStart k d).completeDesc k d stOK 0 0

/-- TIMEOUT_MS have passed since the WAIT became next to start. -/
def State.strWaitTimeout (s : State) (k : Nat) : State :=
  match s.strHead k 7 with
  | none => s
  | some d =>
    if gTimeout d = 0 ∨ s.now 8 < (s.str k).waitAt + gTimeout d * 1200000 ∨ gValue d ≤ s.fget (F.strScnt_SCNT (gStream d)) then s
    else (s.strStart k d).completeDesc k d stTimeout 0 0

/-! ### COPY and NETWRITE (R229) -/

/-- COPY starts; its bytes move when it completes. -/
def State.strCopy (s : State) (k : Nat) : State :=
  match s.strHead k 2 with
  | none => s
  | some d => s.strBegin k d 1

/-- Bytes before the first line that cannot be read. -/
def State.goodPrefix (s : State) (a len : Nat) : Nat :=
  match (lines64 a len).find? fun l => s.poisonedAt l || !s.backed (max l a) || s.hostStatus l ≠ stOK with
  | some l => l - a
  | none => len

/-- Bytes of a write of `len` bytes at `a` that poisoned bursts covered in part discard (R206). -/
def State.discarded (s : State) (a len : Nat) : Nat :=
  ((lines64 a len).map fun l => if s.poisonedAt l && (decide (l < a) || decide (a + len < l + 64)) then min (a + len) (l + 64) - max a l else 0).sum

/-- The bytes a COPY moves to: a failed source leaves a part of the readable prefix moved, how much is free (log entry 21). -/
def State.copyMove (s : State) (k : Nat) (o : StrOp) : Nat × Nat × State :=
  let p := s.strPart k
  let d := o.desc
  match s.dmaPhys p (cSrc d), s.dmaPhys p (cDst d) with
  | some a, some b =>
    if s.underReset a || s.underReset b then (stTargetReset, 0, s)
    else
      let r := s.load ⟨k, o.seq⟩ a (cLen d)
      if r.1 ≠ stOK then
        let (w, s) := r.2.2.draw
        let n := w.toNat % (s.goodPrefix a (cLen d) + 1)
        let s := if n = 0 then s else (s.store b (s.getBytes a n)).2
        (r.1, n, s)
      else
        let crc := crc64xz r.2.1
        let w := r.2.2.store b r.2.1
        let st := if w.1 ≠ stOK then w.1 else if sdCheck d && crc ≠ cExp d then stCheckFail else stOK
        let moved := if w.1 = stOK then cLen d else if w.1 = stPoison then cLen d - s.discarded b (cLen d) else 0
        (st, if sdDcrc d then crc else moved, w.2)
  | _, _ => (stOutOfBounds, 0, s)

/-- A COPY has moved its bytes and completes; it waits while a host-window side has no answer (R220), a snoop is out (R188) or an MCH retrains (R210). -/
def State.copyComplete (s : State) (k seq : Nat) : State :=
  match (if s.failed then none else (s.str k).started.find? fun o => o.seq = seq && o.opc = 2) with
  | none => s
  | some o =>
    let d := o.desc
    match s.blocked (cSrc d) (cLen d) false <|> s.blocked (cDst d) (cLen d) true with
    | some s => s
    | none =>
    if s.hostStatus (cSrc d) = stTimeout ∨ s.hostStatus (cDst d) = stTimeout then s
    else
      let r := s.copyMove k o
      r.2.2.completeOp k seq r.1 0 r.2.1

/-- NETWRITE starts: the bytes leave on the queue pair's port with its RoCEv2 address (R229, R243, R244). It starts once its source answers (R188, R210, R220). -/
def State.strNetwrite (s : State) (k : Nat) : State :=
  match s.strHead k 8 with
  | none => s
  | some d =>
    match s.blocked (cSrc d) (cLen d) false with
    | some s => s
    | none =>
    if s.hostStatus (cSrc d) = stTimeout then s else
    let s := s.strBegin k d 1
    match s.dmaPhys (s.strPart k) (cSrc d) with
    | none => s.completeOp k (sdSeq d) stOutOfBounds 0 0
    | some a =>
      let r := s.load ⟨k, sdSeq d⟩ a (cLen d)
      if r.1 ≠ stOK then r.2.2.completeOp k (sdSeq d) r.1 0 0
      else
        let port := ((Sparse.find s.qps (nQp d)).map (·.2)).getD 0
        let s := r.2.2.emit (.rdma port (Sparse.getD (fun _ => 0) s.fuses.mac (2 * port)) (nQp d) (nRaddr d) (nRkey d) r.2.1)
        s.modOp k (sdSeq d) fun o => { o with result := if sdDcrc d then crc64xz r.2.1 else cLen d }

/-- The acknowledgement of a NETWRITE arrives, or its retries are exhausted. -/
def State.netEnd (s : State) (k seq status : Nat) : State :=
  match (s.str k).started.find? fun o => o.seq = seq && o.opc = 8 with
  | none => s
  | some o => s.completeOp k seq status 0 (if status = stOK then o.result else 0)

/-! ### LAUNCH (R228, R363) -/

/-- The physical cores of a LAUNCH, in virtual order. -/
def State.launchCores (s : State) (p d : Nat) : List (Nat × Option Nat) :=
  (List.range (lVnum d)).map fun i => (lVfirst d + i, s.vmap p (lVfirst d + i))

/-- A core is idle. -/
def State.coreIdle (s : State) (n : Nat) : Bool :=
  (s.core n).inst.isNone && (s.core n).dmaIdle && s.coreState n = 0 && !s.resetting.contains n

/-- A LAUNCH that starts no instance: the program region of every core reached is zeroed. -/
def State.launchFails (s : State) (k d status detail : Nat) (cores : List Nat) : State :=
  let s := cores.foldl (fun s n => s.zeroProgram n) s
  s.completeOp k (sdSeq d) status detail 0

/-- Instance `i` of a LAUNCH on core `n`. -/
def launchInst (k p d i : Nat) : KInst where
  stream := k
  part := p
  vcore := lVfirst d + i
  seq := sdSeq d
  prog := lProg d
  bundles := lBundles d
  entry := lEntry d
  restore := lRestore d
  noReplay := sdNoReplay d
  args := lArgs d + i * lStride d
  ckpt := lCkpt d + 8192 * i
  nTB := 0
  faultsTB := 0
  replays := 0
  rpc := 0
  valid := none
  replaying := false

/-- Copy the image to the cores unless LOADED says they hold it: `none` with the state after it when an image is poisoned or not allowed. -/
def State.launchImage (s : State) (k p d : Nat) (cores : List Nat) : Option Nat × State :=
  let sealed := s.partState p = 2
  let allowed := fun (dig : Nat) => (Sparse.getD (fun _ => []) s.allow p).contains dig
  if sdLoaded d then
    (if sealed && cores.any (fun n => !allowed (s.core n).progDig) then some stDenied else none, s)
  else
    let r := s.load ⟨k, sdSeq d⟩ (lProg d) (32 * lBundles d)
    if r.1 ≠ stOK then (some r.1, r.2.2)
    else
      let dig := (Config.shake256 r.2.1).toNat
      let s := cores.foldl (fun s n => s.putProgram n r.2.1 dig) r.2.2
      (if sealed && !allowed dig then some stDenied else none, s)

/-- LAUNCH starts once every core is idle and none has still to take new microcode (R392); its image is read once no snoop is out and no slice holds it. -/
def State.strLaunch (s : State) (k : Nat) : State :=
  match s.strHead k 1 with
  | none => s
  | some d =>
    let p := s.strPart k
    let vc := s.launchCores p d
    let cores := vc.filterMap (·.2)
    if cores.length < vc.length || cores.any (fun n => !s.coreIdle n || s.fw.swaps.contains n) then s.strWait k
    else match (if sdLoaded d then none else s.blocked (lProg d) (32 * lBundles d) false) with
    | some s => s
    | none =>
      let s := s.strBegin k d (lVnum d)
      match s.launchImage k p d cores with
      | (some st, s) =>
        if st = stDenied then
          let s := s.error { unit := unitSec, code := 0xC2, cls := 1, addr := k, stream := k, seq := sdSeq d, part := some p }
          s.launchFails k d stDenied 0x30 cores
        else s.launchFails k d st 0 cores
      | (none, s) =>
        (List.range cores.length).foldl (fun s i => s.startInstance (cores.getD i 0) (launchInst k p d i)) s

/-- Every instance of a LAUNCH has ended. -/
def State.launchComplete (s : State) (k seq : Nat) : State :=
  match (s.str k).started.find? fun o => o.seq = seq && o.opc = 1 with
  | none => s
  | some o =>
    if o.left ≠ 0 then s
    else
      match o.fails.foldl (fun (b : Option (Nat × Nat × Nat)) e => match b with
          | none => some e
          | some x => if e.1 < x.1 then some e else some x) none with
      | none => s.completeOp k seq stOK 0 0
      | some (v, st, det) => s.completeOp k seq st det (v + o.fails.length * 2 ^ 32)

/-! ### Register writes (R223, R242, R246) -/

/-- The rings' checks (R223). -/
def State.ringsOk (s : State) (k : Nat) : Bool :=
  let p := s.strPart k
  let ring := fun (base log width : Nat) (ok : Rgn → Bool) =>
    decide (base % max 4096 (width * 2 ^ log) = 0) && s.inRegion p base (width * 2 ^ log) ok
  ring (s.fget (F.strRing_BASE k)) (s.fget (F.strRing_LOG2N k)) 64 (·.rd)
  && ring (s.fget (F.strCq_BASE k)) (s.fget (F.strCq_LOG2N k)) 32 (·.wr)

/-- The stream's logged records go to its completion ring in log order with LOGGED set (R242), behind those that wait for it. -/
def State.deliverLog (s : State) (k : Nat) : State :=
  if s.failed then s
  else
    let p := s.strPart k
    let l := Sparse.getD (fun _ => []) s.clog p
    let rest := l.filter (·.1 ≠ k)
    let s := { s with clog := Sparse.setD (fun _ => []) s.clog p rest, clogOvf := if rest.isEmpty then setBit s.clogOvf p false else s.clogOvf }
    ((l.filter (·.1 = k)).foldl (fun s e => s.cqPut k (recPut e.2.1 7 (leBytes 1 (recField e.2.1 7 1 + 4))) e.2.2) s).cqFlush k

/-- The stream enters RUN. -/
def State.runStream (s : State) (k : Nat) : State := ((s.deliverLog k).setStrState k 1).fset (F.strStat_HCAUSE k) 0

/-- A write of STR_CTL (R222, R223, R236, R242, R246). -/
def State.strCtlWrite (s : State) (k : Nat) (w : Wr) : Nat × State :=
  let st := s.strState k
  let en := w.fld (F.strCtl_EN k) = 1
  let resume := w.set (F.strCtl_RESUME k)
  let halt := w.set (F.strCtl_HALT k)
  let put := fun (s : State) => s.setReg w.reg (w.new % 2 ^ 61 + (if en then 2 ^ 63 else 0))
  if w.fld (F.strCtl_PART k) ≠ s.strPart k ∧ st ≠ 0 then s.wDeny
  else if resume && !((st = 3 || st = 4) && en) then s.wDeny
  else if !en then
    if (st = 3 ∨ st = 4) ∧ s.fget (F.strStat_OUTSTANDING k) = 0 then (stOK, (put s).setStrState k 0)
    else s.wDeny
  else if st = 0 then
    let s' := put s
    if s.fbit F.strCtx_LOCK && s'.ringsOk k then (stOK, s'.runStream k) else s.wDeny
  else if resume then
    let s' := put s
    if s'.ringsOk k && !(st = 4 && s.fbit (F.hstAttach_LOST (s.strFn k))) then (stOK, s'.runStream k) else s.wDeny
  else (stOK, if halt then (put s).haltStream k 6 else put s)

/-- A write allowed in DISABLED, HALTED and HELD. -/
def State.strStopped (s : State) (k : Nat) : Bool := s.strState k ≠ 1 && s.strState k ≠ 2

/-- A write of STR_RING. -/
def State.strRingWrite (s : State) (k : Nat) (w : Wr) : Nat × State :=
  let l := w.fld (F.strRing_LOG2N k)
  s.wIf w (s.strStopped k && decide (4 ≤ l) && decide (l ≤ 16))

/-- A write of STR_CQ also empties the ring (R242). -/
def State.strCqWrite (s : State) (k : Nat) (w : Wr) : Nat × State :=
  let l := w.fld (F.strCq_LOG2N k)
  if s.strStopped k && decide (4 ≤ l) && decide (l ≤ 16) then
    (stOK, ((s.setReg w.reg w.new).fset (F.strCqhead_CQHEAD k) 0).modStr k fun t => { t with cqn := 0 })
  else s.wDeny

/-- A write of STR_HEAD sets TAIL to HEAD. -/
def State.strHeadWrite (s : State) (k : Nat) (w : Wr) : Nat × State :=
  if s.strStopped k then
    let h := w.fld (F.strHead_HEAD k)
    (stOK, (s.fset (F.strHead_HEAD k) h).fset (F.strHead_TAIL k) h)
  else s.wDeny

/-- A write of STR_STAT sets NEXT_SEQ of a disabled stream, whose duplicate cache is then empty. -/
def State.strStatWrite (s : State) (k : Nat) (w : Wr) : Nat × State :=
  if s.strState k = 0 then
    (stOK, (s.fset (F.strStat_NEXT_SEQ k) (w.fld (F.strStat_NEXT_SEQ k))).modStr k fun t => { t with dup := [], badF := [], badC := [] })
  else s.wDeny

/-- A write of STR_CQHEAD frees slots: records that wait take them (R225). -/
def State.strCqheadWrite (s : State) (k : Nat) (w : Wr) : Nat × State := (stOK, (s.setReg w.reg w.new).cqFlush k)

/-- A write of STR_SCNT. -/
def State.strScntWrite (s : State) (k : Nat) (w : Wr) : Nat × State := s.wIf w (decide (s.strState k = 0))

/-- A write of a lockable area base (R15, R495): refused once locked unless it leaves the locked fields; LOCK = 1 is refused while a region covers the granule (R167). -/
def State.areaWrite (s : State) (w : Wr) (lock base : Fld) : Nat × State :=
  if s.fbit lock then (if w.fld base = s.fget base ∧ w.fld lock = 1 then (stOK, s) else s.wDeny)
  else
    let a := w.fld base * 2 ^ 30
    s.wIf w (w.fld lock = 0 || ((s.mapN = 0 || decide (a + 2 ^ 30 ≤ s.mapN * 2 ^ 30)) && !s.anyRegionIn a (a + 2 ^ 30 - 1)))

/-! ### Streams of a partition that stops -/

/-- The partition's streams go to DISABLED and their started descriptors complete with TARGET_RESET (R240, R313, R417). -/
def State.streamsStop (s : State) (p : Nat) : State :=
  (s.liveStreams p).foldl (fun s k =>
    let s := ((s.discardFetched k).fset (F.strCtl_EN k) 0).setStrState k 0
    let s := (s.str k).started.foldl (fun s o => s.completeOp k o.seq stTargetReset 0 0) s
    (s.modStr k fun t => { t with colOpen := [] }).setStrState k 0) s

/-! ### The rows that are no register writes -/

def execDoorbell (f : Fin 9) (v : BitVec 64) (s : State) : Out := .next (s.doorbell f v.toNat)
def execDescriptorFetch (k : Fin 65536) (s : State) : Out := .next (s.strFetch k)
def execStreamNop (k : Fin 65536) (s : State) : Out := .next (s.strNop k)
def execStreamLaunch (k : Fin 65536) (s : State) : Out := .next (s.strLaunch k)
def execLaunchComplete (k : Fin 65536) (seq : BitVec 32) (s : State) : Out := .next (s.launchComplete k seq.toNat)
def execStreamCopy (k : Fin 65536) (s : State) : Out := .next (s.strCopy k)
def execCopyComplete (k : Fin 65536) (seq : BitVec 32) (s : State) : Out := .next (s.copyComplete k seq.toNat)
def execStreamFence (k : Fin 65536) (s : State) : Out := .next (s.strFence k)
def execStreamCommit (k : Fin 65536) (s : State) : Out := .next (s.strCommit k)
def execStreamSignal (k : Fin 65536) (s : State) : Out := .next (s.strSignal k)
def execWaitSignal (k : Fin 65536) (s : State) : Out := .next (s.strWaitOp k)
def execWaitTimeout (k : Fin 65536) (s : State) : Out := .next (s.strWaitTimeout k)
def execStreamNetwrite (k : Fin 65536) (s : State) : Out := .next (s.strNetwrite k)
def execNetwriteAck (k : Fin 65536) (seq : BitVec 32) (s : State) : Out := .next (s.netEnd k seq.toNat stOK)
def execNetwriteTimeout (k : Fin 65536) (seq : BitVec 32) (s : State) : Out := .next (s.netEnd k seq.toNat stTimeout)

end Sys2Proof.Machine
end

