-- ==== Sys2Proof/Machine/CollPlan.lean ====
section
/-! DEFINITION. What fixes a collective (R286-R289, R296, R297, R305): the descriptor's fields, element values, chunks and their owners, the order of every addition, the way of every result, and the agreement tree. -/

namespace Sys2Proof.Machine

/-! ### Descriptor fields (R286) -/

def kGroup (d : Nat) : Nat := sF d 8 11 0
def kChannel (d : Nat) : Nat := sF d 10 5 0
def kAlg (d : Nat) : Nat := sF d 11 7 4
def kOpc (d : Nat) : Nat := sF d 11 3 0
def kNarrow (d : Nat) : Bool := sF d 12 7 7 = 1
def kRedop (d : Nat) : Nat := sF d 12 6 4
def kDtype (d : Nat) : Nat := sF d 12 3 0
def kDropFail (d : Nat) : Bool := sF d 13 7 7 = 1
def kRtz (d : Nat) : Bool := sF d 13 6 6 = 1
def kFtz (d : Nat) : Bool := sF d 13 5 5 = 1
def kClog2 (d : Nat) : Nat := sF d 13 4 0
def kXor2 (d : Nat) : Bool := sF d 14 15 15 = 1
def kRoot (d : Nat) : Nat := sF d 14 14 0
def kSrc (d : Nat) : Nat := sF d 16 47 0
def kDst (d : Nat) : Nat := sF d 24 47 0
def kCount (d : Nat) : Nat := sF d 32 39 0
def kCap (d : Nat) : Nat := sF d 40 39 0
def kCnts (d : Nat) : Nat := sF d 48 47 0

/-- Elements of a chunk (R288). -/
def kCe (d : Nat) : Nat := 2 ^ kClog2 d

/-- The operation reduces: ALL_REDUCE, REDUCE_SCATTER, REDUCE. -/
def kReduces (d : Nat) : Bool := kOpc d = 0 || kOpc d = 1 || kOpc d = 6

/-- SEND or RECV. -/
def kPair (d : Nat) : Bool := kOpc d = 8 || kOpc d = 9

/-- An ALL_TO_ALLV on a padded channel (R280, R301); SEND and RECV are exact on every channel. -/
def kPadded (d : Nat) : Bool := 8 ≤ kChannel d && kOpc d = 4

/-! ### Element types (R287) -/

/-- Bytes of an element of DTYPE. -/
def dtWidth : Nat → Nat
  | 0 | 1 => 2
  | 2 | 4 | 5 => 4
  | 3 => 8
  | _ => 1

/-- The format of a floating DTYPE. -/
def dtFmt : Nat → Option FFmt
  | 0 => some fmtBF16
  | 1 => some fmtFP16
  | 2 => some fmtFP32
  | 3 => some fmtW48
  | _ => none

/-- The carry type of a DTYPE, as a DTYPE (R287). -/
def carryType (dt : Nat) (narrow : Bool) : Nat :=
  match dt with
  | 0 | 1 => if narrow then dt else 2
  | 2 => if narrow then 2 else 3
  | _ => dt

/-- Whether R287 lists the reduction for the DTYPE. -/
def redopOk (dt redop : Nat) : Bool :=
  match redop with
  | 0 | 1 | 2 => dt ≤ 5
  | 3 | 4 | 5 => 4 ≤ dt && dt ≤ 6
  | _ => false

/-- Whether R287 lists the algorithm for the operation. -/
def algOk (opc alg : Nat) : Bool :=
  match opc with
  | 0 => alg ≤ 3
  | 1 | 2 => alg ≤ 2
  | 3 | 4 | 8 | 9 => alg = 4
  | 5 => alg = 0 || alg = 3
  | 6 => alg = 0 || alg = 1 || alg = 3
  | 7 => alg = 3
  | _ => false

/-! ### Values (R296) -/

/-- The elements of a byte string, as numbers. -/
def cutElems (w : Nat) (b : Bytes) : List Nat := (chunksOf w b.length b).map leVal

/-- An element as it is accumulated: a float as its W48 pattern, exactly. -/
def toAcc (dt x : Nat) : Nat :=
  match dtFmt dt with
  | some f => fmtW48.rne (f.dec x)
  | none => x

/-- One addition of R296, `a` the left operand. -/
def combine (dt redop a b : Nat) : Nat :=
  match dtFmt dt with
  | some _ =>
    match redop with
    | 0 => w48Add a b
    | 1 => fmtW48.rne (numMin (fmtW48.dec a) (fmtW48.dec b))
    | _ => fmtW48.rne (numMax (fmtW48.dec a) (fmtW48.dec b))
  | none =>
    let le := fun (x y : Nat) => if dt = 5 then decide (sextN 32 x ≤ sextN 32 y) else decide (x ≤ y)
    match redop with
    | 0 => (a + b) % 2 ^ 32
    | 1 => if le a b then a else b
    | 2 => if le a b then b else a
    | 3 => Nat.xor a b
    | 4 => Nat.land a b
    | _ => Nat.lor a b

/-- A partial's element as it leaves on the wire: carry() (R296). -/
def toCarry (dt : Nat) (narrow : Bool) (x : Nat) : Bytes :=
  let c := carryType dt narrow
  match dtFmt c with
  | some f => if c = 3 then leBytes 8 x else leBytes (dtWidth c) (convert f .rne false (fmtW48.dec x)).1
  | none => leBytes (dtWidth c) x

/-- The final conversion of a total's element, and whether R291 counts it. -/
def finalConv (d x : Nat) : Bytes × Bool :=
  let dt := kDtype d
  match dtFmt dt with
  | some f =>
    if dt = 3 then (leBytes 8 x, false)
    else
      let r := convert f (if kRtz d then .rtz else .rne) (kFtz d) (fmtW48.dec x)
      (leBytes (dtWidth dt) r.1, decide (kRedop d = 0) && (r.2 = .sat || r.2 = .flush || r.2 = .nan || r.2 = .inf))
  | none => (leBytes (dtWidth dt) x, false)

/-! ### Chunks (R288, R297) -/

/-- Chunks of a block of `n` elements. -/
def blockChunks (d n : Nat) : Nat := ceilDiv n (kCe d)

/-- The vector is P blocks of COUNT, and no chunk crosses a block: REDUCE_SCATTER and ALL_GATHER. -/
def kBlocked (d : Nat) : Bool := kOpc d = 1 || kOpc d = 2

/-- Chunks of an operation on P members. -/
def opChunks (d p : Nat) : Nat := (if kBlocked d then p else 1) * blockChunks d (kCount d)

/-- First element and length of chunk `q`. -/
def chunkSpan (d q : Nat) : Nat × Nat :=
  let ce := kCe d
  let n := kCount d
  if kBlocked d then
    let b := blockChunks d n
    let j := q % b
    (q / b * n + j * ce, min ce (n - j * ce))
  else (q * ce, min ce (n - q * ce))

/-- The owner of chunk `q` (R297): the member that completes its total, or that its data come from. -/
def chunkOwner (d p q : Nat) : Nat :=
  match kOpc d with
  | 0 => if kAlg d = 3 then 0 else q % p
  | 1 | 2 => q / blockChunks d (kCount d)
  | _ => kRoot d

/-! ### Orders (R297) -/

/-- The members before and after position `c` in the ring of length `n` that begins after `e` and ends at `e`, in direction + or -. -/
def ringNbrs (n e c : Nat) (fwd : Bool) : Option Nat × Option Nat :=
  if n < 2 then (none, none)
  else
    let i := if fwd then (c + n - e) % n else (e + n - c) % n
    let up := (c + 1) % n
    let dn := (c + n - 1) % n
    (if i = 1 then none else some (if fwd then dn else up), if i = 0 then none else some (if fwd then up else dn))

/-- Coordinates of a rank in a shape (R283). -/
def shapeCoords (sh : Nat × Nat × Nat) (r : Nat) : List Nat := [r % sh.1, r / sh.1 % sh.2.1, r / (sh.1 * sh.2.1)]

/-- The rank at coordinates. -/
def shapeRank (sh : Nat × Nat × Nat) (c : List Nat) : Nat := c.getD 0 0 + sh.1 * (c.getD 1 0 + sh.2.1 * c.getD 2 0)

/-- The length of an axis. -/
def shapeLen (sh : Nat × Nat × Nat) (a : Nat) : Nat := [sh.1, sh.2.1, sh.2.2].getD a 1

/-- BIRING runs odd chunks in reverse. -/
def ringFwd (alg q : Nat) : Bool := !(alg = 1 && q % 2 = 1)

/-- What member `r` does for chunk `q` owned by `o`: the partials it takes, in order, each on the left (`true`) or the right of its own value, and where its own partial goes. -/
def redPlan (alg p o q r : Nat) (sh : Nat × Nat × Nat) : List (Nat × Bool) × Option Nat :=
  if alg = 3 then
    let v := (r + p - o) % p
    let low := (List.range 16).find? fun k => v % 2 ^ (k + 1) ≠ 0
    let kids := ((List.range 16).filter fun k => (match low with | some l => decide (k < l) | none => true) && decide (v + 2 ^ k < p)).map fun k => ((v + 2 ^ k + o) % p, false)
    (kids, low.map fun k => (v - 2 ^ k + o) % p)
  else if alg = 2 then
    let c := shapeCoords sh r
    let oc := shapeCoords sh o
    (List.range 3).foldl (fun (acc : List (Nat × Bool) × Option Nat) a =>
      if (List.range a).all fun b => c.getD b 0 = oc.getD b 0 then
        let n := ringNbrs (shapeLen sh a) (oc.getD a 0) (c.getD a 0) true
        let at' := fun (x : Nat) => shapeRank sh (c.set a x)
        (acc.1 ++ (n.1.map fun x => (at' x, true)).toList, match n.2 with | some x => some (at' x) | none => acc.2)
      else acc) ([], none)
  else
    let n := ringNbrs p o r (ringFwd alg q)
    ((n.1.map fun x => (x, true)).toList, n.2)

/-- The members a member passes chunk `q` of owner `o` on to, in order (R297). -/
def distTo (alg p o q r : Nat) (sh : Nat × Nat × Nat) : List Nat :=
  if alg = 3 then ((redPlan 3 p o q r sh).1.map (·.1)).reverse
  else if alg = 2 then
    let c := shapeCoords sh r
    let oc := shapeCoords sh o
    ([2, 1, 0].filterMap fun a =>
      let n := shapeLen sh a
      let x := (c.getD a 0 + 1) % n
      if ((List.range a).all fun b => c.getD b 0 = oc.getD b 0) ∧ 1 < n ∧ x ≠ oc.getD a 0 then some (shapeRank sh (c.set a x)) else none)
  else
    let x := if ringFwd alg q then (r + 1) % p else (r + p - 1) % p
    if x = o then [] else [x]

/-- The member a member has chunk `q` of owner `o` from. -/
def distFrom (alg p o q r : Nat) (sh : Nat × Nat × Nat) : Nat :=
  if alg = 3 then ((redPlan 3 p o q r sh).2).getD o
  else if alg = 2 then
    let c := shapeCoords sh r
    let oc := shapeCoords sh o
    match (List.range 3).find? fun a => c.getD a 0 ≠ oc.getD a 0 with
    | some a => let n := shapeLen sh a; shapeRank sh (c.set a ((c.getD a 0 + n - 1) % n))
    | none => o
  else if ringFwd alg q then (r + p - 1) % p
  else (r + 1) % p

/-! ### The agreement tree (R305) -/

/-- The parent of a rank: its lowest set bit cleared; rank 0 has none. -/
def treeParent (r : Nat) : Option Nat :=
  ((List.range 16).find? fun k => bitAt r k).map fun k => r - 2 ^ k

/-- The children of a rank among P. -/
def treeKids (r p : Nat) : List Nat :=
  let low := ((List.range 16).find? fun k => bitAt r k).getD 16
  ((List.range low).map fun k => r + 2 ^ k).filter (· < p)

end Sys2Proof.Machine
end

