-- ==== Sys2Proof/Machine/Route.lean ====
section
/-! DEFINITION. Links and the fabric (R250-R270): routing, credits, flits and frames on the way out, and a link going DOWN. -/

namespace Sys2Proof.Machine

/-! ### A link's state -/

/-- Link `l` beside its registers. -/
def State.link (s : State) (l : Nat) : LinkS := Sparse.getD (fun _ => LinkS.init) s.links l

/-- Change link `l`. -/
def State.modLink (s : State) (l : Nat) (f : LinkS → LinkS) : State :=
  { s with links := Sparse.setD (fun _ => LinkS.init) s.links l (f (s.link l)) }

/-- The I/O die of a link (R30). -/
def linkDie (l : Nat) : Nat := if l < 32 then 8 else 9

/-- LNK_STAT.STATE: 0 DOWN, 1 TRAINING, 2 HELLO, 3 UP, 4 MGMT_ONLY, 5 REJECTED. -/
def State.linkState (s : State) (l : Nat) : Nat := s.fget (F.lnkStat_STATE l)

/-- The generation of a link: 0 base mode, 2 or 3 (R258). -/
def State.linkGen (s : State) (l : Nat) : Nat := s.fget (F.lnkStat_GEN l)

/-- Enter a state with a reason, and emit LINK_STATE (R446). -/
def State.setLinkState (s : State) (l st reason : Nat) : State :=
  let s := (s.fset (F.lnkStat_STATE l) st).fset (F.lnkStat_REASON l) reason
  s.tail (2112 + l) 0x50 (linkDie l) (s.partOfUnit (unitLink l) 0) (st + 8 * reason)

/-- A link's error record, at most one a second (R276). -/
def State.linkError (s : State) (l code cls addr : Nat) : State :=
  s.error { unit := unitLink l, code := code, cls := cls, addr := addr, every := oneSecond }

/-- The physical link that carries logical link `k` (R262). -/
def State.physLink (s : State) (k : Nat) : Nat := s.fget (F.lnkMap_PHYS k)

/-- A physical link is live: UP and not retraining (R266). -/
def State.linkLive (s : State) (l : Nat) : Bool := s.linkState l = 3 && !s.fbit (F.lnkStat_RETRAIN l)

/-- The live logical links of a mask, lowest first. -/
def State.liveOf (s : State) (mask : Nat) : List Nat := (onesOf 64 mask).filter fun k => s.linkLive (s.physLink k)

/-- The device's DEVID. -/
def State.devid (s : State) : Nat := s.fget F.rteCfg_DEVID

/-! ### The torus (R30, R163, R263) -/

/-- The axis of a logical link, 0 X, 1 Y, 2 Z, and whether it points in the + direction; none for express links. -/
def linkAxis (k : Nat) : Option (Nat × Bool) := if k < 60 then some (k / 20, k / 10 % 2 = 0) else none

/-- Coordinate `a` of a DEVID. -/
def coordOf (d a : Nat) : Nat := bitsOf d (14 - 5 * a) (10 - 5 * a)

/-- The length of axis `a`. -/
def State.axisLen (s : State) (a : Nat) : Nat := bitsOf (s.reg .rteShape) (5 * a + 4) (5 * a) + 1

/-- The wrap offset T(a → b) (R263). -/
def State.twist (s : State) (a b : Nat) : Nat :=
  let f : Nat → Nat → Option Nat := fun
    | 0, 1 => some 15 | 0, 2 => some 20 | 1, 0 => some 25 | 1, 2 => some 30 | 2, 0 => some 35 | 2, 1 => some 40 | _, _ => none
  match f a b with
  | some lo => bitsOf (s.reg .rteShape) (lo + 4) lo
  | none => 0

/-- One position along axis `a`: crossing the wrap moves the other axes by its offsets (R263). -/
def State.torusStep (s : State) (a : Nat) (plus : Bool) (c : List Nat) : List Nat :=
  let n := s.axisLen a
  let x := c.getD a 0
  let wrap := if plus then x = n - 1 else x = 0
  (List.range 3).map fun b =>
    let y := c.getD b 0
    let m := s.axisLen b
    if b = a then (if plus then (x + 1) % n else (x + n - 1) % n)
    else if !wrap then y
    else if plus then (y + s.twist a b) % m else (y + m - s.twist a b % m) % m

/-- The DEVID `k` positions from this device along link `l`'s axis and direction. -/
def State.alongLink (s : State) (l k : Nat) : Option Nat :=
  match linkAxis l with
  | none => none
  | some (a, plus) =>
    let c := (List.range k).foldl (fun c _ => s.torusStep a plus c) [coordOf s.devid 0, coordOf s.devid 1, coordOf s.devid 2]
    some (c.getD 0 0 * 1024 + c.getD 1 0 * 32 + c.getD 2 0)

/-- The paired port of a link (R30). -/
def pairedPort (l : Nat) : Nat := if l / 10 % 2 = 0 then l + 10 else l - 10

/-- A link crosses its axis's wrap (R267). -/
def State.crossesWrap (s : State) (k : Nat) : Bool :=
  match linkAxis k with
  | some (a, true) => coordOf s.devid a + 1 = s.axisLen a
  | some (a, false) => coordOf s.devid a = 0
  | none => false

/-! ### Sending on a link -/

/-- A message in 16-byte units, header included. -/
def msgUnits (m : Msg) : Nat := 2 + ceilDiv m.data.length 16

/-- The sub-channel of a message (R264). -/
def msgSub (m : Msg) : Nat := m.cls.toNat * 3 + m.sub.toNat

/-- Credit that a sub-channel holds. -/
def State.credit (s : State) (l c : Nat) : Nat := Sparse.getD (fun _ => 0) (s.link l).cred c

/-- A link in state `st` carries a message: REQ, RSP and COL only when UP, MGT when not REJECTED, a HELLO always (R258, R261). -/
def carries (st : Nat) (m : Msg) : Bool :=
  if m.cls = 3 then st = 2 || st = 3 || st = 4 || (st = 5 && m.typ = 1) else st = 3

/-- The bytes of a message: header and data, padded to 16-byte units (R254). -/
def msgBytes (m : Msg) : Bytes :=
  let u := msgUnits m - 2
  mkRec 16 [(0, 2, m.dst.toNat), (2, 2, m.src.toNat),
    (4, 1, m.cls.toNat + 4 * m.sub.toNat + (if m.ordered then 16 else 0) + (if m.det then 32 else 0)), (5, 1, m.ttl.toNat), (6, 2, u), (8, 1, m.typ.toNat)]
  ++ (m.hdr ++ zeroBytes 16).take 16 ++ m.data ++ zeroBytes (16 * u - m.data.length)

/-- The 96-bit IV: the link salt and FSEQ (R274). -/
def linkIv (key fseq : Nat) : Bytes := leBytes 4 (Config.deriveKey key [0x73]) ++ leBytes 8 fseq

/-- A generation 3 frame of TYPE `kind` with payload `p` and FSEQ `q`: encrypted, with its tag, where the link encrypts, else with its CRC (R253, R274). -/
def State.frameBytes (s : State) (l kind q : Nat) (p : Bytes) : Bytes :=
  let k := s.link l
  let enc := s.fbit (F.lnkStat_ENC_ACTIVE l)
  let h := mkRec 32 [(0, 8, q), (8, 2, p.length / 16), (10, 1, kind), (11, 1, (if enc then 1 else 0) + (if k.kep then 2 else 0)), (12, 1, l)]
  match enc, k.txKey with
  | true, some key =>
    let iv := linkIv key q
    h ++ gcmCipher key iv h p ++ leBytes 16 (Config.gcmTag key iv h p).toNat
  | _, _ => h ++ p ++ leBytes 8 (crc64xz (h ++ p)) ++ zeroBytes 8

/-- A base-mode or generation 2 frame of one message: a 24-byte header with the places of R253, the message, a CRC (R257; log entry 155). -/
def baseFrameOf (l q : Nat) (m : Msg) : Bytes :=
  let b := mkRec 24 [(0, 8, q), (8, 2, msgUnits m), (12, 1, l)] ++ msgBytes m
  b ++ leBytes 8 (crc64xz b)

/-- The frames that carry messages which leave together, each with the messages that end in it: on generation 3 every frame but the last is full (R255), else each message has its own (R257). -/
def State.frameList (s : State) (l : Nat) (ms : List Msg) : List (Bytes × List Msg) :=
  let q := (s.link l).fseq
  if s.linkGen l = 3 then
    let b := (ms.map msgBytes).flatten
    let ends := ms.zipIdx.map fun x => (x.1, ((ms.take (x.2 + 1)).map fun m => 16 * msgUnits m).sum)
    (List.range (ceilDiv b.length 4096)).map fun i =>
      (s.frameBytes l 0 (q + i) ((b.drop (4096 * i)).take 4096),
        (ends.filter fun e => decide (4096 * i < e.2) && decide (e.2 ≤ 4096 * (i + 1))).map (·.1))
  else ms.zipIdx.map fun x => (baseFrameOf l (q + x.2) x.1, [x.1])

/-- Bytes of frame stream in a flit (R252, R257). -/
def flitRoom (g : Nat) : Nat := if g = 3 then 240 else 112

/-- Frames of TYPE `kind` leave on link `l` without gaps, from a fresh flit on, and stay in the replay buffer (R252, R253, R256). -/
def State.sendFrames (s : State) (l kind : Nat) (fs : List (Bytes × List Msg)) : State :=
  let k := s.link l
  let n := flitRoom (s.linkGen l)
  let r := fs.foldl (fun (a : Nat × List TxFrame) f =>
    let stop := a.1 + f.1.length
    (stop, a.2 ++ [⟨(k.flTx + (stop - 1) / n) % 65536, kind, f.1, f.2⟩])) (0, [])
  let s := s.modLink l fun k =>
    { k with flTx := (k.flTx + ceilDiv r.1 n) % 65536, fseq := k.fseq + fs.length, unacked := k.unacked ++ r.2 }
  fs.foldl (fun s f => s.emit (.frame l kind f.1)) s

/-- Messages leave on link `l`, one after another. -/
def State.sendMsgs (s : State) (l : Nat) (ms : List Msg) : State :=
  if ms.isEmpty then s else (ms.foldl (fun (s : State) m => s.emit (.link l m)) s).sendFrames l 0 (s.frameList l ms)

/-- Flits sent and not acknowledged (R256). -/
def LinkS.inFlight (k : LinkS) : Nat := (k.flTx + 65536 - k.flAck) % 65536

/-- The oldest message that waits on sub-channel `c` of link `l`. -/
def State.txHead (s : State) (l c : Nat) : Option TxMsg := (s.link l).txq.find? fun t => msgSub t.m = c

/-- The sub-channels whose oldest message may leave after `n` bytes of others: the link carries it, credit covers it whole (R264), and the 4,096 flits of the replay buffer take it (R256; log entry 156). -/
def State.txReady (s : State) (l n : Nat) : List Nat :=
  (List.range 12).filter fun c => match s.txHead l c with
    | none => false
    | some t =>
      !s.failed && carries (s.linkState l) t.m && decide (msgUnits t.m ≤ s.credit l c)
      && decide ((s.link l).inFlight + ceilDiv (n + 16 * msgUnits t.m + 48 * (ceilDiv n 4096 + 18)) (flitRoom (s.linkGen l)) ≤ 4096)

/-- The messages that leave now, in the order of the link's transmit arbiter, one decision each (R334, R338). -/
def State.takeTx (s : State) (l : Nat) : Nat → Nat → List Msg × State
  | 0, _ => ([], s)
  | k + 1, n =>
    match s.arbitrate (linkDie l) 6 l (s.txReady l n) none with
    | (none, _) => ([], s)
    | (some c, s') =>
      match s.txHead l c with
      | none => ([], s)
      | some t =>
        let s := s'.modLink l fun k =>
          { k with txq := k.txq.erase t, cred := Sparse.setD (fun _ => 0) k.cred c (Sparse.getD (fun _ => 0) k.cred c - msgUnits t.m) }
        let r := State.takeTx s l k (n + 16 * msgUnits t.m)
        (t.m :: r.1, r.2)

/-- Send what may leave on link `l`. -/
def State.pump (s : State) (l : Nat) : State :=
  let r := s.takeTx l (s.link l).txq.length 0
  r.2.sendMsgs l r.1

/-- Piece `i` of a message cut at `n` data bytes (R257, R292): consecutive writes for REQ, pieces with their own trailers for COL, consecutive messages for RSP. -/
def msgPiece (m : Msg) (n i : Nat) : Msg :=
  if m.cls = 2 then
    let body := m.data.take (m.data.length - 16)
    let tr := m.data.drop (m.data.length - 16)
    let p := (body.drop (i * n)).take n
    let last := decide (body.length ≤ (i + 1) * n)
    let off := recField tr 12 2 % 8192 + i * n / 16
    let l := if last && bitAt (recField tr 14 1) 0 then 1 else 0
    { m with data := p ++ recPut (recPut tr 12 (leBytes 2 off)) 14 (leBytes 1 l) }
  else
    let p := (m.data.drop (i * n)).take n
    if m.cls = 0 ∧ m.typ = 2 then { m with hdr := recPut m.hdr 0 (leBytes 8 (recField m.hdr 0 8 + i * n)), data := p }
    else { m with data := p }

/-- A message as it enters a link of generation `g` (R257, R292): at most 2,048 bytes with its header on generation 2, a collective piece at most 1,984 bytes beside its trailer. A management message that is longer is cut into consecutive ones as a response is (DESIGN CHOICE, log entry 157). -/
def splitFor (g : Nat) (m : Msg) : List Msg :=
  let n := if m.cls = 2 then (if g = 3 then 32768 else 1984) else if g = 3 then 65536 else 2016
  let len := if m.cls = 2 then m.data.length - 16 else m.data.length
  if len ≤ n then [m] else (List.range (ceilDiv len n)).map (msgPiece m n)

/-- Put a message on link `l`; it came on axis `inAx` as `orig`. -/
def State.putLink (s : State) (l : Nat) (m : Msg) (inAx : Option Nat) (orig : Msg) : State :=
  (s.modLink l fun k => { k with txq := k.txq ++ (splitFor (s.linkGen l) m).map fun x => ⟨x, inAx, orig.sub, orig.det⟩ }).pump l

/-! ### Routing (R266-R268) -/

/-- This device is the message's destination (R164, R279). -/
def State.isLocal (s : State) (m : Msg) : Bool :=
  m.dst.toNat = s.devid || (s.fbit (F.rteEntc_VALID m.dst.toNat) && s.fbit (F.rteEntc_LOCAL m.dst.toNat))

/-- The sub-channel a message takes on logical link `k`, having come on axis `inAx` (R267). -/
def State.dateline (s : State) (m : Msg) (inAx : Option Nat) (k : Nat) : BitVec 2 :=
  if m.sub = 2 then 2
  else
    match linkAxis k with
    | none => 0
    | some (a, _) => if s.crossesWrap k then 1 else if inAx = some a then m.sub else 0

/-- The logical link a message leaves on (R266), with the message as it leaves; none when it is UNREACHABLE. The masks of a LOCAL entry are ignored (R279; log entry 158). -/
def State.pickLink (s : State) (m : Msg) (inAx : Option Nat) : Option (Nat × Msg) :=
  let d := m.dst.toNat
  if !s.fbit (F.rteEntc_VALID d) || s.fbit (F.rteEntc_LOCAL d) then none
  else if m.sub = 2 then
    let k := s.fget (F.rteEntc_ESC_LINK d)
    if s.fbit (F.rteEntc_ESC_VALID d) && s.linkLive (s.physLink k) then some (k, m) else none
  else
    let e := Sparse.getD (fun _ => (0, 0)) s.rte d
    let pri := s.liveOf e.1
    let live := if pri.isEmpty then s.liveOf e.2 else pri
    let m := if pri.isEmpty then { m with det := true } else m
    let out := fun (k : Nat) => (k, { m with sub := s.dateline m inAx k })
    if live.isEmpty then none
    else if m.ordered then
      some (out (live.getD ((m.src.toNat * 7 + d * 13 + m.cls.toNat) % live.length) 0))
    else
      let cr := fun (k : Nat) => s.credit (s.physLink k) (msgSub (out k).2)
      (live.foldl (fun (b : Option Nat) k => match b with
        | none => some k
        | some x => if cr x < cr k then some k else b) none).map out

/-- Try to route a message; the flag says whether it left. -/
def State.routeTry (s : State) (m : Msg) (inAx : Option Nat) (die : Nat) : Bool × State :=
  match s.pickLink m inAx with
  | some (k, m') => (true, s.putLink (s.physLink k) m' inAx m)
  | none => (false, s.error { unit := unitDie die, code := 0x89, cls := 1, addr := m.dst.toNat, every := oneSecond })

/-- An RSP to a REQ: its tag and a status (R254). -/
def rspTo (own : Nat) (m : Msg) (status : Nat) (data : Bytes) : Msg where
  dst := m.src
  src := BitVec.ofNat 15 own
  cls := 1
  sub := 0
  ordered := false
  det := false
  ttl := 63
  typ := Config.rspType
  hdr := recPut (recPut (zeroBytes 16) 0 ((m.hdr.drop 12).take 4)) 4 (leBytes 1 status)
  data := data ++ zeroBytes (roundUp data.length 16 - data.length)

/-- A message was discarded: a REQ is answered with PEER_LOST (R268). -/
def State.routeFailed (s : State) (m : Msg) (die : Nat) : State :=
  if m.cls = 0 then (s.routeTry (rspTo s.devid m stPeerLost []) none die).2 else s

/-- A message made by this device leaves with TTL 63 on DL0 (R267, R268). -/
def State.sendMsg (s : State) (m : Msg) : State :=
  let m := { m with src := BitVec.ofNat 15 s.devid, ttl := 63, sub := 0, det := false }
  let r := s.routeTry m none 8
  if r.1 then r.2 else r.2.routeFailed m 8

/-- The axis of the logical link that physical link `l` carries. -/
def State.axisOfPhys (s : State) (l : Nat) : Option Nat :=
  ((List.range 64).find? fun k => s.physLink k = l).bind fun k => (linkAxis k).map (·.1)

/-- A message that arrived on link `l` is forwarded (R266-R268). -/
def State.forward (s : State) (l : Nat) (m : Msg) : State :=
  let die := linkDie l
  if m.ttl ≤ 1 then
    let s := s.error { unit := unitDie die, code := 0x8A, cls := 1, addr := m.dst.toNat, every := oneSecond }
    s.routeFailed m die
  else
    let m := { m with ttl := m.ttl - 1 }
    let r := s.routeTry m (s.axisOfPhys l) die
    if r.1 then r.2 else r.2.routeFailed m die

/-! ### A link leaves the route masks (R251, R256, R269) -/

/-- Entries that have fallen to DETOUR because physical link `l` is no longer live (R276). -/
def State.detours (s : State) (l : Nat) : State :=
  (s.rte).foldl (fun s e =>
    if s.fbit (F.rteEntc_VALID e.1) && !s.fbit (F.rteEntc_LOCAL e.1)
        && (onesOf 64 e.2.1).any (fun k => s.physLink k = l) && (s.liveOf e.2.1).isEmpty && !(s.liveOf e.2.2).isEmpty then
      s.error { unit := unitDie (linkDie l), code := 0x88, cls := 0, addr := e.1, every := oneSecond }
    else s) s

/-- The operation of this device that sent a COL chunk message, and the chunk's place in it. -/
def State.colSender (s : State) (m : Msg) : Option (ColOp × ChunkRef) :=
  let g := recField m.hdr 0 2 % 4096
  let pair := bitAt (recField m.hdr 13 1) 6
  (s.cops.find? fun o => decide (o.id.grp.val = g) && decide (o.epoch = recField m.hdr 2 2) && decide (o.id.seq.toNat = recField m.hdr 4 4)
    && (if pair then o.id.kind = 1 && o.members.getD o.id.peer.toNat 0 = m.dst.toNat else o.id.kind = 0)).map fun o =>
    (o, ⟨recField m.hdr 12 1, recField m.hdr 8 4, (findIdx? (· = m.dst.toNat) o.members).getD 0⟩)

/-- A lost COL piece of this device whose chunk is not yet acknowledged (R321); a FINAL this member forwards is acknowledged to its owner only, so its piece is always sent again. -/
def State.colUnacked (s : State) (m : Msg) : Bool :=
  m.cls = 2 && m.src.toNat = s.devid && decide (recField m.hdr 12 1 ≤ 2) &&
  match s.colSender m with
  | some (o, c) =>
    if c.kind = 1 then o.holds.any (fun h => h.q = c.q && h.need.contains c.rank) || o.good.any (fun g => g.kind = 1 && g.q = c.q)
    else o.txs.any fun t => t.ref = c && t.sent
  | none => false

/-- Messages that waited on a link which no longer takes them are routed again, as they came (R266-R269). -/
def State.reroute (s : State) (l : Nat) (ts : List TxMsg) : State :=
  ts.foldl (fun s t =>
    let m := { t.m with sub := t.inSub, det := t.inDet }
    let r := s.routeTry m t.inAx (linkDie l)
    if r.1 then r.2 else r.2.routeFailed m (linkDie l)) s

/-- An UP link becomes MGMT_ONLY or REJECTED: entries may fall to DETOUR, and what it no longer carries takes another link (R261, R276; log entry 85). -/
def State.leaveUp (s : State) (l : Nat) : State :=
  let off := fun (t : TxMsg) => !carries (s.linkState l) t.m
  let q := (s.link l).txq.filter off
  ((s.modLink l fun k => { k with txq := k.txq.filter fun t => !off t }).detours l).reroute l q

/-- The direction in which dimension-order routing leaves for DEVID `d`: the first axis whose coordinate differs, the shorter way round, + on a tie. -/
def State.escDir (s : State) (d : Nat) : Option (Nat × Bool) :=
  ((List.range 3).find? fun a => coordOf d a ≠ coordOf s.devid a).map fun a =>
    let n := s.axisLen a
    (a, decide (2 * ((coordOf d a + n - coordOf s.devid a) % n) ≤ n))

/-- The link manager's ESC_LINK for DEVID `d` (R267): the lowest live torus link in that direction, else in the other (log entry 159). -/
def State.escLink (s : State) (d : Nat) : Option Nat :=
  match s.escDir d with
  | none => none
  | some (a, plus) =>
    let on := fun (b : Bool) => (List.range 10).map fun i => 20 * a + (if b then 0 else 10) + i
    (on plus ++ on (!plus)).find? fun k => s.linkLive (s.physLink k)

/-- The link manager rewrites the entries whose escape route uses physical link `l` (R267, R269). -/
def State.escRewrite (s : State) (l : Nat) : State :=
  s.rte.foldl (fun s e =>
    if s.fbit (F.rteEntc_VALID e.1) && s.fbit (F.rteEntc_ESC_VALID e.1) && decide (s.physLink (s.fget (F.rteEntc_ESC_LINK e.1)) = l) then
      match s.escLink e.1 with
      | some k => s.fset (F.rteEntc_ESC_LINK e.1) k
      | none => s
    else s) s

/-- The link manager's rewriting of routes waits for the commit while a Transit runs (R393). -/
def State.escManage (s : State) (l : Nat) : State :=
  if s.fw.transit then { s with deferred := s.deferred ++ [.routes l] } else s.escRewrite l

/-- A link goes DOWN (R256, R269, R321): the messages of its unacknowledged frames are lost but for this device's own unacknowledged COL pieces, which are sent again at once; messages that had not begun take another link; those received whole stay. -/
def State.linkDown (s : State) (l : Nat) : State :=
  if s.linkState l = 0 then s
  else
    let k := s.link l
    let s := { s with links := Sparse.setD (fun _ => LinkS.init) s.links l { LinkS.init with rx := k.rx } }
    let s := s.setReg (.lnkStat l) 0
    let s := (s.fset (F.lnkPeerId_VALID l) 0).setLinkState l 0 0
    let s := s.linkError l 0x82 1 0
    let s := (s.detours l).escManage l
    let s := (k.unacked.flatMap (·.msgs)).foldl (fun s m =>
      if s.colUnacked m then
        let s := s.fsat (F.colChcnt_RESEND (recField m.hdr 13 1 % 64)) 1
        (s.routeTry { m with sub := 0, det := false } none (linkDie l)).2
      else s) s
    s.reroute l k.txq

end Sys2Proof.Machine
end

