-- ==== Sys2Proof/Machine/Link.lean ====
section
/-! DEFINITION. Links (R251-R279): discovery and policy, flits and frames received, wavelengths, keys, Eclipse, markers, and writes to the link and route registers. -/

namespace Sys2Proof.Machine

/-! ### Lasers and Eclipse (R271, R438) -/

/-- The Eclipse pair of a link (R30, R271). -/
def pairOf (l : Nat) : Option Nat := if l < 60 then some (l / 20 * 10 + l % 10) else none

/-- The two links of a pair. -/
def pairLinks (p : Nat) : List Nat := let l := p / 10 * 20 + p % 10; [l, l + 10]

/-- The lasers of link `l` may emit (R438). -/
def State.laserOn (s : State) (l : Nat) : Bool :=
  s.fbit (F.lnkCfg_EN l) && decide (7 ≤ s.fget F.bootStatus_STAGE)
  && (match pairOf l with | some p => s.fget (F.lnkEcl_STATE p) = 0 | none => true)
  && !s.fbit F.safStat_WDOG && !s.failed && !s.tripped && !bitAt (s.reg .safLaser) l && s.usable (unitLink l)

/-- A switch has settled: through while the rail drives it and FORCE is 0 (R271). -/
def State.eclSettled (s : State) (p : Nat) : State :=
  s.fset (F.lnkEcl_STATE p) (if s.fbit (F.lnkEcl_FORCE p) || !s.eclRail then 1 else 0)

/-- A write of LNK_ECL: the pair moves when its drive changes. -/
def State.lnkEclWrite (s : State) (p : Nat) (w : Wr) : Nat × State :=
  let old := s.fbit (F.lnkEcl_FORCE p)
  let s := s.setReg w.reg w.new
  (stOK, if old ≠ s.fbit (F.lnkEcl_FORCE p) && s.eclRail then s.fset (F.lnkEcl_STATE p) 2 else s)

/-! ### HELLO (R259, R260) -/

/-- The number of the device's management-plane key (R353). -/
def keyMgmt : Nat := 1

/-- A class MGT message between link neighbours (R387): sent by the link manager; its destination is not known before discovery. -/
def mgtMsg (own dst typ : Nat) (data : Bytes) : Msg where
  dst := BitVec.ofNat 15 dst
  src := BitVec.ofNat 15 own
  cls := 3
  sub := 0
  ordered := false
  det := false
  ttl := 63
  typ := BitVec.ofNat 8 typ
  hdr := recPut (zeroBytes 16) 0 (leBytes 1 6)
  data := data ++ zeroBytes (roundUp data.length 16 - data.length)

/-- Send a link-neighbour message: in base mode, and on a REJECTED link, which need no credit (log entry 22), at once; else as every message, when its credit is held (R264). -/
def State.sendBase (s : State) (l typ : Nat) (data : Bytes) : State :=
  let (w, s) := s.draw
  let m := mgtMsg s.devid (w.toNat % 32768) typ data
  if s.linkGen l = 0 ∨ s.linkState l = 5 then s.sendMsgs l [m] else s.putLink l m none m

/-- The security module offers its services (R350, R351). -/
def State.secOn (s : State) : Bool := s.fget F.secStat_MSTATE = 1

/-- Bytes 0-61 of a HELLO of link `l`. -/
def State.helloBody (s : State) (l nonce echo : Nat) : Bytes :=
  mkRec 62 [(0, 2, 1), (2, 2, l), (4, 2, s.devid), (6, 1, 12), (7, 1, if s.fbit (F.lnkCfg_ENC l) then 1 else 0),
    (8, 6, s.fget F.hstId0_SERIAL), (16, 4, s.fget F.rteCfg_TOPO_EPOCH), (20, 4, s.fget F.mgtFwstat_FW_VERSION),
    (24, 8, nonce), (32, 8, echo), (40, 8, s.now (linkDie l))]

/-- Send a HELLO. -/
def State.sendHello (s : State) (l echo : Nat) : State :=
  let b := s.helloBody l (s.link l).nonce echo
  s.sendBase l 1 (b ++ leBytes 114 (Config.ed448Sign keyMgmt b).toNat)

/-- A fresh attempt: a new NONCE from the DRBG and a HELLO with ECHO 0 (R260); none while the module offers no service. -/
def State.freshHello (s : State) (l : Nat) : State :=
  if !s.secOn then s else
  let (w, s) := s.draw
  (s.modLink l fun k => { k with nonce := w.toNat, retry := false }).sendHello l 0

/-- The link becomes REJECTED (R261, R276). -/
def State.rejectLink (s : State) (l reason : Nat) : State :=
  let was := s.linkState l
  let s := s.setLinkState l 5 reason
  let s := if was = 5 then s else s.linkError l 0x86 1 0
  if was = 3 then s.leaveUp l else s

/-- The link becomes MGMT_ONLY (R258, R261, R276). -/
def State.mgmtLink (s : State) (l reason : Nat) : State :=
  let was := s.linkState l
  let s := s.setLinkState l 4 reason
  let s := if was = 4 then s else s.linkError l 0x85 1 reason
  if was = 3 then s.leaveUp l else s

/-! ### Keys (R274, R275) -/

/-- The number of the key of the direction that device `d`'s link `l` sends, from an established secret. -/
def dirKey (secret d l : Nat) : Nat := Config.deriveKey secret (leBytes 2 d ++ leBytes 1 l)

/-- Start a key establishment; none while the module offers no service. -/
def State.startKem (s : State) (l : Nat) : State :=
  if !s.secOn then s else
  let (w, s) := s.draw
  (s.modLink l fun k => { k with kem := true }).sendBase l 3 (Config.kemMessage w.toNat)

/-- A key has been established: the transmitter inverts KEPOCH and restarts FSEQ, the receiver holds both keys; the first key brings the link UP. -/
def State.keyDone (s : State) (l secret : Nat) : State :=
  let peer := s.fget (F.lnkPeerId_DEVID l)
  let pport := s.fget (F.lnkPeerInfo_PORT l)
  let first := !s.fbit (F.lnkStat_ENC_ACTIVE l)
  let s := s.modLink l fun k =>
    let rx := some (dirKey secret peer pport)
    let kep := if first then k.kep else !k.kep
    let rkep := if first then k.rxKep else !k.rxKep
    { k with
      txKey := some (dirKey secret s.devid l), kep := kep, fseq := 0, kem := false, kemFails := 0
      rxKey0 := if rkep then k.rxKey0 else rx, rxKey1 := if rkep then rx else k.rxKey1 }
  if first then (s.fset (F.lnkStat_ENC_ACTIVE l) 1).setLinkState l 3 0 else s

/-- An establishment has failed: retried three times, then the link goes DOWN with REKEY_FAIL. -/
def State.keyFailed (s : State) (l : Nat) : State :=
  let n := (s.link l).kemFails + 1
  if n ≤ 3 then (s.modLink l fun k => { k with kemFails := n }).startKem l
  else (s.linkError l 0x8B 1 0).linkDown l

/-! ### Negotiation and policy (R258, R261, R273) -/

/-- The generation the two ends and LNK_CFG.GEN_ALLOW have in common; 0 for none (R258). -/
def State.negotiate (s : State) (l : Nat) : Nat :=
  let m := Nat.land (Nat.land 12 (s.fget (F.lnkPeerInfo_GENS l))) (s.fget (F.lnkCfg_GEN_ALLOW l) * 4)
  if bitAt m 3 then 3 else if bitAt m 2 then 2 else 0

/-- How deep a bypass the peer is reached through: `k` devices along the axis and direction of link `l`, on the paired port (R273). -/
def State.bypassDepth (s : State) (l devid port : Nat) : Option Nat :=
  if 60 ≤ l ∨ port ≠ pairedPort l then none
  else ((List.range 32).map (· + 1)).find? fun k => devid ≠ s.devid && s.alongLink l (k + 1) = some devid

/-- A DEVID whose coordinates lie within the axis lengths (R263). -/
def State.devOk (s : State) (d : Nat) : Bool := (List.range 3).all fun a => coordOf d a < s.axisLen a

/-- The peer with this port is expected on link `x` (R261). -/
def State.expects (s : State) (x devid port : Nat) : Bool :=
  s.fbit (F.lnkExpect_VALID x) && s.fget (F.lnkExpect_DEVID x) = devid && s.fget (F.lnkExpect_PORT x) = port

/-- The link would be UP: what R258 and R275 still ask of it. -/
def State.linkUp (s : State) (l : Nat) : State :=
  let g := s.linkGen l
  if g = 0 then s.mgmtLink l 1
  else if s.fbit (F.lnkCfg_ENC l) && g = 2 then s.mgmtLink l 5
  else if s.fbit (F.lnkCfg_ENC l) && !s.fbit (F.lnkStat_ENC_ACTIVE l) then
    if (s.link l).kem then s else (s.setLinkState l 2 0).startKem l
  else if s.linkState l = 3 then s
  else s.setLinkState l 3 0

/-- The first row of R261 that matches, a peer whose DEVID is invalid (R263) being any other peer (DEDUCED, log entry 159); under ACCEPT_REMAP (0), QUARANTINE (1) or REJECT (2). -/
def State.policyRun (s : State) (l : Nat) : State :=
  let pol := s.fget (F.lnkCfg_POLICY l)
  let dev := s.fget (F.lnkPeerId_DEVID l)
  let port := s.fget (F.lnkPeerInfo_PORT l)
  let s := s.fset (F.lnkStat_DIST l) 0
  let shut := fun (s : State) (reason : Nat) => if pol = 2 then s.rejectLink l reason else s.mgmtLink l reason
  if !s.fbit (F.lnkExpect_VALID l) || !s.devOk dev then shut s 3
  else if s.fget (F.lnkPeerInfo_TOPO_EPOCH l) ≠ s.fget F.rteCfg_TOPO_EPOCH then shut s 2
  else if s.expects l dev port then s.linkUp l
  else if s.fget (F.lnkExpect_DEVID l) = dev then
    if pol = 0 then (s.linkError l 0x84 0 port).linkUp l else shut s 3
  else
    match s.bypassDepth l dev port with
    | some k =>
      if 3 ≤ k then s.rejectLink l 6
      else if pol = 2 then s.rejectLink l 3
      else ((s.fset (F.lnkStat_DIST l) k).linkError l 0x87 0 k).linkUp l
    | none =>
      match (List.range 64).find? fun x => decide (x ≠ l) && s.expects x dev port with
      | some x =>
        if pol = 0 then
          let s := { s with mapSwap := s.mapSwap ++ [(x, l)] }
          (s.linkError l 0x84 0 port).linkUp l
        else shut s 3
      | none => shut s 3

/-- The check of R261; it waits for the commit while a Transit runs (R393). -/
def State.policyCheck (s : State) (l : Nat) : State :=
  if s.fw.transit then { s with deferred := if s.deferred.contains (.policy l) then s.deferred else s.deferred ++ [.policy l] }
  else s.policyRun l

/-- Run the check again where a verified HELLO is held (R261). -/
def State.recheck (s : State) (l : Nat) : State :=
  if s.fbit (F.lnkPeerId_VALID l) && decide (2 ≤ s.linkState l) then s.policyCheck l else s

/-- A HELLO failed its signature or its ECHO (R260). -/
def State.helloBad (s : State) (l : Nat) : State :=
  let n := (s.link l).hfails + 1
  let s := (s.linkError l 0x83 1 0).modLink l fun k => { k with hfails := n, retry := n < 3 }
  if n < 3 then s else s.rejectLink l 4

/-- Credit initialisation (R260, step 5): the receive buffer of 1 MiB is granted in equal parts to the 12 sub-channels (R256; log entry 156). -/
def State.grantAll (s : State) (l : Nat) : State := (List.range 12).foldl (fun s c => s.emit (.credits l c (65536 / 12))) s

/-- A HELLO arrives on link `l` (R260): verified, answered with its NONCE, and, once it echoes this end's own NONCE, negotiated and checked. -/
def State.hello (s : State) (l : Nat) (h : Bytes) : State :=
  if s.linkState l < 2 || !s.secOn then s
  else
    let serial := recField h 8 6
    let echo := recField h 32 8
    let key := Sparse.getD (fun _ => []) s.certs serial
    let good := decide (176 ≤ h.length) && decide (recField h 0 2 = 1) && Config.ed448Verify key (h.take 62) ((h.drop 62).take 114)
    let own := (s.link l).nonce
    if !good || (echo ≠ 0 && echo ≠ own) then s.helloBad l
    else
      let nonce := recField h 24 8
      let s := if (s.link l).peerNonce ≠ nonce then (s.modLink l fun k => { k with peerNonce := nonce }).sendHello l nonce else s
      if echo = 0 then s
      else
        let s := s.setReg (.lnkPeerId l) (2 ^ 63 + recField h 4 2 % 32768 * 2 ^ 48 + serial)
        let s := s.setReg (.lnkPeerInfo l) (recField h 16 4 * 2 ^ 32 + recField h 6 1 % 16 * 2 ^ 28 + recField h 2 2 % 64 * 2 ^ 16 + recField h 20 2)
        let g := s.negotiate l
        let s := if s.linkGen l = g then s else (s.modLink l fun k => { k with flTx := 0, flAck := 0, flRx := 0, rxMark := 0, unacked := [], cred := [], part := [] }).grantAll l
        let s := (s.fset (F.lnkStat_GEN l) g).modLink l fun k => { k with hfails := 0, retry := false }
        let s := if s.fbit (F.lnkCfg_ENC l) && decide (g = 3) then s else s.fset (F.lnkStat_ENC_ACTIVE l) 0
        s.policyCheck l

/-- A peer's management certificate arrives: verified once and cached by serial number (R353). -/
def State.cert (s : State) (l : Nat) (c : Bytes) : State :=
  if s.linkState l < 2 || !s.secOn then s
  else if Config.certVerify c then
    { s with certs := Sparse.setD (fun _ => []) s.certs (Config.certSerial c).toNat (Config.certKey c) }
  else s

/-- Training is complete on arriving light: the link enters base mode on four wavelengths and sends its HELLO (R258, R260). -/
def State.fecLock (s : State) (l : Nat) : State :=
  if s.linkState l ≤ 1 && s.laserOn l then
    let s := s.setReg (.lnkStat l) (4 * 2 ^ 56 + 15 * 2 ^ 52)
    (s.setLinkState l 2 0).freshHello l
  else s

/-- A key establishment message arrives (R275): in HELLO, where the policy has let the peer in, or on an UP link for a new key. -/
def State.kemArrives (s : State) (l : Nat) (kem : Bytes) : State :=
  if (s.linkState l ≠ 2 ∧ s.linkState l ≠ 3) ∨ s.secOn = false ∨ s.linkGen l ≠ 3 ∨ s.fbit (F.lnkCfg_ENC l) = false then s
  else
    let key := Sparse.getD (fun _ => []) s.certs (s.fget (F.lnkPeerId_SERIAL l))
    if Config.kemVerify key kem then
      let s := if (s.link l).kem then s else s.startKem l
      s.keyDone l (Config.deriveKey s.free kem)
    else s.keyFailed l

/-- Changes of LNK_MAP whose links have drained take effect (R262). -/
def State.mapSwaps (s : State) : State :=
  s.mapSwap.foldl (fun s e =>
    let idle := fun (x : Nat) => (s.link x).unacked.isEmpty && (s.link x).txq.isEmpty
    let old := s.physLink e.1
    if idle old && idle e.2 then
      let s := { s with mapSwap := s.mapSwap.filter (· ≠ e) }
      match (List.range 64).find? fun k => s.physLink k = e.2 with
      | some k => (s.fset (F.lnkMap_PHYS k) old).fset (F.lnkMap_PHYS e.1) e.2
      | none => s.fset (F.lnkMap_PHYS e.1) e.2
    else s) s

/-! ### Flits (R252, R256) -/

/-- FEC codewords that a link's receiver has corrected and found uncorrectable are counted (R277). -/
def State.linkFec (s : State) (l : Nat) (c : FecCount) : State :=
  (s.fsat (F.lnkFec_CORR l) c.corr.toNat).fsat (F.lnkFec_UNCORR l) c.uncorr.toNat

/-- A flit arrives: dropped on a bad FCRC or out of FLSEQ order; else its ACK and credits are taken. -/
def State.flitReceive (s : State) (l : Nat) (f : Bytes) : State :=
  if s.linkState l < 2 then s
  else
    let n := if s.linkGen l = 3 then 240 else 112
    if f.length ≠ n + 16 ∨ crc64xz (f.take (n + 8)) ≠ recField f (n + 8) 8 then s.fsat (F.lnkCnt_FLIT_CRC l) 1
    else if recField f n 2 ≠ (s.link l).flRx then s
    else
      let ack := recField f (n + 2) 2
      let c := recField f (n + 4) 1
      let s := s.modLink l fun k =>
        { k with
          flRx := (k.flRx + 1) % 65536
          flAck := if (ack + 65537 - k.flAck) % 65536 ≤ k.inFlight then (ack + 1) % 65536 else k.flAck
          unacked := k.unacked.filter fun e => decide (32768 ≤ (ack + 65536 - e.last) % 65536)
          cred := if c < 12 then Sparse.setD (fun _ => 0) k.cred c (Sparse.getD (fun _ => 0) k.cred c + recField f (n + 6) 2) else k.cred }
      s.pump l

/-- No acknowledgement has advanced: the transmitter resends from the first unacknowledged flit (R256): the frames that the flits from it on carry. -/
def State.linkReplay (s : State) (l : Nat) : State :=
  if (s.link l).unacked.isEmpty || decide (s.linkState l < 2) then s
  else
    let s := (s.fsat (F.lnkCnt_REPLAYS l) 1).tail (2112 + l) 0x51 (linkDie l) (s.partOfUnit (unitLink l) 0) (s.link l).flAck
    (s.link l).unacked.foldl (fun s e => s.emit (.frame l e.kind e.data)) s

/-! ### Frames and messages (R253, R254, R257, R274, R387, R457) -/

/-- The message that 32 header bytes and its data spell (R254). -/
def msgOf (h data : Bytes) : Msg where
  dst := BitVec.ofNat 15 (recField h 0 2)
  src := BitVec.ofNat 15 (recField h 2 2)
  cls := BitVec.ofNat 2 (recField h 4 1)
  sub := BitVec.ofNat 2 (recField h 4 1 / 4)
  ordered := bitAt (recField h 4 1) 4
  det := bitAt (recField h 4 1) 5
  ttl := BitVec.ofNat 6 (recField h 5 1)
  typ := BitVec.ofNat 8 (recField h 8 1)
  hdr := (h.drop 16).take 16
  data := data

/-- The whole messages at the front of a byte string, and what is left of it. -/
def cutMsgs : Nat → Bytes → List Msg × Bytes
  | 0, b => ([], b)
  | n + 1, b =>
    let len := 16 * (recField b 6 2 % 8192)
    if b.length < 32 ∨ b.length < 32 + len then ([], b)
    else
      let r := cutMsgs n (b.drop (32 + len))
      (msgOf (b.take 32) ((b.drop 32).take len) :: r.1, r.2)

/-- A whole message has come in on link `l`. -/
def State.msgIn (s : State) (l : Nat) (m : Msg) : State :=
  if m.sub = 3 then s.fsat (F.lnkCnt_FLIT_CRC l) 1
  else if !carries (s.linkState l) m then s
  else if m.cls = 3 ∧ (m.typ = 0 ∨ 4 < m.typ) then s.fsat F.mgtCapstat_BADMSG 1
  else if m.cls = 2 ∧ s.isLocal m ∧ 10 < recField m.hdr 12 1 then s.fsat F.colStat_BADMSG 1
  else s.modLink l fun k => { k with rx := k.rx ++ [m] }

/-- A marker CTRL payload makes a MARKER packet (R457). -/
def State.ctrlIn (s : State) (l : Nat) (p : Bytes) : State :=
  if recField p 11 1 = 1 then
    let src := 2112 + l
    s.tailPkt 2 src (recField p 10 1) (linkDie l) (s.partOfUnit (unitLink l) 0) (recField p 0 6 + recField p 8 2 % 32768 * 2 ^ 48)
      ((List.range 9).filter fun b => s.tailAdmits b src)
  else s

/-- The clear payload of a generation 3 frame whose integrity field is good; an encrypted link takes encrypted frames only. -/
def State.framePayload (s : State) (l : Nat) (f : Bytes) : Option Bytes :=
  let n := 16 * (recField f 8 2 % 512)
  let h := f.take 32
  let p := (f.drop 32).take n
  let t := f.drop (32 + n)
  let fl := recField f 11 1
  if f.length ≠ n + 48 ∨ n = 0 ∨ 4096 < n then none
  else if bitAt fl 0 then
    match (if bitAt fl 1 then (s.link l).rxKey1 else (s.link l).rxKey0) with
    | none => none
    | some k =>
      let iv := linkIv k (recField f 0 8)
      let clear := Config.gcmOpen k iv h p
      if leBytes 16 (Config.gcmTag k iv h clear).toNat = t then some clear else none
  else if s.fbit (F.lnkStat_ENC_ACTIVE l) then none
  else if leBytes 8 (crc64xz (h ++ p)) ++ zeroBytes 8 = t then some p else none

/-- The payload of a base-mode or generation 2 frame: a 24-byte header, one message, a CRC (R257). -/
def baseFrame (f : Bytes) : Option Bytes :=
  let n := f.length - 8
  if f.length < 64 ∨ 2080 < f.length ∨ crc64xz (f.take n) ≠ recField f n 8 then none else some ((f.take n).drop 24)

/-- A frame arrives. One that fails its integrity check is discarded and its flits are expected again, so that the peer replays them (R253, R256; log entry 156). -/
def State.frameReceive (s : State) (l : Nat) (f : Bytes) : State :=
  if s.linkState l < 2 then s
  else
    let g3 := s.linkGen l = 3
    match (if g3 then s.framePayload l f else baseFrame f) with
    | none => (s.fsat (F.lnkCnt_FLIT_CRC l) 1).modLink l fun k => { k with flRx := k.rxMark }
    | some p =>
      let s := s.modLink l fun k => { k with rxMark := k.flRx }
      let ty := recField f 10 1
      let fl := recField f 11 1
      -- the first frame of a new KEPOCH retires the old key
      let s := if g3 && bitAt fl 0 && bitAt fl 1 != (s.link l).rxKep then
          s.modLink l fun k => { k with
            rxKep := bitAt fl 1
            rxKey0 := if bitAt fl 1 then none else k.rxKey0
            rxKey1 := if bitAt fl 1 then k.rxKey1 else none }
        else s
      if 1 < ty then s.fsat (F.lnkCnt_FLIT_CRC l) 1
      else if ty = 1 then s.ctrlIn l p
      else
        let b := (s.link l).part ++ p
        let r := cutMsgs b.length b
        let s := s.modLink l fun k => { k with part := if g3 then r.2 else [] }
        r.1.foldl (fun s m => s.msgIn l m) s

/-- A marker is due on an UP link, 2^PLOG2 counts after the last (R457), which keeps CTRL frames within the limit of R255. -/
def State.markerSend (s : State) (l : Nat) : State :=
  let now := s.now (linkDie l)
  let due := match (s.link l).mkrAt with | some t => decide (t + 2 ^ s.fget F.trcMkr_PLOG2 ≤ now) | none => true
  if s.fbit F.trcMkr_EN && decide (s.linkState l = 3) && decide (s.linkGen l = 3) && due then
    let p := leBytes 8 now ++ leBytes 2 s.devid ++ leBytes 1 l ++ leBytes 5 1
    (s.modLink l fun k => { k with mkrAt := some now }).sendFrames l 1 [(s.frameBytes l 1 (s.link l).fseq p, [])]
  else s

/-- Take a message from those received on link `l`: its buffer is free again, and the credit returns to the peer (R264). -/
def State.takeRx (s : State) (l : Nat) (m : Msg) : State :=
  if (s.link l).rx.contains m then
    let s := s.modLink l fun k => { k with rx := k.rx.erase m }
    if s.linkState l < 2 || decide (s.linkGen l = 0) then s else s.emit (.credits l (msgSub m) (msgUnits m))
  else s

/-- Take a link-neighbour message of type `typ` with these data from those received. -/
def State.takeBase (s : State) (l typ : Nat) (data : Bytes) : State :=
  match (s.link l).rx.find? fun m => m.cls = 3 && decide (m.typ.toNat = typ) && decide (m.data.take data.length = data) with
  | some m => s.takeRx l m
  | none => s

/-- The message waits: it stays received. -/
def State.keepRx (s : State) (l : Nat) (m : Msg) : State :=
  if (s.link l).rx.contains m then s else s.modLink l fun k => { k with rx := k.rx ++ [m] }

/-- A message for this device is handled by `f`; another is forwarded. One that has come in whole stands, whatever became of its link since (R269); one its link does not carry is discarded. -/
def State.onMsg (s : State) (l : Nat) (m : Msg) (f : State → State) : State :=
  let had := (s.link l).rx.contains m
  let s := s.takeRx l m
  if m.sub = 3 || !(had || carries (s.linkState l) m) then s
  else if s.isLocal m then f s
  else s.forward l m

/-- A message for another device is routed (R266). -/
def State.messageRoute (s : State) (l : Nat) (m : Msg) : State := if s.isLocal m then s.keepRx l m else s.onMsg l m id

/-! ### Fabric requests (R164, R165, R254, R362) -/

/-- The region check of a fabric request arriving on link `l`. -/
def State.fabricOk (s : State) (l a len : Nat) (ok : Rgn → Bool) : Bool :=
  let p := s.fget (F.lnkCfg_PART l)
  let here := fun (x : Nat) => match spaceOf x with | .stack _ => true | .llc _ => true | _ => false
  decide (s.partState p ≠ 0) && here a && here (a + len - 1)
  && s.inRegion p a len fun r => r.fabric && ok r && (!r.sealed || s.fbit (F.lnkStat_ENC_ACTIVE l))

/-- A REQ read arrives; it stays with its link while a snoop is out or a slice holds its lines (R188, R210). -/
def State.fabricRead (s : State) (l : Nat) (m : Msg) : State :=
  if m.cls ≠ 0 ∨ m.typ ≠ 1 then s.takeRx l m
  else
    let a := recField m.hdr 0 6
    let len := recField m.hdr 8 4
    match (if s.isLocal m && s.fabricOk l a len (·.rd) then s.blocked a len false else none) with
    | some s => s.keepRx l m
    | none => s.onMsg l m fun s =>
      if !s.fabricOk l a len (·.rd) then s.sendMsg (rspTo s.devid m stDenied [])
      else
        let r := s.load {} a len
        r.2.2.sendMsg (rspTo s.devid m r.1 r.2.1)

/-- A REQ write arrives, and waits as a read does. -/
def State.fabricWrite (s : State) (l : Nat) (m : Msg) : State :=
  if m.cls ≠ 0 ∨ m.typ ≠ 2 then s.takeRx l m
  else
    let a := recField m.hdr 0 6
    let len := m.data.length
    match (if s.isLocal m && s.fabricOk l a len (·.wr) then s.blocked a len true else none) with
    | some s => s.keepRx l m
    | none => s.onMsg l m fun s =>
      if !s.fabricOk l a len (·.wr) then s.sendMsg (rspTo s.devid m stDenied [])
      else
        let r := s.store a m.data
        r.2.sendMsg (rspTo s.devid m r.1 [])

/-- An RSP arrives: a read completes with its last bytes, a failure at once (R254, R257). -/
def State.fabricResponse (s : State) (l : Nat) (m : Msg) : State :=
  if m.cls ≠ 1 then s.takeRx l m
  else s.onMsg l m fun s =>
    let tag := recField m.hdr 0 4
    let st := recField m.hdr 4 1
    match Sparse.find s.freq tag with
    | some ⟨left, none, data⟩ =>
      let n := min left m.data.length
      let data := data ++ m.data.take n
      let fin := st ≠ stOK ∨ left ≤ n
      { s with freq := s.freq.insert tag ⟨left - n, if fin then some st else none, data⟩ }
    | _ => s

/-- 2 ms have passed since a request that was lost (R256). -/
def State.fabricTimeout (s : State) (tag : Nat) : State :=
  match Sparse.find s.freq tag with
  | some ⟨left, none, data⟩ => { s with freq := s.freq.insert tag ⟨left, some stTimeout, data⟩ }
  | _ => s

/-- The oldest message that waits on link `l` without credit moves to ESC (R267), on the entry's ESC_LINK while the bubble rule lets it in. -/
def State.escExpiry (s : State) (l : Nat) : State :=
  match (s.link l).txq.find? fun t => t.m.sub ≠ 2 with
  | none => s
  | some t =>
    let m := t.m
    let d := m.dst.toNat
    let drop := fun (s : State) => s.modLink l fun k => { k with txq := k.txq.erase t }
    if s.fbit (F.rteEntc_ESC_VALID d) = false then
      let s := (drop s).error { unit := unitDie (linkDie l), code := 0x89, cls := 1, addr := d, every := oneSecond }
      s.routeFailed m (linkDie l)
    else
      let x := s.physLink (s.fget (F.rteEntc_ESC_LINK d))
      let m' := { m with sub := 2 }
      let bubble := 2 * (if s.linkGen x = 3 then 4098 else 128)
      if s.linkLive x && decide (bubble ≤ s.credit x (msgSub m')) then (drop s).putLink x m' none m' else s

/-! ### Wavelengths (R251) -/

/-- The wavelengths in use. -/
def State.setWl (s : State) (l mask : Nat) : State := (s.fset (F.lnkStat_WL_MASK l) mask).fset (F.lnkStat_WL l) (popCount 4 mask)

/-- Wavelength `w` of link `l` loses lock: the link leaves every route mask while it retrains. -/
def State.wlLoss (s : State) (l w : Nat) : State :=
  let m := s.fget (F.lnkStat_WL_MASK l)
  if s.linkState l < 2 ∨ bitAt m w = false then s
  else
    let s := (s.setWl l (setBit m w false)).fset (F.lnkStat_RETRAIN l) 1
    let s := (s.fsat (F.lnkCnt_RETRAINS l) 1).modLink l fun k => { k with rt := setBit k.rt w true }
    (s.detours l).escManage l

/-- The retraining of a wavelength ends. -/
def State.wlEnd (s : State) (l w : Nat) (ok : Bool) : State :=
  if bitAt (s.link l).rt w = false then s
  else
    let s := s.modLink l fun k => { k with rt := setBit k.rt w false }
    let s := if (s.link l).rt = 0 then s.fset (F.lnkStat_RETRAIN l) 0 else s
    let m := s.fget (F.lnkStat_WL_MASK l)
    if ok then (s.setWl l (setBit m w true)).linkError l 0x80 0 0
    else if popCount 4 m < max 1 (s.fget (F.lnkCfg_MINWL l)) then s.linkDown l
    else s.linkError l 0x81 0 0

/-! ### Register writes (R261, R265, R277-R279) -/

/-- A write of LNK_CFG: the check runs again, and a new HELLO exchange renegotiates; EN = 0 takes the link DOWN. -/
def State.lnkCfgWrite (s : State) (l : Nat) (w : Wr) : Nat × State :=
  let mw := w.fld (F.lnkCfg_MINWL l)
  if w.fld (F.lnkCfg_POLICY l) = 3 ∨ mw < 2 ∨ 4 < mw then s.wDeny
  else
    let s := s.setReg w.reg w.new
    if w.fld (F.lnkCfg_EN l) = 0 then (stOK, s.linkDown l)
    else
      let s := s.recheck l
      (stOK, if 2 ≤ s.linkState l then s.freshHello l
        else if s.linkState l = 0 ∧ s.laserOn l = true then s.setLinkState l 1 0 else s)

/-- A write of LNK_EXPECT. -/
def State.lnkExpectWrite (s : State) (l : Nat) (w : Wr) : Nat × State := (stOK, (s.setReg w.reg w.new).recheck l)

/-- A write of LNK_MAP: two logical links never name one physical link. -/
def State.lnkMapWrite (s : State) (l : Nat) (w : Wr) : Nat × State :=
  let v := w.fld (F.lnkMap_PHYS l)
  s.wIf w (!(List.range 64).any fun k => decide (k ≠ l) && decide (s.physLink k = v))

/-- A write of RTE_ENTC commits the entry's three words together. -/
def State.rteEntcWrite (s : State) (d : Nat) (w : Wr) : Nat × State :=
  if 60 ≤ w.fld (F.rteEntc_ESC_LINK d) then s.wDeny
  else
    let e := (s.fget (F.rtePrimary_MASK d), s.fget (F.rteDetour_MASK d))
    (stOK, { s.setReg w.reg w.new with rte := Sparse.setD (fun _ => (0, 0)) s.rte d e })

/-- A write of RTE_CFG: DEVID is locked at the end of S7; a change of TOPO_EPOCH runs R261 again on every link. -/
def State.rteCfgWrite (s : State) (w : Wr) : Nat × State :=
  let e := w.fld F.rteCfg_ESC_WAIT_NS
  let locked := 7 < s.fget F.bootStatus_STAGE || (s.fget F.bootStatus_STAGE = 7 && s.fget F.bootStatus_STATE = 1)
  if e < 100 ∨ 10000 < e then s.wDeny
  else if locked && decide (w.fld F.rteCfg_DEVID ≠ s.devid) then s.wDeny
  else
    let old := s.fget F.rteCfg_TOPO_EPOCH
    let s := s.setReg w.reg w.new
    (stOK, if s.fget F.rteCfg_TOPO_EPOCH = old then s else (List.range 64).foldl (fun s l => s.recheck l) s)

/-- The link manager computes LNK_EXPECT of the torus links from RTE_SHAPE (R263; log entry 159): the next device along the link's axis, on the paired port. -/
def State.expectAll (s : State) : State :=
  (List.range 60).foldl (fun s l => match s.alongLink l 1 with
    | some d => s.setReg (.lnkExpect l) (2 ^ 63 + d * 2 ^ 48 + pairedPort l * 2 ^ 40)
    | none => s) s

/-- A write of RTE_SHAPE, refused while a link is UP. -/
def State.rteShapeWrite (s : State) (w : Wr) : Nat × State :=
  let r := s.wIf w (!(List.range 64).any (fun l => decide (s.linkState l = 3))
    && decide (w.fld F.rteShape_LXM1 ≠ 0) && decide (w.fld F.rteShape_LYM1 ≠ 0) && decide (w.fld F.rteShape_LZM1 ≠ 0))
  if r.1 = stOK then (stOK, (List.range 60).foldl (fun s l => s.recheck l) r.2.expectAll) else r

/-! ### The rows that are no register writes -/

def execFlitReceive (link : Fin 64) (flit : RxFlit) (s : State) : Out :=
  if flit.data.length = 256 ∨ flit.data.length = 128 then .next ((s.linkFec link flit.fec).flitReceive link flit.data) else .fault .illFormed
def execLinkReplay (link : Fin 64) (s : State) : Out := .next (s.linkReplay link)
def execFrameReceive (link : Fin 64) (frame : Bytes) (s : State) : Out := .next (s.frameReceive link frame)
def execMessageRoute (link : Fin 64) (m : Msg) (s : State) : Out := .next (s.messageRoute link m)
def execFabricRead (link : Fin 64) (m : Msg) (s : State) : Out := .next (s.fabricRead link m)
def execFabricWrite (link : Fin 64) (m : Msg) (s : State) : Out := .next (s.fabricWrite link m)
def execFabricResponse (link : Fin 64) (m : Msg) (s : State) : Out := .next (s.fabricResponse link m)
def execFabricRequestTimeout (tag : BitVec 32) (s : State) : Out := .next (s.fabricTimeout tag.toNat)
def execEscWaitExpiry (link : Fin 64) (s : State) : Out := .next (s.escExpiry link)
def execWavelengthLoss (link : Fin 64) (w : Fin 4) (s : State) : Out := .next (s.wlLoss link w)
def execWavelengthRetrainEnd (link : Fin 64) (w : Fin 4) (recovered : Bool) (s : State) : Out := .next (s.wlEnd link w recovered)
def execLinkDown (link : Fin 64) (s : State) : Out := .next (s.linkDown link)
def execHelloMsg (link : Fin 64) (hello : Bytes) (s : State) : Out := .next ((s.takeBase link 1 hello).hello link hello)
/-- 10 ms after a failed attempt a fresh one starts (R260). -/
def execHelloRetry (link : Fin 64) (s : State) : Out := .next (if (s.link link).retry then s.freshHello link else s)
/-- A REJECTED link repeats its HELLO every second (R261). -/
def execHelloRepeat (link : Fin 64) (s : State) : Out :=
  .next (if s.linkState link = 5 then
    ((s.modLink link fun k => { k with hfails := 0 }).recheck link).freshHello link else s)
def execCertMsg (link : Fin 64) (cert : Bytes) (s : State) : Out := .next ((s.takeBase link 2 cert).cert link cert)
def execLinkKem (link : Fin 64) (kem : Bytes) (s : State) : Out := .next ((s.takeBase link 3 kem).kemArrives link kem)
/-- A new key is established in the background before FSEQ reaches 2^31 or an hour passes (R275). -/
def execRekey (link : Fin 64) (s : State) : Out :=
  .next (if s.fbit (F.lnkStat_ENC_ACTIVE link) && !(s.link link).kem && decide (s.linkState link = 3) then s.startKem link else s)
def execLnkMapSwap (s : State) : Out := .next s.mapSwaps
def execEclipseSwitchSettled (pair : Fin 30) (s : State) : Out := .next (s.eclSettled pair)
def execMarkerSend (link : Fin 64) (s : State) : Out := .next (s.markerSend link)
def execFecLock (link : Fin 64) (s : State) : Out := .next (s.fecLock link)

end Sys2Proof.Machine
end

