-- ==== Sys2Proof/Machine/Coll.lean ====
section
/-! DEFINITION. The collective engine (R280-R309): the staging pool, messages, reduction and distribution of chunks, checks and holds, status agreement, acceptance of operations. -/

namespace Sys2Proof.Machine

/-! ### Operations and groups -/

/-- Group `g`. -/
def State.group (s : State) (g : Nat) : ColGroup := Sparse.getD (fun _ => ColGroup.init) s.groups g

/-- Change group `g`. -/
def State.modGroup (s : State) (g : Nat) (f : ColGroup → ColGroup) : State :=
  { s with groups := Sparse.setD (fun _ => ColGroup.init) s.groups g (f (s.group g)) }

/-- The accepted operation `i`. -/
def State.cop (s : State) (i : OpId) : Option ColOp := s.cops.find? (·.id = i)

/-- Change operation `i`. -/
def State.modCop (s : State) (i : OpId) (f : ColOp → ColOp) : State :=
  { s with cops := s.cops.map fun o => if o.id = i then f o else o }

/-- An error record of the engine (R309). -/
def State.colError (s : State) (o : ColOp) (code cls : Nat) : State :=
  s.error { unit := unitChannel (kChannel o.desc), code := code, cls := cls, addr := o.id.grp.val + o.id.seq.toNat * 2 ^ 32
            stream := o.stream.getD 0, seq := o.sseq, part := some o.part, every := oneSecond }

/-- Progress (R307). -/
def State.progress (s : State) (i : OpId) : State := s.modCop i fun o => { o with stalled := false }

/-- The shape used where the operation has none. -/
def opShape (o : ColOp) : Nat × Nat × Nat := o.shape.getD (1, 1, 1)

/-- Members of an operation. -/
def opP (o : ColOp) : Nat := o.members.length

/-! ### Messages (R292) -/

/-- OPSIG: CRC-32C over the signature block (R292); SEND and RECV sign with the operation code of SEND (log entry 25). -/
def opSig (d : Nat) : Nat :=
  let b11 := if kPair d then kAlg d * 16 + 8 else sF d 11 7 0
  let n := if kOpc d = 4 then (if kPadded d then kCap d else 0) else if kPair d || kOpc d = 7 then 0 else kCount d
  crc32c (leBytes 1 b11 ++ leBytes 1 (sF d 12 7 0) ++ leBytes 1 (sF d 13 7 0) ++ [0]
    ++ leBytes 2 (if kPair d then 0 else kRoot d) ++ [0, 0] ++ leBytes 8 n)

/-- A COL message of operation `o` to rank `r`. -/
def colMsg (o : ColOp) (kind q r : Nat) (poison : Bool) (data : Bytes) : Msg where
  dst := BitVec.ofNat 15 (o.members.getD r 0)
  src := 0
  cls := 2
  sub := 0
  ordered := false
  det := false
  ttl := 63
  typ := Config.colType
  hdr := mkRec 16 [(0, 2, o.id.grp.val), (2, 2, o.epoch), (4, 4, o.id.seq.toNat), (8, 4, q), (12, 1, kind),
    (13, 1, kChannel o.desc + (if o.id.kind = 0 then 0 else 64) + (if poison then 128 else 0)), (14, 2, o.rank)]
  data := data

/-- The data of a control message (log entry 23): a value in bytes 0-7 (a count; or a status in byte 0 and an origin rank in bytes 2-3), the KIND concerned in byte 8, in byte 9 of a pair's message 1 from the SEND and 2 from the RECV, a chunk in bytes 12-15. -/
def ctlData (val kind chunk : Nat) : Bytes := leBytes 8 val ++ leBytes 1 kind ++ zeroBytes 3 ++ leBytes 4 chunk

/-- Send a control message. -/
def State.colCtl (s : State) (o : ColOp) (kind q r : Nat) (data : Bytes) : State :=
  s.sendMsg (colMsg o kind q r false (recPut data 9 (leBytes 1 o.id.kind.val)))

/-- Every other rank. -/
def otherRanks (o : ColOp) : List Nat := (List.range (opP o)).filter (· ≠ o.rank)

/-- The ranks an operation's agreement joins: the two of a pair, else all (R305). -/
def peersOf (o : ColOp) : List Nat := if o.id.kind = 0 then otherRanks o else [o.id.peer.toNat]

/-- Send one chunk, each piece by a decision of the engine half (R334, R338): its pieces of at most 32,768 bytes with CCRC, OPSIG, offset and LAST (R292). -/
def State.sendChunk (s : State) (o : ColOp) (c : ChunkRef) (data : Bytes) (poison : Bool) : State :=
  let n := max 1 (ceilDiv data.length 32768)
  let s := (List.range n).foldl (fun s i =>
    let p := (data.drop (i * 32768)).take 32768
    let pad := zeroBytes (roundUp p.length 16 - p.length)
    let tr := leBytes 8 (crc64xz data) ++ leBytes 4 (opSig o.desc) ++ leBytes 2 (i * 2048) ++ leBytes 1 (if i + 1 = n then 1 else 0) ++ [0]
    let d := dieOfUnit (unitChannel (kChannel o.desc))
    (s.grant 7 (d - 8) (kChannel o.desc)).sendMsg (colMsg o c.kind c.q c.rank poison (p ++ pad ++ tr))) s
  s.progress o.id

/-! ### The staging pool (R294, R295) -/

/-- Active groups. -/
def State.activeGroups (s : State) : Nat := (s.groups.filter fun e => e.2.active).length

/-- Unreserved chunks in use. -/
def State.poolUsed (s : State) : Nat := (s.cops.map fun o => (o.stages.filter fun e => !e.2.1).length).sum

/-- Unreserved free chunks. -/
def State.poolFree (s : State) : Nat := s.fget F.colPool_CHUNKS - 2 * s.activeGroups - s.poolUsed

/-- Reserved chunks of group `g` in use. -/
def State.resUsed (s : State) (g : Nat) : Nat :=
  ((s.cops.filter fun o => o.id.grp.val = g).map fun o => (o.stages.filter fun e => e.2.1).length).sum

/-- The group's first accepted operation that needs a chunk, counting demand `d`. -/
def State.firstNeed (s : State) (d : ColDem) : Bool :=
  match s.cops.find? fun o => o.id.grp = d.op.grp && (o.id = d.op || s.cdem.any fun e => e.op = o.id) with
  | some o => o.id = d.op
  | none => false

/-- A reserved chunk may serve the demand. -/
def State.mayReserve (s : State) (d : ColDem) : Bool := s.firstNeed d && decide (s.resUsed d.op.grp.val < 2)

/-- The lowest place of the pool that no operation holds (log entry 94). -/
def State.freePlace (s : State) : Nat :=
  let used := s.cops.flatMap fun o => o.stages.map (·.2.2)
  ((List.range (s.fget F.colPool_CHUNKS)).find? fun k => !used.contains k).getD 0

/-- A staging chunk is taken for an operation; its key. -/
def State.takeStage (s : State) (i : OpId) (res : Bool) : Nat × State :=
  let k := match s.cop i with | some o => o.nstg | none => 0
  let x := s.freePlace
  (k, s.modCop i fun o => { o with stages := o.stages ++ [(o.nstg, res, x)], nstg := o.nstg + 1 })

/-- Staging chunks that nothing refers to are free. -/
def State.gcStages (s : State) (i : OpId) : State :=
  s.modCop i fun o =>
    { o with stages := o.stages.filter fun e =>
        o.ins.any (·.stg = e.1) || o.txs.any (·.stg = e.1) || o.holds.any (·.stg = e.1) || o.wait.any (·.2 = some e.1) }

/-! ### Ending an operation (R291, R305, R306) -/

/-- The agreement tree of an operation: rank's parent and children. -/
def opParent (o : ColOp) : Option Nat :=
  if o.id.kind = 0 then treeParent o.rank else if o.rank < o.id.peer.toNat then none else some o.id.peer.toNat

def opKids (o : ColOp) : List Nat :=
  if o.id.kind = 0 then treeKids o.rank (opP o) else if o.rank < o.id.peer.toNat then [o.id.peer.toNat] else []

/-- Drop a closed operation once its DECISIONs are acknowledged. -/
def State.dropClosed (s : State) (i : OpId) : State :=
  { s with cops := s.cops.filter fun o => !(o.id = i && o.st = 3 && o.rel.isEmpty) }

/-- The Umbra service of partition `p`. -/
def State.umb (s : State) (p : Nat) : UmbS := Sparse.getD (fun _ => UmbS.init) s.umbra p

/-- Change it. -/
def State.modUmb (s : State) (p : Nat) (f : UmbS → UmbS) : State :=
  { s with umbra := Sparse.setD (fun _ => UmbS.init) s.umbra p (f (s.umb p)) }

/-- A command of the service has failed: its status goes into the address field of an error record, whose code and unit the spec does not name (R333; log entry 160). -/
def State.umbFailed (s : State) (p st : Nat) : State :=
  let d := s.draw
  d.2.error { unit := d.1.toNat % 65536, code := d.1.toNat / 65536 % 256, cls := 1, addr := st, part := some p, every := oneSecond }

/-- A rebuild has ended (R331): UMB_CMD answers. Where a member was lost meanwhile, the spare leaves the set as it was, so that the rebuild starts again on another, and any other member leaves it BROKEN (R329): which of them is a free value (log entry 160). -/
def State.rebuildEnd (s : State) (p : Nat) : State :=
  let u := s.umb p
  if u.rebuild && u.open'.isEmpty then
    let d := s.draw
    let s := if u.worst = stPeerLost then d.2 else s
    let s := s.fset (F.umbStat_STATE p) (if u.worst = stPeerLost && d.1.toNat % 2 = 1 then 5 else u.was)
    let s := if u.worst = stOK then s else s.umbFailed p u.worst
    let s := (s.fset (F.umbCmd_RESULT p) (if u.worst = stOK then 1 else 4)).fset (F.umbCmd_GO p) 0
    s.modUmb p fun u => { u with rebuild := false, worst := stOK }
  else s

/-- What the Umbra service sees of an agreement; a failure other than CHECK_FAIL outweighs it. -/
def State.umbraSees (s : State) (o : ColOp) (st : Nat) : State :=
  if o.stream.isSome then s
  else
    (s.modUmb o.part fun u =>
      { u with open' := u.open'.filter (· ≠ o.id.seq.toNat)
               worst := if st = stOK || (st = stCheckFail && u.worst ≠ stOK) then u.worst else st }).rebuildEnd o.part

/-- The stream's part of a local completion: its completion record. -/
def State.colRecord (s : State) (o : ColOp) (status : Nat) : State :=
  match o.stream with
  | none => s
  | some k =>
    let n := if kOpc o.desc = 9 then (o.dlv.map (·.2)).sum else o.result
    s.completeOp k o.sseq status 0 (min n (2 ^ 40 - 1) + min o.cats 0xFFFF * 2 ^ 48)

/-- The operation completes locally: data movement stops, staging is released, the record is written (R291). -/
def State.colLocal (s : State) (i : OpId) (status origin : Nat) : State :=
  match s.cop i with
  | none => s
  | some o =>
    if 2 ≤ o.st then s
    else
      let s := { s with cdem := s.cdem.filter (·.op ≠ i) }
      let s := s.modCop i fun o => { o with st := 2, status := status, origin := origin, want := [], ins := [], txs := [], holds := [], stages := [], wait := [] }
      let s := s.fsat (F.colChcnt_OPS (kChannel o.desc)) 1
      let s := if kOpc o.desc = 4 then s.fsat (F.colChdrop_DROPPED (kChannel o.desc)) o.result else s
      s.colRecord o status

/-- The agreement closes with a status (R305, R306): LAST_OK of the epoch, the COMMIT's view (R234), COL_AGREED. -/
def State.colClose (s : State) (i : OpId) (st : Nat) : State :=
  match s.cop i with
  | none => s
  | some o =>
    if o.st = 3 then s
    else
      let s := s.colLocal i st o.rank
      let g := i.grp.val
      let newer := (s.group g).okNone = true ∨ (i.seq.toNat + 2 ^ 32 - (s.group g).lastOk) % 2 ^ 32 < 2 ^ 31
      let s := if st = stOK ∧ i.kind = 0 ∧ newer then s.modGroup g fun x => { x with lastOk := i.seq.toNat, okNone := false } else s
      let s := s.modCop i fun (o : ColOp) => { o with st := 3, decided := some st, rel := o.rel.filter fun e => e.1 = 9 }
      let s := match o.stream with
        | none => s
        | some k => s.modStr k fun (t : StreamS) =>
            { t with colOpen := t.colOpen.filter (· ≠ o.sseq)
                     badC := (t.badC.filter fun (e : Nat × Nat) => e.1 ≠ o.sseq) ++ (if st = stOK then [] else [(o.sseq, st)]) }
      let s := s.umbraSees o st
      let c := kChannel o.desc
      (s.tail (2188 + c) 0x61 8 (s.partOfUnit (unitChannel c) 0) (g + st * 2 ^ 12 + i.seq.toNat * 2 ^ 32)).dropClosed i

/-- The decision reaches a member: recorded, forwarded down the tree (R305). -/
def State.colDecide (s : State) (i : OpId) (st : Nat) : State :=
  match s.cop i with
  | none => s
  | some o =>
    if o.st = 3 then s
    else
      let ks := opKids o
      let s := ks.foldl (fun s r => s.colCtl o 9 0 r (ctlData st 0 0)) s
      (s.modCop i fun o => { o with rel := ks.map fun r => (9, r) }).colClose i st

/-- Contributions are complete: the lowest non-OK origin goes up, or is the decision at the root (R305). -/
def State.colTry (s : State) (i : OpId) : State :=
  match s.cop i with
  | none => s
  | some o =>
    let have' := fun (r : Nat) => o.kids.any (·.1 = r)
    if o.sentUp || 3 ≤ o.st || !have' o.rank || !(opKids o).all have' then s
    else
      let bad := (o.kids.filter (·.2.1 ≠ stOK)).foldl (fun (b : Option (Nat × Nat)) e => match b with
        | none => some e.2
        | some x => if e.2.2 < x.2 then some e.2 else some x) none
      let r := bad.getD (stOK, o.rank)
      let s := s.modCop i fun o => { o with sentUp := true }
      match opParent o with
      | none => s.colDecide i r.1
      | some p => (s.colCtl o 8 0 p (ctlData (r.1 + r.2 * 2 ^ 16) 0 0)).modCop i fun o => { o with rel := o.rel ++ [(8, p)] }

/-- A member contributes its local status: OVERFLOW_DROPPED counts as non-OK only under DROPFAIL (R305). -/
def State.contribute (s : State) (i : OpId) : State :=
  (s.modCop i fun o =>
    if o.kids.any (·.1 = o.rank) then o
    else { o with kids := o.kids ++ [(o.rank, if o.status = stOverflowDropped ∧ kDropFail o.desc = false then stOK else o.status, o.origin)] }).colTry i

/-- Local completion, then the contribution. -/
def State.colEnd (s : State) (i : OpId) (status origin : Nat) : State :=
  match s.cop i with
  | some o => if o.st < 2 then (s.colLocal i status origin).contribute i else s
  | none => s

/-- The operation ends here with a status, and ABORT goes to every member (R305). -/
def State.colAbort (s : State) (i : OpId) (status : Nat) : State :=
  match s.cop i with
  | none => s
  | some o =>
    if 2 ≤ o.st then s
    else
      let s := (peersOf o).foldl (fun s r => s.colCtl o 10 0 r (ctlData (status + o.rank * 2 ^ 16) 0 0)) s
      s.colEnd i status o.rank

/-! ### Memory (R290, R296, R304) -/

/-- What keeps an access to any of some ranges (address, length, write) from being served (R188, R210). -/
def State.colHeld (s : State) (l : List (Nat × Nat × Bool)) : Option State :=
  let r := l.foldl (fun (a : Bool × State) x => match a.2.blocked x.1 x.2.1 x.2.2 with | some s => (true, s) | none => a) (false, s)
  if r.1 then some r.2 else none

/-- The ranges of the member's input for elements `e` to `e + n - 1`, and of its result there. -/
def inRanges (o : ColOp) (e n : Nat) : List (Nat × Nat × Bool) :=
  let w := dtWidth (kDtype o.desc)
  if o.zeros then []
  else (kSrc o.desc + e * w, n * w, false) :: (if kXor2 o.desc && decide (o.rank ≠ kRoot o.desc) then [(kDst o.desc + e * w, n * w, false)] else [])

def outRange (o : ColOp) (e n : Nat) : Nat × Nat × Bool :=
  let w := dtWidth (kDtype o.desc)
  (kDst o.desc + e * w, n * w, true)

/-- Work on a chunk waits for its memory. -/
def State.colWait (s : State) (i : OpId) (c : ChunkRef) (stg : Option Nat) : State :=
  s.modCop i fun o => { o with wait := o.wait ++ [(c, stg)] }

/-- Read `n` elements at element `e` from an address: zeros and a mark where a burst is poisoned. -/
def State.colRead (s : State) (o : ColOp) (base e n : Nat) : Nat × Bytes × Bool × State :=
  let w := dtWidth (kDtype o.desc)
  let r := s.load ⟨o.stream.getD 0, o.sseq⟩ (base + e * w) (n * w)
  if r.1 = stPoison then (stOK, zeroBytes (n * w), true, r.2.2) else (r.1, r.2.1, false, r.2.2)

/-- The member's input for elements `e` to `e + n - 1`: SRC, or SRC XOR DST under XOR2 away from the root (R286). -/
def State.colInput (s : State) (o : ColOp) (e n : Nat) : Nat × Bytes × Bool × State :=
  if o.zeros then (stOK, zeroBytes (n * dtWidth (kDtype o.desc)), false, s)
  else
  let a := s.colRead o (kSrc o.desc) e n
  if kXor2 o.desc && decide (o.rank ≠ kRoot o.desc) then
    let b := a.2.2.2.colRead o (kDst o.desc) e n
    (if a.1 = stOK then b.1 else a.1, xorBytes a.2.1 b.2.1, a.2.2.1 || b.2.2.1, b.2.2.2)
  else a

/-- Write verified bytes to DST at element `e`; a failure after the checks ends the operation (log entry 24). -/
def State.colWrite (s : State) (o : ColOp) (e : Nat) (data : Bytes) : State :=
  let r := s.store (kDst o.desc + e * dtWidth (kDtype o.desc)) data
  if r.1 = stOK then r.2 else r.2.colAbort o.id r.1

/-- A poisoned chunk has been met: the operation will end with POISON (R304). -/
def State.colPoison (s : State) (i : OpId) (b : Bool) : State := if b then s.modCop i fun o => { o with poison := true } else s

/-! ### Chunks out -/

/-- A chunk is ready to go to a rank: it asks for credit (R293). -/
def State.queueTx (s : State) (i : OpId) (t : ColTx) : State :=
  match s.cop i with
  | none => s
  | some o =>
    let s := s.modCop i fun o => { o with txs := o.txs ++ [t] }
    s.colCtl o 3 t.ref.q t.ref.rank (ctlData 0 t.ref.kind 0)

/-- The elements a rank's count leaves of a block under the capacity (R301). -/
def capped (d n : Nat) : Nat := if kPadded d then min n (kCap d) else n

/-- The count known from source `r`. -/
def countOf (o : ColOp) (r : Nat) : Option Nat := (o.cnts.find? (·.1 = r)).map (·.2)

/-- The first element of the block from `r` in DST (R299, R301). -/
def a2vBase (o : ColOp) (r : Nat) : Nat :=
  if kPadded o.desc then r * kCap o.desc
  else ((List.range r).map fun x => (countOf o x).getD 0).sum

/-- Elements of a block a chunk covers, when `n` elements are moved. -/
def partSpan (d j n : Nat) : Nat := min (kCe d) (n - j * kCe d)

/-- Note elements written from a source. -/
def State.delivered (s : State) (i : OpId) (r n : Nat) : State :=
  s.modCop i fun o => { o with dlv := if o.dlv.any (·.1 = r) then o.dlv.map fun e => if e.1 = r then (r, e.2 + n) else e else o.dlv ++ [(r, n)] }

/-! ### Local completion of data movement -/

/-- The counts an ALL_TO_ALLV has written back, and the zero bytes of short blocks (R300, R301). -/
def State.a2vFinish (s : State) (o : ColOp) : State :=
  let d := o.desc
  (List.range (opP o)).foldl (fun s r =>
    let c := (countOf o r).getD 0
    let got := ((o.dlv.find? (·.1 = r)).map (·.2)).getD 0
    let lost := c - capped d c
    let s := (s.store (kCnts d + 8 * (opP o + r)) (leBytes 8 (got % 2 ^ 40 + min lost (2 ^ 24 - 1) * 2 ^ 40))).2
    if kPadded d then
      let n := capped d c
      (s.store (kDst d + dtWidth (kDtype d) * (a2vBase o r + n)) (zeroBytes (dtWidth (kDtype d) * (kCap d - n)))).2
    else s) s

/-- The ranges that it writes. -/
def a2vRanges (o : ColOp) : List (Nat × Nat × Bool) :=
  let d := o.desc
  (kCnts d + 8 * opP o, 8 * opP o, true) ::
    (if kPadded d then (List.range (opP o)).map fun r =>
      let n := capped d ((countOf o r).getD 0)
      outRange o (a2vBase o r + n) (kCap d - n) else [])

/-- The member's part is done: everything it receives is written and everything it sends acknowledged (log entry 26). -/
def State.colCheckDone (s : State) (i : OpId) : State :=
  match s.cop i with
  | none => s
  | some o =>
    let known := match kOpc o.desc with
      | 4 => o.cnts.length = opP o
      | 9 => o.cnts.length = 1
      | 7 => false
      | _ => true
    if o.st = 1 && known && o.want.isEmpty && o.ins.isEmpty && o.txs.isEmpty && o.holds.isEmpty && o.wait.isEmpty && !s.cdem.any (·.op = i) then
      match (if kOpc o.desc = 4 then s.colHeld (a2vRanges o) else none) with
      | some s => s
      | none =>
      let s := if kOpc o.desc = 4 then s.a2vFinish o else s
      s.colEnd i (if o.poison then stPoison else if o.dropped && kDropFail o.desc then stOverflowDropped else stOK) o.rank
    else s

/-! ### Reduction (R296, R297) -/

/-- The total of chunk `q` is complete at its owner: converted, written, and for ALL_REDUCE passed on as a FINAL held for every member. -/
def State.colTotal (s : State) (o : ColOp) (q stg : Nat) (acc : List Nat) (poison : Bool) : State :=
  let d := o.desc
  let conv := acc.map (finalConv d)
  let data := if poison then zeroBytes (acc.length * dtWidth (kDtype d)) else (conv.map (·.1)).flatten
  let sp := chunkSpan d q
  let s := if poison then s else
    (s.modCop o.id fun o => { o with cats := o.cats + (conv.filter (·.2)).length }).colWrite o
      (if kOpc d = 1 then sp.1 - o.rank * kCount d else sp.1) data
  if kOpc d = 0 then
    let s := s.modCop o.id fun o => { o with holds := o.holds ++ [⟨q, stg, data, poison, otherRanks o⟩] }
    (distTo (kAlg d) (opP o) o.rank q o.rank (opShape o)).foldl (fun s r => s.queueTx o.id ⟨⟨1, q, r⟩, stg, data, poison, false, false⟩) s
  else s

/-- Chunk `q` once every partial it takes has been verified: each is added in the order of R297, and the result leaves or is the total. -/
def State.colReduce (s : State) (i : OpId) (q : Nat) (stg0 : Option Nat) : State :=
  match s.cop i with
  | none => s
  | some o =>
    let d := o.desc
    let plan := redPlan (kAlg d) (opP o) (chunkOwner d (opP o) q) q o.rank (opShape o)
    let inOf := fun (r : Nat) => o.ins.find? fun c => c.ref = ⟨0, q, r⟩ && c.ok
    let ins := plan.1.filterMap fun e => (inOf e.1).map fun c => (c, e.2)
    let sp := chunkSpan d q
    let out := if plan.2.isNone then [outRange o (if kOpc d = 1 then sp.1 - o.rank * kCount d else sp.1) sp.2] else []
    if ins.length < plan.1.length then s
    else match s.colHeld (inRanges o sp.1 sp.2 ++ out) with
    | some s => s.colWait i ⟨0, q, 0⟩ stg0
    | none =>
      let x := s.colInput o sp.1 sp.2
      if x.1 ≠ stOK then x.2.2.2.colAbort i x.1
      else
        let dt := kDtype d
        let ct := carryType dt (kNarrow d)
        let own := (cutElems (dtWidth dt) x.2.1).map (toAcc dt)
        let acc := ins.foldl (fun acc e =>
          let v := (cutElems (dtWidth ct) e.1.data).map (toAcc ct)
          if e.2 then List.zipWith (combine dt (kRedop d)) v acc else List.zipWith (combine dt (kRedop d)) acc v) own
        let poison := x.2.2.1 || ins.any (·.1.poison)
        let stg := match stg0, ins.getLast? with | some k, _ => k | none, some e => e.1.stg | none, none => 0
        let s := (x.2.2.2.colPoison i poison).modCop i fun o => { o with ins := o.ins.filter fun c => !(c.ref.kind = 0 && c.ref.q = q) }
        let s := match plan.2 with
          | some r =>
            let data := if poison then zeroBytes (acc.length * dtWidth ct) else (acc.map (toCarry dt (kNarrow d))).flatten
            s.queueTx i ⟨⟨0, q, r⟩, stg, data, poison, false, false⟩
          | none => s.colTotal o q stg acc poison
        (s.gcStages i).colCheckDone i

/-! ### Chunks this member forms -/

/-- A staging chunk has been granted for a chunk this member forms itself. -/
def State.formChunk (s : State) (i : OpId) (c : ChunkRef) (stg : Nat) : State :=
  match s.cop i with
  | none => s
  | some o =>
    let d := o.desc
    if c.kind = 0 then s.colReduce i c.q (some stg)
    else
      let own := kOpc d = 2 || kOpc d = 5
      let sp := chunkSpan d c.q
      -- first element in SRC, and the element count
      let src := match kOpc d with
        | 2 => (sp.1 - o.rank * kCount d, sp.2)
        | 3 => (c.rank * kCount d + c.q * kCe d, partSpan d c.q (kCount d))
        | 4 =>
          let cs := (List.range (opP o)).map fun r => s.getLE (kCnts d + 8 * r) 8
          ((cs.take c.rank).sum + c.q * kCe d, partSpan d c.q (capped d (cs.getD c.rank 0)))
        | 5 => sp
        | _ => (c.q * kCe d, partSpan d c.q (kCount d))
      let w := dtWidth (kDtype d)
      match s.colHeld ((kSrc d + src.1 * w, src.2 * w, false) :: (if own then [outRange o sp.1 sp.2] else [])) with
      | some s => s.colWait i c (some stg)
      | none =>
      let x := s.colRead o (kSrc d) src.1 src.2
      if x.1 ≠ stOK then x.2.2.2.colAbort i x.1
      else
        let s := x.2.2.2.colPoison i x.2.2.1
        if own then
          let s := if x.2.2.1 then s else s.colWrite o sp.1 x.2.1
          let s := (distTo (kAlg d) (opP o) o.rank c.q o.rank (opShape o)).foldl
            (fun s r => s.queueTx i ⟨⟨2, c.q, r⟩, stg, x.2.1, x.2.2.1, false, false⟩) s
          (s.gcStages i).colCheckDone i
        else s.queueTx i ⟨c, stg, x.2.1, x.2.2.1, false, false⟩

/-- A demand is granted: a chunk of this member's own is formed, or its sender's request is answered with CREDIT (R293). -/
def State.stageGive (s : State) (dm : ColDem) (res : Bool) : State :=
  let (k, s) := s.takeStage dm.op res
  if dm.own then s.formChunk dm.op dm.ref k
  else
    match s.cop dm.op with
    | none => s
    | some o =>
      let s := s.modCop dm.op fun o => { o with ins := o.ins ++ [⟨dm.ref, k, [], none, false, [], false⟩] }
      (s.colCtl o 4 dm.ref.q dm.ref.rank (ctlData 0 dm.ref.kind 0)).progress dm.op

/-- A demand arises: granted at once from the group's reserve or, when none waits before it, from the free chunks (R295). -/
def State.demand (s : State) (dm : ColDem) : State :=
  if s.cdem.contains dm then s
  else if s.mayReserve dm then s.stageGive dm true
  else if s.cdem.isEmpty && decide (0 < s.poolFree) then s.stageGive dm false
  else { s with cdem := s.cdem ++ [dm] }

/-- A staging chunk is granted to waiting demand: the first that its group's reserve may serve, or the oldest from the free chunks. -/
def State.chunkGrant (s : State) : State :=
  match s.cdem with
  | [] => s
  | d0 :: _ =>
    let pick := if 0 < s.poolFree ∧ s.mayReserve d0 = false then some (d0, false)
      else (s.cdem.find? s.mayReserve).map fun d => (d, true)
    match pick with
    | some (d, res) => ({ s with cdem := s.cdem.filter (· ≠ d) }).stageGive d res
    | none => s

/-! ### Starting to move data (R295) -/

/-- The chunks a member receives, and those it forms itself, when its operation starts. -/
def opChunkRefs (o : ColOp) (cs : List Nat) : List ChunkRef × List ChunkRef :=
  let d := o.desc
  let p := opP o
  let qs := List.range (opChunks d p)
  let per := fun (f : Nat → List ChunkRef) => (qs.map f).flatten
  let direct := fun (n : Nat → Nat) (rs : List Nat) => (rs.map fun r => (List.range (blockChunks d (n r))).map fun j => (⟨2, j, r⟩ : ChunkRef)).flatten
  match kOpc d with
  | 0 | 1 | 6 =>
    let plan := fun (q : Nat) => redPlan (kAlg d) p (chunkOwner d p q) q o.rank (opShape o)
    (per fun q =>
        ((plan q).1.map fun e => ⟨0, q, e.1⟩)
        ++ (if kOpc d = 0 ∧ chunkOwner d p q ≠ o.rank then [⟨1, q, distFrom (kAlg d) p (chunkOwner d p q) q o.rank (opShape o)⟩] else []),
      per fun q => if (plan q).1.isEmpty then [⟨0, q, (plan q).2.getD 0⟩] else [])
  | 2 | 5 =>
    (per fun q => if chunkOwner d p q = o.rank then [] else [⟨2, q, distFrom (kAlg d) p (chunkOwner d p q) q o.rank (opShape o)⟩],
      per fun q => if chunkOwner d p q = o.rank then [⟨2, q, o.rank⟩] else [])
  | 3 => (direct (fun _ => kCount d) (otherRanks o), direct (fun _ => kCount d) (otherRanks o))
  | 4 => ([], direct (fun r => capped d (cs.getD r 0)) (otherRanks o))
  | 8 => ([], direct (fun _ => kCount d) [o.id.peer.toNat])
  | _ => ([], [])

/-- A member's own block of ALL_TO_ALL or ALL_TO_ALLV is copied within its memory. -/
def State.ownBlock (s : State) (i : OpId) : State :=
  match s.cop i with
  | none => s
  | some o =>
    let d := o.desc
    let cs := if kOpc d = 4 then (List.range (opP o)).map fun r => s.getLE (kCnts d + 8 * r) 8 else []
    let mv := match kOpc d with
      | 3 => some (o.rank * kCount d, kCount d, o.rank * kCount d)
      | 4 => some ((cs.take o.rank).sum, capped d (cs.getD o.rank 0), a2vBase o o.rank)
      | _ => none
    match mv with
    | none => s
    | some (src, n, dst) =>
      match s.colHeld [(kSrc d + src * dtWidth (kDtype d), n * dtWidth (kDtype d), false), outRange o dst n] with
      | some s => s.colWait i ⟨2, 0, o.rank⟩ none
      | none =>
      let x := s.colRead o (kSrc d) src n
      if x.1 ≠ stOK then x.2.2.2.colAbort i x.1
      else
        let s := x.2.2.2.colPoison i x.2.2.1
        if x.2.2.1 then s else (s.colWrite o dst x.2.1).delivered i o.rank n

/-- Everything known of the incoming blocks, a privileged ALL_TO_ALLV checks their sum against COUNT and every one learns which chunks to expect (R301). -/
def State.countsKnown (s : State) (i : OpId) : State :=
  match s.cop i with
  | none => s
  | some o =>
    let d := o.desc
    if kOpc d = 4 ∧ o.cnts.length = opP o then
      if kPadded d = false ∧ kCount d < (o.cnts.map (·.2)).sum then s.colAbort i stBadLength
      else
        let w := (((otherRanks o).map fun r => (List.range (blockChunks d (capped d ((countOf o r).getD 0)))).map fun j => (⟨2, j, r⟩ : ChunkRef)).flatten).filter fun c => !o.good.contains c
        let s := s.modCop i fun o => { o with want := w }
        (if kPadded d then s else s.ownBlock i).colCheckDone i
    else if kOpc d = 9 ∧ o.cnts.length = 1 then
      let n := (countOf o o.id.peer.toNat).getD 0
      if kCount d < n then s.colAbort i stBadLength
      else (s.modCop i fun o => { o with want := (List.range (blockChunks d n)).map fun j => (⟨2, j, o.id.peer.toNat⟩ : ChunkRef) }).colCheckDone i
    else s

/-- Operation `i` starts moving data. -/
def State.colMove (s : State) (i : OpId) : State :=
  match s.cop i with
  | none => s
  | some o =>
    let d := o.desc
    let cs := if kOpc d = 4 then (List.range (opP o)).map fun r => s.getLE (kCnts d + 8 * r) 8 else []
    let refs := opChunkRefs o cs
    let drops := (cs.map fun c => c - capped d c).sum
    let s := s.modCop i fun o => { o with st := 1, want := refs.1, result := drops, dropped := drops ≠ 0 }
    let s := match kOpc d with
      | 4 =>
        let s := (otherRanks o).foldl (fun (s : State) r => s.colCtl o 7 0 r (ctlData (cs.getD r 0) 0 0)) s
        s.modCop i fun o => { o with cnts := o.cnts ++ [(o.rank, cs.getD o.rank 0)] }
      | 8 => s.colCtl o 7 0 o.id.peer.toNat (ctlData (kCount d) 0 0)
      | _ => s
    let s := if kOpc d = 3 || (kOpc d = 4 && kPadded d) then s.ownBlock i else s
    (refs.2.foldl (fun (s : State) c => s.demand ⟨i, c, true⟩) s).countsKnown i

/-! ### Messages in (R292, R293, R302) -/

/-- A field of the class bytes. -/
def mGroup (m : Msg) : Nat := recField m.hdr 0 2 % 4096
def mEpoch (m : Msg) : Nat := recField m.hdr 2 2
def mSeq (m : Msg) : Nat := recField m.hdr 4 4
def mChunk (m : Msg) : Nat := recField m.hdr 8 4
def mKind (m : Msg) : Nat := recField m.hdr 12 1
def mPoison (m : Msg) : Bool := bitAt (recField m.hdr 13 1) 7
def mPair (m : Msg) : Bool := bitAt (recField m.hdr 13 1) 6
def mRank (m : Msg) : Nat := recField m.hdr 14 2 % 32768

/-- A pair's message comes from the SEND: its kind tells, or byte 9 of its data (log entry 23). -/
def mFromSend (m : Msg) : Bool :=
  match mKind m with
  | 2 | 3 | 7 => true
  | 4 | 6 => false
  | _ => recField m.data 9 1 = 1

/-- The accepted operation a message belongs to; of a SEND and a RECV of one peer and pair sequence, the one at the other end. -/
def State.copOf (s : State) (m : Msg) : Option ColOp :=
  s.cops.find? fun o =>
    decide (o.id.grp.val = mGroup m) && decide (o.epoch = mEpoch m) && decide (o.id.seq.toNat = mSeq m)
    && (if mPair m then
          decide (o.id.kind = (if mFromSend m then 2 else 1)) && decide (o.id.peer.toNat = mRank m)
        else decide (o.id.kind = 0))

/-- The message's operation was accepted and closed here before. -/
def State.wasClosed (s : State) (m : Msg) : Bool :=
  let g := s.group (mGroup m)
  let nxt := if mPair m then Sparse.getD (fun _ => 0) (if mFromSend m then g.recvs else g.sends) (mRank m) else g.gseq
  g.valid && decide (g.epoch = mEpoch m) && decide (2 ^ 31 ≤ (mSeq m + 2 ^ 32 - nxt) % 2 ^ 32)

/-- Answer a message's sender without an operation: a retry, or the ACK of a repeated STATUS or DECISION. -/
def State.colReply (s : State) (m : Msg) (kind q : Nat) (data : Bytes) : State :=
  let g := s.group (mGroup m)
  let side := if mPair m then (if mFromSend m then 2 else 1) else 0
  s.sendMsg { m with dst := m.src, typ := Config.colType, data := recPut data 9 (leBytes 1 side), ordered := false
                     hdr := recPut (recPut (recPut m.hdr 8 (leBytes 4 q)) 12 (leBytes 1 kind)) 14 (leBytes 2 g.rank) }

/-- CREDIT with CHUNK all ones: ask again (R293). -/
def State.colRetry (s : State) (m : Msg) : State := s.colReply m 4 0xFFFFFFFF (ctlData 0 (recField m.data 8 1) (mChunk m))

/-- Hold a message for an operation not accepted or not ready for it. -/
def State.holdEarly (s : State) (m : Msg) : State := { s with early := s.early ++ [m] }

/-- The owner of a message's chunk. -/
def ownerOf (o : ColOp) (q : Nat) : Nat := chunkOwner o.desc (opP o) q

/-- The chunk a piece belongs to: a FINAL counts as its distribution order's, whoever sent it. -/
def pieceRef (o : ColOp) (m : Msg) : ChunkRef :=
  if mKind m = 1 then ⟨1, mChunk m, distFrom (kAlg o.desc) (opP o) (ownerOf o (mChunk m)) (mChunk m) o.rank (opShape o)⟩
  else ⟨mKind m, mChunk m, mRank m⟩

/-- The bytes of a chunk that comes in, where they are known yet. -/
def inLen (o : ColOp) (c : ChunkRef) : Option Nat :=
  let d := o.desc
  let w := dtWidth (kDtype d)
  if c.kind = 0 then some ((chunkSpan d c.q).2 * dtWidth (carryType (kDtype d) (kNarrow d)))
  else
    match kOpc d with
    | 3 => some (partSpan d c.q (kCount d) * w)
    | 4 | 9 => (countOf o c.rank).map fun n => partSpan d c.q (capped d n) * w
    | _ => some ((chunkSpan d c.q).2 * w)

/-- A CREDIT_REQ for an accepted operation (R293): a demand for a staging chunk; it waits for the operation to start and, on a privileged ALL_TO_ALLV and a RECV, for the counts. -/
def State.creditReq (s : State) (o : ColOp) (m : Msg) : State :=
  let c : ChunkRef := ⟨recField m.data 8 1, mChunk m, mRank m⟩
  let waits : Bool := decide (o.st = 0) || (decide (kOpc o.desc = 4) && !kPadded o.desc && decide (o.cnts.length < opP o)) || (decide (kOpc o.desc = 9) && o.cnts.isEmpty)
  if waits then s.holdEarly m
  else if o.st ≠ 1 then s
  else if o.ins.any (·.ref = c) then s.colCtl o 4 c.q c.rank (ctlData 0 c.kind 0)
  else if o.good.contains c then s.colCtl o 5 c.q c.rank (ctlData 0 c.kind 0)
  else if o.want.contains c || (decide (kOpc o.desc = 4) && decide (o.cnts.length < opP o) && decide (c.kind = 2) && decide (c.q * kCe o.desc < kCap o.desc)) then s.demand ⟨o.id, c, false⟩
  else s

/-- CREDIT arrives: the chunk goes; an all-ones chunk means ask again in 50 µs (CREDIT_RETRY). -/
def State.credited (s : State) (o : ColOp) (m : Msg) : State :=
  let c : ChunkRef := ⟨recField m.data 8 1, mChunk m, mRank m⟩
  match o.txs.find? fun t => t.ref = c && !t.sent with
  | none => s
  | some t =>
    if o.st ≠ 1 then s
    else
      let s := s.sendChunk o c t.data t.poison
      let s := s.modCop o.id fun o =>
        { o with txs := if c.kind = 1 then o.txs.filter (·.ref ≠ c) else o.txs.map fun x => if x.ref = c then { x with sent := true } else x }
      (s.gcStages o.id).colCheckDone o.id

/-- An ACK or a NACK of a chunk (R302): a FINAL's goes to its owner. A re-send after a NACK is counted once it has been verified. -/
def State.chunkReply (s : State) (o : ColOp) (m : Msg) (ok : Bool) : State :=
  let k := recField m.data 8 1
  let c : ChunkRef := ⟨k, mChunk m, mRank m⟩
  if ok then
    let s := (s.progress o.id).modCop o.id fun o =>
      if k = 1 then { o with holds := (o.holds.map fun h => if h.q = c.q then { h with need := h.need.erase c.rank } else h).filter fun h => !h.need.isEmpty }
      else { o with txs := o.txs.filter fun t => !(t.ref = c && t.sent) }
    let s := if o.nacked.contains c then
        (s.fsat (F.colChcnt_RESEND (kChannel o.desc)) 1).modCop o.id fun o => { o with nacked := o.nacked.filter (· ≠ c) }
      else s
    (s.gcStages o.id).colCheckDone o.id
  else
    let again := fun (data : Bytes) (poison : Bool) =>
      ((s.colError o 0xA0 0).modCop o.id fun o => { o with nacked := o.nacked ++ [c] }).sendChunk o c data poison
    if k = 1 then
      match o.holds.find? fun h => h.q = c.q && h.need.contains c.rank with
      | some h => again h.data h.poison
      | none => s
    else
      match o.txs.find? fun t => t.ref = c && t.sent with
      | some t => again t.data t.poison
      | none => s

/-- A verified FINAL or DATA chunk is written, and passed on where the operation's pattern says so. -/
def State.chunkWritten (s : State) (o : ColOp) (c : ColIn) (data : Bytes) (poison : Bool) : State :=
  let d := o.desc
  let sp := chunkSpan d c.ref.q
  let w := dtWidth (kDtype d)
  let pass := if kOpc d = 0 ∨ kOpc d = 2 ∨ kOpc d = 5 then distTo (kAlg d) (opP o) (ownerOf o c.ref.q) c.ref.q o.rank (opShape o) else []
  let dst := match kOpc d with
    | 3 => c.ref.rank * kCount d + c.ref.q * kCe d
    | 4 => a2vBase o c.ref.rank + c.ref.q * kCe d
    | 9 => c.ref.q * kCe d
    | _ => sp.1
  match (if poison then none else s.colHeld [outRange o dst (data.length / w)]) with
  | some s => s.colWait o.id c.ref none
  | none =>
  let s := if poison then s else (s.colWrite o dst data).delivered o.id c.ref.rank (data.length / w)
  let s := s.modCop o.id fun o => { o with ins := o.ins.filter (·.ref ≠ c.ref) }
  let s := pass.foldl (fun s r => s.queueTx o.id ⟨⟨c.ref.kind, c.ref.q, r⟩, c.stg, data, poison, false, c.ref.kind = 1⟩) s
  (s.gcStages o.id).colCheckDone o.id

/-- A chunk has all its pieces: checked against its CCRC, then acknowledged and used, or refused (R302); one whose staging chunk has failed is a poisoned one (R304). -/
def State.chunkWhole (s : State) (o : ColOp) (c : ColIn) (n ccrc : Nat) (poison : Bool) : State :=
  let data := if c.poison then zeroBytes n else ((c.pieces.map (·.2)).flatten).take n
  let poison := poison || c.poison
  let to' := if c.ref.kind = 1 then ownerOf o c.ref.q else c.ref.rank
  if c.poison || decide (crc64xz data = ccrc) then
    let s := s.colCtl o 5 c.ref.q to' (ctlData 0 c.ref.kind 0)
    let s := (s.colPoison o.id poison).modCop o.id fun o =>
      { o with good := o.good ++ [c.ref], want := o.want.filter (· ≠ c.ref)
               ins := o.ins.map fun x => if x.ref = c.ref then { x with ok := true, data := data, poison := poison, pieces := [] } else x }
    if c.ref.kind = 0 then s.colReduce o.id c.ref.q none else s.chunkWritten o c data poison
  else if o.bad.contains c.ref then (s.colError o 0xA1 1).colAbort o.id stCheckFail
  else
    let s := s.modCop o.id fun o =>
      { o with bad := o.bad ++ [c.ref], ins := o.ins.map fun x => if x.ref = c.ref then { x with pieces := [], len := none } else x }
    s.colCtl o 6 c.ref.q to' (ctlData 0 c.ref.kind 0)

/-- A PARTIAL, FINAL or DATA piece arrives; the last one of a chunk verified before is acknowledged again, in whatever state the operation is (R302). -/
def State.chunkPiece (s : State) (o : ColOp) (m : Msg) : State :=
  let n := m.data.length - 16
  let tr := m.data.drop n
  let off := 16 * (recField tr 12 2 % 8192)
  let c := pieceRef o m
  let known := if o.good.contains c && bitAt (recField tr 14 1) 0 then
    s.colCtl o 5 c.q (if c.kind = 1 then ownerOf o c.q else c.rank) (ctlData 0 c.kind 0) else s
  if o.st ≠ 1 then known
  else
    if recField tr 8 4 ≠ opSig o.desc then (s.colError o 0xA2 1).colAbort o.id stCheckFail
    else
      let s := s.progress o.id
      match o.ins.find? fun x => x.ref = c && !x.ok with
      | none => known.progress o.id
      | some x =>
        let x := { x with pieces := x.pieces.insert off (m.data.take n), len := if bitAt (recField tr 14 1) 0 then some (off + n) else x.len }
        let s := s.modCop o.id fun o => { o with ins := o.ins.map fun y => if y.ref = c then x else y }
        let got := (x.pieces.map (·.2.length)).sum
        match x.len, inLen o c with
        | some t, some want => if t ≤ got then s.chunkWhole o x want (recField tr 0 8) (mPoison m) else s
        | some t, none => if t ≤ got then s.holdEarly m else s
        | none, _ => s

/-- A COL message meets its accepted operation. -/
def State.colDispatch (s : State) (o : ColOp) (m : Msg) : State :=
  let val := recField m.data 0 8
  match mKind m with
  | 0 | 1 | 2 => if o.st = 0 then s.holdEarly m else s.chunkPiece o m
  | 3 => s.creditReq o m
  | 4 => if mChunk m = 0xFFFFFFFF then s else s.credited o m
  | 5 =>
    let k := recField m.data 8 1
    if k = 8 ∨ k = 9 then (s.modCop o.id fun o => { o with rel := o.rel.filter (· ≠ (k, mRank m)) }).dropClosed o.id
    else s.chunkReply o m true
  | 6 => s.chunkReply o m false
  | 7 =>
    if o.st = 0 then s.holdEarly m
    else if o.st ≠ 1 || o.cnts.any (·.1 = mRank m) then s
    else (s.modCop o.id fun o => { o with cnts := o.cnts ++ [(mRank m, val % 2 ^ 40)] }).countsKnown o.id
  | 8 =>
    let s := s.colCtl o 5 0 (mRank m) (ctlData 0 8 0)
    (s.modCop o.id fun o => if o.kids.any (·.1 = mRank m) then o else { o with kids := o.kids ++ [(mRank m, val % 256, val / 2 ^ 16 % 2 ^ 16)] }).colTry o.id
  | 9 => (s.colCtl o 5 0 (mRank m) (ctlData 0 9 0)).colDecide o.id (val % 256)
  | 10 => s.colEnd o.id (val % 256) (val / 2 ^ 16 % 2 ^ 16)
  | _ => s

/-- Messages held for operation `i` are looked at again. -/
def State.drainEarly (s : State) (i : OpId) : State :=
  let mine := s.early.filter fun m => match s.copOf m with | some o => o.id = i | none => false
  let s := { s with early := s.early.filter fun m => !mine.contains m }
  mine.foldl (fun s m => match s.copOf m with | some o => s.colDispatch o m | none => s) s

/-- A COL message for this device (R293): stale ones are counted, a newer epoch's request is answered with retry, one for an operation not yet accepted is held. -/
def State.colIn (s : State) (m : Msg) : State :=
  let g := s.group (mGroup m)
  let behind := (g.epoch + 2 ^ 16 - mEpoch m) % 2 ^ 16
  if s.failed then s
  else if 10 < mKind m then s.fsat F.colStat_BADMSG 1
  else if g.valid && decide (0 < behind) && decide (behind < 2 ^ 15) then s.fsat F.colStat_STALE 1
  else
    match s.copOf m with
    | some o => let s := s.colDispatch o m; if mKind m = 7 then s.drainEarly o.id else s
    | none =>
      if s.wasClosed m then (if mKind m = 8 ∨ mKind m = 9 then s.colReply m 5 0 (ctlData 0 (mKind m) 0) else s)
      else if mKind m = 3 then
        if behind ≠ 0 || 4096 ≤ (s.early.filter fun e => mKind e = 3 && (s.copOf e).isNone).length then s.colRetry m else s.holdEarly m
      else if mKind m = 4 ∨ mKind m = 5 ∨ mKind m = 6 then s
      else s.holdEarly m

/-! ### Acceptance (R284-R290) -/

/-- Steps 1 and 2 of R290 for a descriptor of partition `p` from stream `k`. -/
def State.colCheck (s : State) (k p d : Nat) : AddrCheck :=
  let g := s.group (kGroup d)
  let n := g.members.length
  let dt := kDtype d
  let w := dtWidth (if kReduces d then carryType dt (kNarrow d) else dt)
  let xorOk := kOpc d = 6 && kRedop d = 3 && (List.range 8).any fun q => s.fbit (F.umbSet_EN q) && decide (s.fget (F.umbSet_GROUP q) = kGroup d)
  let ok := s.fbit F.colPool_LOCK && s.fbit F.colPriv_LOCK && g.valid && g.active && decide (g.part = p) && decide (g.stream = k)
    && s.fbit (F.colChcfg_EN (kChannel d)) && decide (s.fget (F.colChcfg_PART (kChannel d)) = p)
    && algOk (kOpc d) (kAlg d) && decide (dt ≤ 6) && (!kReduces d || redopOk dt (kRedop d)) && (kAlg d ≠ 2 || g.shape.isSome)
    && decide (kRoot d < n) && !(kPair d && decide (kRoot d = g.rank)) && (!kXor2 d || xorOk)
    && (kOpc d = 7 || (decide (4096 ≤ kCe d * w) && decide (kCe d * w ≤ 65536)))
  if !ok then .bad stDenied
  else if kCount d = 0 ∧ kOpc d ≠ 7 ∧ kOpc d ≠ 4 then .noop
  else .good

/-- A footprint of a collective (R290): in a STACK or LLC region with the permission. -/
def State.colFoot (s : State) (p a len : Nat) (ok : Rgn → Bool) : Option Nat :=
  if len = 0 then none
  else
    match s.regionAt p a with
    | some r => if (r.ty = 0 || r.ty = 1) && ok r then (if r.limit < a + len - 1 then some stBadLength else none) else some stOutOfBounds
    | none => some stOutOfBounds

/-- Steps 4 and 5 of R290: the counts and the footprints of R289. -/
def State.colFoots (s : State) (o : ColOp) : Option Nat :=
  let d := o.desc
  let p := opP o
  let w := dtWidth (kDtype d)
  let n := kCount d
  let root := o.rank = kRoot d
  let cs := if kOpc d = 4 then (List.range p).map fun r => s.getLE (kCnts d + 8 * r) 8 else []
  let cnts := if kOpc d ≠ 4 then none
    else match s.colFoot o.part (kCnts d) (16 * p) (fun r => r.rd && r.wr) with
      | some e => some e
      | none =>
        let st := (s.read (kCnts d) (8 * p)).1
        if st ≠ stOK then some st else if cs.any (2 ^ 40 ≤ ·) then some stBadLength else none
  let sizes : Nat × Nat := match kOpc d with
    | 0 => (n, n)
    | 1 => (p * n, n)
    | 2 => (n, p * n)
    | 3 => (p * n, p * n)
    | 4 => (cs.sum, if kPadded d then p * kCap d else n)
    | 5 => (if root then n else 0, n)
    | 6 => (n, if root || kXor2 d then n else 0)
    | 8 => (n, 0)
    | 9 => (0, n)
    | _ => (0, 0)
  let wr := fun (r : Rgn) => if kXor2 d && !root then r.rd else r.wr
  cnts <|> (if o.zeros then none else s.colFoot o.part (kSrc d) (sizes.1 * w) (·.rd)) <|> s.colFoot o.part (kDst d) (sizes.2 * w) wr

/-- An operation is accepted: it takes its sequence number (R285), emits COL_ACCEPT, and passes or fails the rest of R290. A BARRIER contributes at once. -/
def State.colAccept (s : State) (stream : Option Nat) (sseq p d : Nat) (zeros : Bool := false) : State :=
  let gi := kGroup d
  let g := s.group gi
  let peer := kRoot d
  let seq := match kOpc d with
    | 8 => Sparse.getD (fun _ => 0) g.sends peer
    | 9 => Sparse.getD (fun _ => 0) g.recvs peer
    | _ => g.gseq
  let nxt := (seq + 1) % 2 ^ 32
  let s := s.modGroup gi fun g => match kOpc d with
    | 8 => { g with sends := Sparse.setD (fun _ => 0) g.sends peer nxt }
    | 9 => { g with recvs := Sparse.setD (fun _ => 0) g.recvs peer nxt }
    | _ => { g with gseq := nxt }
  let i : OpId := ⟨Fin.ofNat 4096 gi, if kOpc d = 8 then 1 else if kOpc d = 9 then 2 else 0,
    if kPair d then BitVec.ofNat 15 peer else 0, BitVec.ofNat 32 seq⟩
  let o : ColOp := {
    id := i, epoch := g.epoch, stream := stream, sseq := sseq, desc := d, part := p, members := g.members, shape := g.shape
    rank := g.rank, st := 0, status := 0, origin := 0, result := 0, cats := 0, cnts := [], dlv := [], want := [], ins := [], txs := []
    holds := [], stages := [], nstg := 1, poison := false, dropped := false, zeros := zeros, bad := [], good := [], kids := [], sentUp := false
    decided := none, rel := [], nacked := [], wait := [], stalled := false }
  let s := { s with cops := s.cops ++ [o] }
  let c := kChannel d
  let s := s.tail (2188 + c) 0x60 8 (s.partOfUnit (unitChannel c) 0) (gi + g.epoch * 2 ^ 12 + seq * 2 ^ 32)
  if kOpc d = 7 then ((s.modCop i fun o => { o with st := 1, origin := o.rank }).contribute i).drainEarly i
  else
    match s.colFoots o with
    | some e => (s.colAbort i e).drainEarly i
    | none => s.drainEarly i

/-- Operations of group `g` in a state. -/
def State.groupOps (s : State) (g : Nat) (st : Nat → Bool) : List ColOp := s.cops.filter fun o => o.id.grp.val = g && st o.st

/-- The oldest pending operation of a group starts while fewer than 64 move data, which a BARRIER never does (R295). -/
def State.colStart (s : State) (g : Nat) : State :=
  if s.failed || 64 ≤ ((s.groupOps g (· = 1)).filter fun o => kOpc o.desc ≠ 7).length then s
  else
    match s.groupOps g (· = 0) with
    | [] => s
    | o :: _ =>
      match (if kOpc o.desc = 4 then s.blocked (kCnts o.desc) (8 * opP o) false else none) with
      | some s => s
      | none => (s.colMove o.id).drainEarly o.id

/-- A COLLECTIVE with operation code `opc` at the head of stream `k` is accepted; it waits while the pending lists are full (R295). -/
def State.strColl (s : State) (k opc : Nat) : State :=
  match s.strHead k 3 with
  | none => s
  | some d =>
    if kOpc d ≠ opc then s
    else if 65536 ≤ (s.cops.filter (·.st = 0)).length then s.strWait k
    else
      match s.colCheck k (s.strPart k) d with
      | .bad st => (s.strBegin k d 1).completeOp k (sdSeq d) st 0 0
      | .noop => (s.strBegin k d 1).completeOp k (sdSeq d) stOK 0 0
      | .good =>
        match (if kOpc d = 4 then s.blocked (kCnts d) (8 * (s.group (kGroup d)).members.length) false else none) with
        | some s => s
        | none =>
        let s := (s.strBegin k d 1).modStr k fun t => { t with colOpen := t.colOpen ++ [sdSeq d] }
        s.colAccept (some k) (sdSeq d) (s.strPart k) d

/-- The checks of the descriptor that has become next to start (R230, R290). -/
def State.descriptorCheck (s : State) (k : Nat) : State := s.strCheck k fun s d => s.colCheck k (s.strPart k) d

/-! ### Timers (R302, R305-R307) -/

/-- 1 ms without ACK or NACK: the chunk goes again (R302). -/
def State.chunkTimeout (s : State) (i : OpId) (q r : Nat) : State :=
  match s.cop i with
  | none => s
  | some o =>
    let again := fun (c : ChunkRef) (data : Bytes) (poison : Bool) =>
      (s.fsat (F.colChcnt_RESEND (kChannel o.desc)) 1).sendChunk o c data poison
    if o.st ≠ 1 then s
    else
      match o.txs.find? fun t => t.ref.q = q && t.ref.rank = r && t.sent with
      | some t => again t.ref t.data t.poison
      | none =>
        match o.holds.find? fun h => h.q = q && h.need.contains r && !o.txs.any fun t => t.ref = ⟨1, q, r⟩ with
        | some h => again ⟨1, q, r⟩ h.data h.poison
        | none => s

/-- 50 µs after a retry answer the sender asks again (R293). -/
def State.creditRetry (s : State) (i : OpId) (q r : Nat) : State :=
  match s.cop i with
  | none => s
  | some o =>
    match o.txs.find? fun t => t.ref.q = q && t.ref.rank = r && !t.sent with
    | some t => if o.st = 1 then s.colCtl o 3 q r (ctlData 0 t.ref.kind 0) else s
    | none => s

/-- An unacknowledged STATUS or DECISION goes again (R305). -/
def State.agreeResend (s : State) (i : OpId) : State :=
  match s.cop i with
  | none => s
  | some o =>
    let bad := (o.kids.filter (·.2.1 ≠ stOK)).foldl (fun (b : Option (Nat × Nat)) e => match b with
      | none => some e.2
      | some x => if e.2.2 < x.2 then some e.2 else some x) none
    let up := bad.getD (stOK, o.rank)
    o.rel.foldl (fun s e =>
      if e.1 = 8 then s.colCtl o 8 0 e.2 (ctlData (up.1 + up.2 * 2 ^ 16) 0 0)
      else s.colCtl o 9 0 e.2 (ctlData (o.decided.getD 0) 0 0)) s

/-- AGREE_MS have passed: PEER_LOST is taken as agreed (R306). -/
def State.agreeTimeout (s : State) (i : OpId) : State :=
  match s.cop i with
  | none => s
  | some o => if o.st = 2 ∨ (o.st = 1 ∧ kOpc o.desc = 7) then (s.colError o 0xA4 1).colClose i stPeerLost else s

/-- STALL_MS without progress (R307). -/
def State.colStall (s : State) (i : OpId) : State :=
  match s.cop i with
  | none => s
  | some o =>
    if o.st = 1 ∧ kOpc o.desc ≠ 7 ∧ o.stalled = false then
      (((s.colError o 0xA3 1).fsat (F.colChcnt_STALLS (kChannel o.desc)) 1)).modCop i fun o => { o with stalled := true }
    else s

/-- ABORT_MS after a stall without progress (R307). -/
def State.stallAbort (s : State) (i : OpId) : State :=
  match s.cop i with
  | none => s
  | some o => if o.st = 1 && o.stalled && s.fget F.colCfg_ABORT_MS ≠ 0 then s.colAbort i stStall else s

/-! ### Memory that answers, staging that fails -/

/-- Work that waited for lines of its memory goes on. -/
def State.colResume1 (s : State) (i : OpId) (e : ChunkRef × Option Nat) : State :=
  let s := s.modCop i fun o => { o with wait := o.wait.erase e }
  match s.cop i with
  | none => s
  | some o =>
    if e.1.kind = 0 then s.colReduce i e.1.q e.2
    else match e.2 with
      | some k => s.formChunk i e.1 k
      | none =>
        if e.1.rank = o.rank then s.ownBlock i
        else match o.ins.find? fun x => x.ref = e.1 && x.ok with
          | some x => s.chunkWritten o x x.data x.poison
          | none => s

/-- Lines have become free: every operation that moves data looks at its work again. -/
def State.colResume (s : State) : State :=
  if s.failed then s
  else s.cops.foldl (fun s o => if o.st = 1 then (o.wait.foldl (fun s e => s.colResume1 o.id e) s).colCheckDone o.id else s) s

/-- An uncorrectable error in the staging chunk at place `k` of the pool: what it holds is poisoned, and the operation ends with POISON (R304, R309). -/
def State.stagingPoison (s : State) (k : Nat) : State :=
  match s.cops.find? fun o => o.stages.any (·.2.2 = k) with
  | none => s
  | some o =>
    let mine := fun (stg : Nat) => o.stages.any fun e => decide (e.1 = stg) && decide (e.2.2 = k)
    (s.colError o 0xA6 1).modCop o.id fun o => { o with
      poison := true
      ins := o.ins.map fun x => if mine x.stg then { x with poison := true, data := zeroBytes x.data.length } else x
      txs := o.txs.map fun x => if mine x.stg then { x with poison := true, data := zeroBytes x.data.length } else x
      holds := o.holds.map fun x => if mine x.stg then { x with poison := true, data := zeroBytes x.data.length } else x }

/-- A slice reports an uncorrectable error at an address: a staging chunk of the pool may lie there. -/
def State.stagingEcc (s : State) (a : Nat) (e : SliceEcc) : State :=
  let lo := 0x10000000000 + s.fget F.colPool_BASE * 65536
  if e = .uncorrectable && s.fbit F.colPool_LOCK && decide (lo ≤ a) && decide (a < lo + s.fget F.colPool_CHUNKS * 65536) then s.stagingPoison ((a - lo) / 65536)
  else s

/-- The engine works (R314): a FAILED device's stands still. -/
def State.colRuns (s : State) (f : State → State) : State := if s.failed then s else f s

/-- Every outstanding collective of a partition's groups ends with TARGET_RESET and sends ABORT (R313, R417). -/
def State.colPartEnd (s : State) (p : Nat) : State :=
  ((s.cops.filter fun o => o.part = p && o.st < 2).map (·.id)).foldl (fun s i => s.colAbort i stTargetReset) s

/-! ### The rows that are no register writes -/

def execDescriptorCheck (k : Fin 65536) (s : State) : Out := .next (s.descriptorCheck k)
def execAllReduce (k : Fin 65536) (s : State) : Out := .next (s.strColl k 0)
def execReduceScatter (k : Fin 65536) (s : State) : Out := .next (s.strColl k 1)
def execAllGather (k : Fin 65536) (s : State) : Out := .next (s.strColl k 2)
def execAllToAll (k : Fin 65536) (s : State) : Out := .next (s.strColl k 3)
def execAllToAllv (k : Fin 65536) (s : State) : Out := .next (s.strColl k 4)
def execBroadcastOp (k : Fin 65536) (s : State) : Out := .next (s.strColl k 5)
def execReduceOp (k : Fin 65536) (s : State) : Out := .next (s.strColl k 6)
def execBarrierOp (k : Fin 65536) (s : State) : Out := .next (s.strColl k 7)
def execSendOp (k : Fin 65536) (s : State) : Out := .next (s.strColl k 8)
def execRecvOp (k : Fin 65536) (s : State) : Out := .next (s.strColl k 9)
def execCollectiveOpStart (g : Fin 4096) (s : State) : Out := .next (s.colStart g)
def execChunkGrant (s : State) : Out := .next (s.colRuns State.chunkGrant)

/-- A COL message of kind `k` arrives on a link. -/
def State.colRow (s : State) (l : Nat) (m : Msg) (k : Nat) : State :=
  if m.cls ≠ 2 ∨ mKind m ≠ k then s.takeRx l m else s.onMsg l m fun s => s.colIn m

def execPartialMsg (link : Fin 64) (m : Msg) (s : State) : Out := .next (s.colRow link m 0)
def execFinalMsg (link : Fin 64) (m : Msg) (s : State) : Out := .next (s.colRow link m 1)
def execDataMsg (link : Fin 64) (m : Msg) (s : State) : Out := .next (s.colRow link m 2)
def execCreditReqMsg (link : Fin 64) (m : Msg) (s : State) : Out := .next (s.colRow link m 3)
def execCreditMsg (link : Fin 64) (m : Msg) (s : State) : Out := .next (s.colRow link m 4)
def execAckMsg (link : Fin 64) (m : Msg) (s : State) : Out := .next (s.colRow link m 5)
def execNackMsg (link : Fin 64) (m : Msg) (s : State) : Out := .next (s.colRow link m 6)
def execCountsMsg (link : Fin 64) (m : Msg) (s : State) : Out := .next (s.colRow link m 7)
def execStatusMsg (link : Fin 64) (m : Msg) (s : State) : Out := .next (s.colRow link m 8)
def execDecisionMsg (link : Fin 64) (m : Msg) (s : State) : Out := .next (s.colRow link m 9)
def execAbortMsg (link : Fin 64) (m : Msg) (s : State) : Out := .next (s.colRow link m 10)
/-- The member's part has completed: its local status is contributed (R305). -/
def execCollectiveLocalComplete (op : OpId) (s : State) : Out := .next (s.colRuns fun s => s.colCheckDone op)
def execChunkResendTimeout (op : OpId) (chunk : BitVec 32) (rank : BitVec 15) (s : State) : Out := .next (s.colRuns fun s => s.chunkTimeout op chunk.toNat rank.toNat)
def execCreditRetry (op : OpId) (chunk : BitVec 32) (rank : BitVec 15) (s : State) : Out := .next (s.colRuns fun s => s.creditRetry op chunk.toNat rank.toNat)
def execAgreementResend (op : OpId) (s : State) : Out := .next (s.colRuns fun s => s.agreeResend op)
def execAgreeTimeout (op : OpId) (s : State) : Out := .next (s.colRuns fun s => s.agreeTimeout op)
def execCollectiveStall (op : OpId) (s : State) : Out := .next (s.colRuns fun s => s.colStall op)
def execStallAbort (op : OpId) (s : State) : Out := .next (s.colRuns fun s => s.stallAbort op)

def execLlcRequest (addr : BitVec 48) (req : SliceReq) (s : State) : Out :=
  .next ((s.sliceRequest { addr := addr.toNat, acc := req.acc, who := askerOf req.who, ecc := req.ecc }).stagingEcc addr.toNat req.ecc)
def execNarrowRequest (addr : BitVec 48) (req : SliceReq) (s : State) : Out :=
  .next ((s.sliceRequest { addr := addr.toNat, acc := req.acc, narrow := true, who := askerOf req.who, ecc := req.ecc }).stagingEcc addr.toNat req.ecc)

end Sys2Proof.Machine
end

