-- ==== Sys2Proof/Machine/Groups.lean ====
section
/-! DEFINITION. The group commands and the COL_ registers (R282-R285, R294, R308, R310-R312). -/

namespace Sys2Proof.Machine

/-! ### COL_ registers -/

/-- A write of COL_CFG. -/
def State.colCfgWrite (s : State) (w : Wr) : Nat × State :=
  let a := w.fld F.colCfg_AGREE_MS
  let b := w.fld F.colCfg_ABORT_MS
  let c := w.fld F.colCfg_STALL_MS
  s.wIf w (decide (1 ≤ a) && decide (a ≤ 60000) && decide (b ≤ 60000) && decide (1 ≤ c) && decide (c ≤ 60000))

/-- A write of COL_POOL: LOCK = 1 asks that every chunk lies in scratchpad-mode ways and no region covers the pool (R294). -/
def State.colPoolWrite (s : State) (w : Wr) : Nat × State :=
  let n := w.fld F.colPool_CHUNKS
  let b := w.fld F.colPool_BASE
  if n < 256 ∨ 4096 < n ∨ 12287 < b then s.wDeny
  else if s.fbit F.colPool_LOCK then
    if n = s.fget F.colPool_CHUNKS ∧ b = s.fget F.colPool_BASE ∧ w.fld F.colPool_LOCK = 1 then (stOK, s) else s.wDeny
  else
    let a := 0x10000000000 + b * 65536
    s.wIf w (w.fld F.colPool_LOCK = 0
      || (decide (b + n ≤ 12288) && (List.range n).all (fun i => s.backed (a + 65536 * i)) && !s.anyRegionIn a (a + 65536 * n - 1)))

/-- A write of COL_CHCFG while the channel has operations outstanding is refused (R312). -/
def State.colChcfgWrite (s : State) (c : Nat) (w : Wr) : Nat × State :=
  s.wIf w (!s.cops.any fun o => decide (kChannel o.desc = c) && decide (o.st < 3))

/-- COL_POOLSTAT as it reads. -/
def State.colPoolstat (s : State) : Nat :=
  min s.activeGroups 8191 * 2 ^ 32 + min (2 * s.activeGroups) 8191 * 2 ^ 16 + min s.poolFree 8191

/-! ### Group commands (R283, R284, R308, R311) -/

/-- READ fills the staging words from the entry. -/
def State.gcmdRead (s : State) (g : Nat) : Nat × State :=
  let x := s.group g
  let sh := x.dims
  let b := fun (v : Bool) (n : Nat) => if v then 2 ^ n else 0
  let s := s.setReg .colGdata0 (b x.valid 63 + b x.active 62 + x.part * 2 ^ 56 + x.stream * 2 ^ 32 + x.epoch)
  let s := s.setReg .colGdata1 ((x.members.length - 1) * 2 ^ 48 + x.rank * 2 ^ 32 + b x.shape.isSome 15
    + (sh.2.2 - 1) * 2 ^ 10 + (sh.2.1 - 1) * 2 ^ 5 + (sh.1 - 1))
  (1, (s.setReg .colGdata2 x.mlist).setReg .colGdata3 (x.lastOk * 2 ^ 32 + x.gseq))

/-- The member list staged in the data words, loaded and checked (R283): the entries, or the RESULT that refuses it. -/
def State.gcmdList (s : State) : Nat × List Nat :=
  let p := s.fget F.colGdata1_PM1 + 1
  let a := s.fget F.colGdata2_MLIST
  let sh := (s.fget F.colGdata1_GXM1 + 1) * (s.fget F.colGdata1_GYM1 + 1) * (s.fget F.colGdata1_GZM1 + 1)
  if a % 2 = 1 then (2, [])
  else
    let stack := match spaceOf a with | .stack _ => true | _ => false
    let r := s.read a (2 * p)
    let l := (List.range p).map fun i => recField r.2 (2 * i) 2
    if !stack || r.1 ≠ stOK || p < 2 || l.any (32768 ≤ ·) || !decide l.Nodup || !l.contains s.devid
        || (s.fbit F.colGdata1_SHAPED && decide (sh ≠ p)) then (3, [])
    else (1, l)

/-- The entry takes the staged fields and the list; sequences restart. -/
def State.gcmdLoad (s : State) (g : Nat) (l : List Nat) : State :=
  let dims := (s.fget F.colGdata1_GXM1 + 1, s.fget F.colGdata1_GYM1 + 1, s.fget F.colGdata1_GZM1 + 1)
  s.modGroup g fun x => { x with
    valid := s.fbit F.colGdata0_VALID, part := s.fget F.colGdata0_PART, stream := s.fget F.colGdata0_STREAM, epoch := s.fget F.colGdata0_EPOCH
    members := l, shape := if s.fbit F.colGdata1_SHAPED then some dims else none, dims := dims, okNone := true, rank := (findIdx? (· = s.devid) l).getD 0, mlist := s.fget F.colGdata2_MLIST
    gseq := 0, sends := [], recvs := [] }

/-- WRITE (R283, R311): a new group, refused while the group is active. Every field is taken, VALID among them, and the list is checked whatever VALID says. -/
def State.gcmdWrite (s : State) (g : Nat) : Nat × State :=
  if (s.group g).active then (5, s)
  else
    let r := s.gcmdList
    if r.1 ≠ 1 then (r.1, s) else (1, (s.gcmdLoad g r.2).modGroup g fun x => { x with lastOk := 0 })

/-- ACTIVATE reserves two chunks (R284). -/
def State.gcmdActivate (s : State) (g : Nat) : Nat × State :=
  let x := s.group g
  if !x.valid then (2, s)
  else if x.active then (1, s)
  else if s.poolFree < 2 then (4, s)
  else (1, s.modGroup g fun x => { x with active := true })

/-- DEACTIVATE, refused while accepted operations have not completed (R284). -/
def State.gcmdDeactivate (s : State) (g : Nat) : Nat × State :=
  if !(s.groupOps g (· < 3)).isEmpty then (5, s) else (1, s.modGroup g fun x => { x with active := false })

/-- REFORM (R308): every accepted operation of the old epoch ends with GROUP_EPOCH in GSEQ order, then the list and the epoch change. -/
def State.gcmdReform (s : State) (g : Nat) : Nat × State :=
  let x := s.group g
  if !x.valid || decide (s.fget F.colGdata0_EPOCH ≠ (x.epoch + 1) % 65536) then (2, s)
  else
    let r := s.gcmdList
    if r.1 ≠ 1 then (r.1, s)
    else
      let s := (s.groupOps g (fun _ => true)).foldl (fun s o =>
        let s := s.colLocal o.id stGroupEpoch o.rank
        let s := s.colClose o.id stGroupEpoch
        { s with cops := s.cops.filter (·.id ≠ o.id) }) s
      let s := { s with early := s.early.filter fun m => mGroup m ≠ g || mEpoch m ≠ x.epoch }
      let s := s.gcmdLoad g r.2
      let (w, s) := s.draw
      (1, s.error { unit := unitChannel (w.toNat % 64), code := 0xA5, cls := 0, addr := g, part := some x.part, every := oneSecond })

/-- What keeps the member list that a WRITE or a REFORM loads from being read (R188). -/
def State.gcmdHeld (s : State) : Option State :=
  if s.fget F.colGcmd_CMD = 1 ∨ s.fget F.colGcmd_CMD = 4 then s.blocked (s.fget F.colGdata2_MLIST) (2 * (s.fget F.colGdata1_PM1 + 1)) false else none

/-- Run the command in COL_GCMD (R311); GO stays while the member list waits. -/
def State.gcmdRun (s : State) : State :=
  match s.gcmdHeld with
  | some s => s
  | none =>
  let g := s.fget F.colGcmd_GROUP
  let r := match s.fget F.colGcmd_CMD with
    | 0 => s.gcmdRead g
    | 1 => s.gcmdWrite g
    | 2 => s.gcmdActivate g
    | 3 => s.gcmdDeactivate g
    | 4 => s.gcmdReform g
    | _ => (2, s)
  (r.2.fset F.colGcmd_RESULT r.1).fset F.colGcmd_GO 0

/-- A write of COL_GCMD. -/
def State.colGcmdWrite (s : State) (w : Wr) : Nat × State :=
  s.wGo w F.colGcmd_GO (s.fbit F.colGcmd_GO) (some (F.colGcmd_RESULT, 6)) State.gcmdRun

end Sys2Proof.Machine
end

