-- ==== Sys2Proof/Machine/Umbra.lean ====
section
/-! DEFINITION. Umbra, the peer parity (R325-R333): folding windows, settling a held window, rebuilding a member, and the UMB_ registers. -/

namespace Sys2Proof.Machine

/-- One stripe: 64 KiB (R325). -/
def stripeLen : Nat := 65536

/-- S, the members of partition `p`'s set. -/
def State.umbS (s : State) (p : Nat) : Nat := s.fget (F.umbSet_SM1 p) + 1

/-- The stripe of member `m` that holder `k` protects in row `r` (R325). -/
def stripeNo (S r k m : Nat) : Nat := r * (S - 1) + (k + 2 * S - m - 1) % S

/-- Addresses: a stripe in the protected area, a parity stripe, and their places in the buffers of window `w` (R326, R333). -/
def State.protAddr (s : State) (p q : Nat) : Nat := s.fget (F.umbProt_BASE p) + q * stripeLen
def State.parAddr (s : State) (p r : Nat) : Nat := s.fget (F.umbPar_BASE p) + r * stripeLen
def State.newAddr (s : State) (p w q : Nat) : Nat :=
  let n := s.fget (F.umbWin_NROWS p) * (s.umbS p - 1)
  s.fget (F.umbWin_BASE p) + (w % 2 * n + (q - w * n)) * stripeLen
def State.scratchAddr (s : State) (p w r : Nat) : Nat :=
  let nr := s.fget (F.umbWin_NROWS p)
  s.fget (F.umbWin_BASE p) + (2 * nr * (s.umbS p - 1) + w % 2 * nr + (r - w * nr)) * stripeLen

/-- The descriptor of a REDUCE with XOR on the set's channel (R326): RING, UINT32, CLOG2 14. -/
def State.umbDesc (s : State) (p root src dst : Nat) (xor2 : Bool) : Nat :=
  leVal (mkRec 64 [(4, 1, 3), (8, 2, s.fget (F.umbSet_GROUP p)), (10, 1, s.fget (F.umbSet_CHANNEL p)), (11, 1, 6), (12, 1, 0x34),
    (13, 1, 14), (14, 2, root + (if xor2 then 32768 else 0)), (16, 8, src), (24, 8, dst), (32, 8, 16384)])

/-- The service hands a REDUCE to the engine. -/
def State.umbReduce (s : State) (p d : Nat) (zeros : Bool) : State :=
  let seq := (s.group (kGroup d)).gseq
  (s.modUmb p fun u => { u with open' := u.open' ++ [seq] }).colAccept none 0 p d zeros

/-- The engine would take the service's operations. -/
def State.umbReady (s : State) (p : Nat) : Bool :=
  let d := s.umbDesc p 0 (s.parAddr p 0) (s.scratchAddr p 0 0) false
  match s.colCheck (s.fget (F.umbSet_USTREAM p)) p d with
  | .good => true
  | _ => false

/-- The rows of window `w`. -/
def State.windowRows (s : State) (p w : Nat) : List Nat :=
  let nr := s.fget (F.umbWin_NROWS p)
  (List.range (min nr (s.fget (F.umbRows_ROWS p) - w * nr))).map (· + w * nr)

/-- The service stops with STATE HELD; the window under way stays in its buffers (R326, R327). -/
def State.umbHold (s : State) (p : Nat) : State :=
  (s.fset (F.umbStat_STATE p) 3).modUmb p fun u => { u with pend := true, open' := [] }

/-- The REDUCEs of the current window: one for each row and holder (R326). -/
def State.foldIssue (s : State) (p : Nat) : State :=
  if !s.umbReady p then s.umbHold p
  else
    let S := s.umbS p
    let w := s.fget (F.umbStat_WINDOW p)
    let me := s.fget (F.umbSet_MYIDX p)
    let s := (s.fset (F.umbStat_STATE p) 2).modUmb p fun u => { u with open' := [], worst := stOK, pend := false }
    (s.windowRows p w).foldl (fun s r =>
      (List.range S).foldl (fun s k =>
        if k = me then s.umbReduce p (s.umbDesc p k (s.parAddr p r) (s.scratchAddr p w r) false) false
        else
          let q := stripeNo S r k me
          s.umbReduce p (s.umbDesc p k (s.protAddr p q) (s.newAddr p w q) true) false) s) s

/-- The job's SIGNAL starts the fold of a window; during a Transit the service rests at its window boundary (R393). -/
def State.foldWindow (s : State) (p : Nat) : State :=
  let u := s.umb p
  if s.fbit (F.umbSet_EN p) && decide (s.fget (F.umbStat_STATE p) = 1) && !s.failed && !s.fw.transit
      && decide (u.seen < s.fget (F.strScnt_SCNT (s.fget (F.umbSet_USTREAM p)))) then
    (s.modUmb p fun u => { u with seen := u.seen + 1, tries := 0 }).foldIssue p
  else s

/-- Copy bytes within the partition's memory; the status of a failure. -/
def State.umbCopy (r : Nat × State) (src dst : Nat) : Nat × State :=
  if r.1 ≠ stOK then r
  else
    let x := r.2.load {} src stripeLen
    if x.1 ≠ stOK then (x.1, x.2.2) else x.2.2.store dst x.2.1

/-- Apply the current window (R326, steps 3 and 4): new bytes and parity are copied, the frontier moves, JSTREAM is signalled. -/
def State.windowPut (s : State) (p : Nat) : Nat × State :=
  let S := s.umbS p
  let w := s.fget (F.umbStat_WINDOW p)
  let nr := s.fget (F.umbWin_NROWS p)
  let r := (s.windowRows p w).foldl (fun (a : Nat × State) r =>
    let a := (List.range (S - 1)).foldl (fun (a : Nat × State) j =>
      State.umbCopy a (s.newAddr p w (r * (S - 1) + j)) (s.protAddr p (r * (S - 1) + j))) a
    State.umbCopy a (s.scratchAddr p w r) (s.parAddr p r)) (stOK, s)
  if r.1 ≠ stOK then r
  else
    let s := if s.fget (F.umbRows_ROWS p) ≤ (w + 1) * nr then
        (r.2.fset (F.umbStat_WINDOW p) 0).finc (F.umbStat_STEP p) 1
      else r.2.fset (F.umbStat_WINDOW p) (w + 1)
    (stOK, s.finc (F.strScnt_SCNT (s.fget (F.umbSet_JSTREAM p))) 1)

/-- The ranges that applying the current window reads and writes. -/
def State.windowRanges (s : State) (p : Nat) : List (Nat × Nat × Bool) :=
  let S := s.umbS p
  let w := s.fget (F.umbStat_WINDOW p)
  (s.windowRows p w).flatMap fun r =>
    [(s.scratchAddr p w r, stripeLen, false), (s.parAddr p r, stripeLen, true)]
    ++ (List.range (S - 1)).flatMap fun j => [(s.newAddr p w (r * (S - 1) + j), stripeLen, false), (s.protAddr p (r * (S - 1) + j), stripeLen, true)]

/-- The window's REDUCEs have all agreed: applied when OK; folded again up to three times on CHECK_FAIL; else HELD. -/
def State.windowApply (s : State) (p : Nat) : State :=
  let u := s.umb p
  if s.fget (F.umbStat_STATE p) ≠ 2 || !u.open'.isEmpty || s.failed then s
  else if u.worst = stOK then
    match s.colHeld (s.windowRanges p) with
    | some s => s
    | none =>
    let r := s.windowPut p
    if r.1 = stOK then r.2.fset (F.umbStat_STATE p) 1 else r.2.umbHold p
  else if u.worst = stCheckFail ∧ u.tries < 3 then (s.modUmb p fun u => { u with tries := u.tries + 1 }).foldIssue p
  else s.umbHold p

/-! ### UMB_CMD (R327, R330, R331, R333) -/

/-- A rebuild of member `m` runs over rows `lo` to `lo + n - 1`. -/
def State.rebuild (s : State) (p m lo n : Nat) : State :=
  let S := s.umbS p
  let me := s.fget (F.umbSet_MYIDX p)
  let was := s.fget (F.umbStat_STATE p)
  let s := (s.fset (F.umbStat_STATE p) 4).modUmb p fun u => { u with open' := [], worst := stOK, rebuild := true, was := was }
  let s := ((List.range n).map (· + lo)).foldl (fun s r =>
    (List.range S).foldl (fun s k =>
      let src := if k = me then s.parAddr p r else s.protAddr p (stripeNo S r k me)
      let dst := if k = m then s.parAddr p r else s.protAddr p (stripeNo S r k m)
      s.umbReduce p (s.umbDesc p m src dst false) (me = m)) s) s
  s.rebuildEnd p

/-- Run UMB_CMD; a REBUILD keeps GO until its REDUCEs have agreed, an APPLY while its memory waits. -/
def State.umbRun (s : State) (p : Nat) : State :=
  let st := s.fget (F.umbStat_STATE p)
  let fin := fun (s : State) (r : Nat) => (s.fset (F.umbCmd_RESULT p) r).fset (F.umbCmd_GO p) 0
  let lo := s.fget (F.umbRange_RFIRST p)
  let n := s.fget (F.umbRange_RCOUNT p)
  let rows := s.fget (F.umbRows_ROWS p)
  match s.fget (F.umbCmd_CMD p) with
  | 0 =>
    if st ≠ 3 then fin s 2
    else if !(s.umb p).pend then fin s 3
    else match s.colHeld (s.windowRanges p) with
    | some s => s
    | none =>
      let r := s.windowPut p
      if r.1 = stOK then fin (r.2.modUmb p fun u => { u with pend := false }) 1 else fin (r.2.umbFailed p r.1) 4
  | 1 => if st ≠ 3 then fin s 2 else if !(s.umb p).pend then fin s 3 else fin (s.modUmb p fun u => { u with pend := false }) 1
  | 2 =>
    if st ≠ 1 ∧ st ≠ 3 then fin s 2
    else if rows < lo + n then fin s 5
    else if !s.umbReady p then fin (s.umbFailed p stDenied) 4
    else if n = 0 then s.rebuild p (s.fget (F.umbCmd_IDX p)) 0 rows
    else s.rebuild p (s.fget (F.umbCmd_IDX p)) lo n
  | 3 =>
    if st ≠ 3 then fin s 2
    else if (s.umb p).pend then fin ((s.modUmb p fun u => { u with tries := 0 }).foldIssue p) 1
    else fin (s.fset (F.umbStat_STATE p) 1) 1
  | _ => fin s 2

/-- A write of UMB_CMD. -/
def State.umbCmdWrite (s : State) (p : Nat) (w : Wr) : Nat × State :=
  s.wGo w (F.umbCmd_GO p) (s.fbit (F.umbCmd_GO p)) none (fun s => if s.fw.transit then { s with deferred := s.deferred ++ [.umbCmd p] } else s.umbRun p)

/-! ### UMB_ registers (R333, R362) -/

/-- The region that covers an address of partition `p` is sealed. -/
def State.sealedAt (s : State) (p a : Nat) : Bool := match s.regionAt p a with | some r => r.sealed | none => false

/-- A write of UMB_SET; one with EN = 0 ends a command that still runs with RESULT 4 (log entry 160). -/
def State.umbSetWrite (s : State) (p : Nat) (w : Wr) : Nat × State :=
  let g := s.group (w.fld (F.umbSet_GROUP p))
  let own := fun (k : Nat) => s.strPart k = p && s.partState p ≠ 0
  if w.fld (F.umbSet_SM1 p) = 0 then s.wDeny
  else if w.fld (F.umbSet_EN p) = 0 then
    let s := if s.fbit (F.umbCmd_GO p) then (s.fset (F.umbCmd_RESULT p) 4).fset (F.umbCmd_GO p) 0 else s
    (stOK, { (s.setReg w.reg w.new).fset (F.umbStat_STATE p) 0 with umbra := s.umbra.erase p })
  else if s.fbit (F.umbSet_EN p) || !g.active || decide (g.members.length ≠ w.fld (F.umbSet_SM1 p) + 1)
      || !own (w.fld (F.umbSet_JSTREAM p)) || !own (w.fld (F.umbSet_USTREAM p))
      || s.sealedAt p (s.fget (F.umbProt_BASE p)) != s.sealedAt p (s.fget (F.umbPar_BASE p)) then s.wDeny
  else
    let s := (s.setReg w.reg w.new).fset (F.umbSet_MYIDX p) g.rank
    let seen := s.fget (F.strScnt_SCNT (s.fget (F.umbSet_USTREAM p)))
    (stOK, (s.setReg (.umbStat p) (2 ^ 61)).modUmb p fun _ => { UmbS.init with seen := seen })

/-- A write of another register of the set: none but UMB_RANGE while EN is 1; NROWS 0 is reserved. -/
def State.umbFieldWrite (s : State) (p : Nat) (w : Wr) : Nat × State :=
  s.wIf w (!s.fbit (F.umbSet_EN p) && (w.reg ≠ .umbWin p || decide (w.fld (F.umbWin_NROWS p) ≠ 0)))

/-- A partition reset stops the service with STATE HELD (R417). -/
def State.umbPartReset (s : State) (p : Nat) : State :=
  if s.fbit (F.umbSet_EN p) && decide (s.fget (F.umbStat_STATE p) ≠ 0) then
    let s := if s.fget (F.umbStat_STATE p) = 2 then s.umbHold p else s.fset (F.umbStat_STATE p) 3
    if s.fbit (F.umbCmd_GO p) then
      ((s.modUmb p fun u => { u with rebuild := false, open' := [] }).fset (F.umbCmd_RESULT p) 4).fset (F.umbCmd_GO p) 0
    else s
  else s

/-- Commands that waited for memory run again (R188, R210). -/
def State.memResume (s : State) : State :=
  let s := s.colResume
  let s := if s.fbit F.colGcmd_GO then s.gcmdRun else s
  (List.range 8).foldl (fun (s : State) p =>
    if s.fbit (F.umbCmd_GO p) && decide (s.fget (F.umbCmd_CMD p) = 0) && decide (s.fget (F.umbStat_STATE p) = 3) && !s.fw.transit then s.umbRun p else s) s

def execRetrainEnd (bad bad2 : BadPins) (s : State) : Out := .next (s.rtEnd (bad.map (·.val)) (bad2.map (·.val))).memResume
def execBisnpResponse (line : BitVec 48) (dirty : Bool) (data : Bytes) (s : State) : Out :=
  if dirty = true ∧ data.length ≠ 64 then .fault .illFormed else .next (s.snoopAnswer line.toNat dirty data).memResume
def execUmbraFoldWindow (p : Fin 8) (s : State) : Out := .next (s.foldWindow p)
def execUmbraWindowApply (p : Fin 8) (s : State) : Out := .next (s.windowApply p)

end Sys2Proof.Machine
end

