-- ==== Sys2Proof/Machine/Reset.lean ====
section
/-! DEFINITION. The four resets (R414-R420, R494), fatal-to-partition faults (R313), and the package reset pin (R473). -/

namespace Sys2Proof.Machine

/-! ### What a reset covers -/

/-- Cores of partition `p`'s clusters. -/
def State.partCores (s : State) (p : Nat) : List Nat :=
  if s.partState p = 0 then [] else (List.range 384).filter fun n => bitAt (s.fget (F.prtCfg_CLUSTERS p)) (clusterOfCore n)

/-- Cores of cluster `k` (R28). -/
def clusterCores (k : Nat) : List Nat := (List.range 12).map (12 * k + ·)

/-- The cores and barrier units that a reset covers (R414). -/
def State.rstCovers (s : State) (level target : Nat) : List Nat × List Nat :=
  match level with
  | 0 => ([target], [])
  | 1 => (clusterCores target, [target])
  | _ => (s.partCores target, (List.range 32).filter fun k => bitAt (s.fget (F.prtCfg_CLUSTERS target)) k)

/-- A running reset of the same or a wider level covers the target (R418). -/
def State.rstCovered (s : State) (level target : Nat) : Bool :=
  s.resets.any fun j => decide (level ≤ j.level) &&
    (match level with
      | 0 => j.cores.contains target
      | 1 => j.bars.contains target
      | _ => j.target = target)

/-- The core's STATE is RUN, WAIT or REPLAY. -/
def State.coreBusy (s : State) (n : Nat) : Bool := [1, 2, 3].contains (s.coreState n)

/-- The partition and virtual cluster that barrier unit `k` serves: the unit of the c-th cluster serves virtual cluster c (R60). -/
def State.barServes (s : State) (k : Nat) : Option (Nat × Nat) :=
  (s.partOfCluster k).map fun p => (p, ((List.range k).filter fun j => bitAt (s.fget (F.prtCfg_CLUSTERS p)) j).length)

/-- Physical cores of the virtual cluster that barrier unit `k` serves. -/
def State.barMembers (s : State) (k : Nat) : List Nat :=
  match s.barServes k with
  | none => []
  | some (p, c) => (List.range 12).filterMap fun i => s.vmap p (12 * c + i)

/-- The reset is refused (R414). -/
def State.rstRefused (s : State) (level target : Nat) : Bool :=
  match level with
  | 0 => s.coreBusy target
  | 1 => (clusterCores target).any s.coreBusy || (s.barMembers target).any s.coreBusy
  | _ => false

/-! ### Draining (R415) -/

/-- An UNSEAL of partition `p` ends early: what it has written is zeroed (R366, R415). -/
def State.unsealStop (s : State) (p status : Nat) : State :=
  (s.unseals.filter (·.2.part = p)).foldl (fun s e =>
    let u := e.2
    let s := (s.store u.dst (zeroBytes u.plain.length)).2
    let s := { s with unseals := Sparse.erase s.unseals e.1, flux := s.flux.filter (fun f => f.lo ≠ u.dst) }
    ((s.fset (F.mbxCmd_STATUS e.1) status).fset (F.mbxCmd_BUSY e.1) 0).fset (F.mbxCmd_GO e.1) 0) s

/-- The work of a core stops: its instance ends with TARGET_RESET, and its queues are discarded. -/
def State.coreDrain (s : State) (n : Nat) : State := (s.endInstance n stTargetReset (s.fget (F.coreErr_CODE n))).stopCore n

/-- The work of a partition ends (R313): instances, streams, collectives, the Umbra service, an UNSEAL. -/
def State.partEnd (s : State) (p : Nat) : State :=
  let s := (s.partCores p).foldl (fun s n => s.endInstance n stTargetReset (s.fget (F.coreErr_CODE n))) s
  let s := (s.streamsStop p).colPartEnd p
  (s.umbPartReset p).unsealStop p stTargetReset

/-- Physical cores under resets that run. -/
def State.setResetting (s : State) : State :=
  { s with resetting := ((s.resets.filter (!·.waits)).map (·.cores)).flatten }

/-- A reset that waits for no other takes its units. -/
def State.rstTake (s : State) (j : RstJob) : State := j.cores.foldl (fun s n => s.coreDrain n) s.setResetting

/-- A core, cluster or partition reset starts (R414-R416); a partition reset waits for the resets of its cores that run (R418). -/
def State.rstStart (s : State) (level target : Nat) (cmd : Bool) : State :=
  let c := s.rstCovers level target
  let s := if level = 2 then s.partEnd target else s
  let waits := s.resets.any fun j => c.1.any j.cores.contains
  let j : RstJob := ⟨level, target, cmd, c.1, c.2, waits⟩
  let s := { s with resets := s.resets ++ [j] }
  if waits then s else s.rstTake j

/-- A partition reset that no RST_CMD asked for (R240, R313, R348). -/
def State.partReset (s : State) (p : Nat) : State := if s.rstCovered 2 p then s else s.rstStart 2 p false

/-- A fatal-to-partition fault (R313): its record, then the partition reset. -/
def State.fatalPartition (s : State) (p unit code addr : Nat) (stream : Nat := 0) : State :=
  let s := s.error { unit := unit, code := code, cls := 3, addr := addr, part := some p, stream := stream }
  if s.failed || s.partState p = 0 then s else s.partReset p

/-! ### The state after (R417) -/

/-- A single core loads microcode with its digest check; a failure fences it with UCODE_LOAD (R389, R392, R417). -/
def State.loadUcode (s : State) (n : Nat) : State :=
  let s := { s with fw := { s.fw with swaps := s.fw.swaps.filter (· ≠ n) } }
  match s.ucodeImage with
  | some (b, dig) => if shake b = dig then s.putUcode n b else s.coreFault n 0x28
  | none => s.coreFault n 0x28

/-- Registers of core `n` return to their Reset column values but for CORE_FENCE; CKEN takes the configured value again. -/
def State.coreRegsReset (s : State) (n : Nat) : State :=
  let fence := s.reg (.coreFence n)
  let s := [Reg.coreStatus n, .mxeCtl n, .vxeStat n, .spmEcc n].foldl (fun s r => s.clearRegs (r.off / 4096 * 4096) (r.off / 4096 * 4096 + 4096)) s
  let s := (s.setReg (.coreFence n) fence).fset (F.mxeCkctl_CKEN n) (if bitAt s.boot.cken n then 1 else 0)
  (s.arbsReset 0 (64 * n) (64 * n + 64)).arbsReset 1 n (n + 1)

/-- A core at the end of its reset: everything zero, microcode loaded again where the floor plan marks the core good (R388). -/
def State.coreResetEnd (s : State) (n : Nat) : State :=
  let s := (s.zeroCore n).coreRegsReset n
  let s := s.modCore n fun c => { CoreS.init with fenced := c.fenced }
  if s.coreGood n then s.loadUcode n else s

/-- Streams of partition `p` at the end of its reset: STR_HEAD, STR_CQHEAD, NEXT_SEQ and STR_SCNT at 0, nothing remembered. -/
def State.streamsZero (s : State) (p : Nat) : State :=
  let ks := (s.regs.range 0 0x400000).filterMap fun e =>
    if s.strPart (e.1 / 0x40) = p then some (e.1 / 0x40) else none
  ks.foldl (fun s k =>
    let s := (((s.clearReg (.strHead k)).clearReg (.strCqhead k)).clearReg (.strScnt k)).fset (F.strStat_NEXT_SEQ k) 0
    { s with strs := s.strs.erase k }) s

/-- A reset's units take their state after it. -/
def State.rstApply (s : State) (j : RstJob) : State :=
  let s := j.cores.foldl (fun s n => s.coreResetEnd n) s
  let s := { s with bars := s.bars.filter fun e => !(j.bars.any fun k => s.barServes k = some (e.1 / 32, e.1 % 32)) }
  if j.level = 2 then (s.streamsZero j.target).clearReg (.hstFstat (1 + j.target)) else s

/-- The oldest reset that runs ends: RESULT 1 where RST_CMD asked for it, LOCAL_RESETS counts it, and resets that waited for it proceed. -/
def State.rstDone (s : State) : State :=
  match s.resets.find? fun j => !j.waits with
  | none => s
  | some j =>
    let s := { s with resets := s.resets.erase j }.setResetting
    let s := (s.rstApply j).swapsSeen.fsat F.rstStat_LOCAL_RESETS 1
    let s := if j.cmd then (s.fset F.rstCmd_GO 0).fset F.rstCmd_RESULT 1 else s
    let free := s.resets.filter fun k => k.waits && !(s.resets.any fun i => !i.waits && k.cores.any i.cores.contains)
    free.foldl (fun s k =>
      let k' := { k with waits := false }
      { s with resets := s.resets.map fun (i : RstJob) => if i = k then k' else i }.rstTake k') s

/-! ### Device reset (R413, R416, R420, R494) -/

/-- Registers that Halo keeps over a warm reset, with BOOT_CTL and RST_STAT. -/
def warmKept (off : Nat) : Bool :=
  decide (0x1E60000 ≤ off ∧ off < 0x1E70000) || off = Reg.pwrGov.off || off = Reg.bootCtl.off || off = Reg.rstStat.off

/-- Stage reports stay until the same stage ends again (R403). -/
def reportKept (off : Nat) : Bool := decide ((Reg.bootReport 0 0).off ≤ off ∧ off < (Reg.bootReport 8 7).off + 8)

/-- The port answers the requests it holds: reads with poison, writes acknowledged. -/
def State.hostAbort (s : State) : State :=
  (s.snpq ++ (s.mchs.map fun e => e.2.held ++ e.2.net).flatten).foldl (fun s (h : Held) => match h.host, h.acc with
    | some k, .read n => s.hostReply k n stTargetReset []
    | some k, .write _ => s.emit (.memData k [] false stOK)
    | none, _ => s) s

/-- A device reset, cold or warm: bring-up stands before S0. -/
def State.deviceReset (s : State) (cold : Bool) : State :=
  let s := s.hostAbort
  let resets := min (s.fuses.resets + 1) (2 ^ 32 - 1)
  let base : State :=
    { State.reset with
      pending := s.pending, resp := s.resp, outbox := s.outbox, free := s.free, keys := s.keys, flash := s.flash,
      fuses := { s.fuses with resets := resets },
      regs := s.regs.filter fun e => reportKept e.1 || (!cold && warmKept e.1),
      tripped := s.tripped, thermtrip := s.thermtrip, shutReq := !cold && s.shutReq,
      cxl := { CxlPort.init with perst := s.cxl.perst },
      fw := { Fw.init with enter := s.fw.enter },
      pins := { s.pins with i3c := none, stkEn := !cold && s.pins.stkEn, optEn := !cold && s.pins.optEn } }
  let base := if cold then base else
    { base with
      err := { base.err with halo := s.err.halo }
      boot := { BootS.init with warm := s.boot.warm, cold := false }
      pow := { Pow.init with kick := s.pow.kick, vcmd := s.pow.vcmd, vnow := s.pow.vnow, gainN := s.pow.gainN, gainD := s.pow.gainD } }
  let base := base.fset F.rstStat_DEVICE_RESETS resets
  let base := if cold then base else base.finc F.rstStat_WARM_RESETS 1
  base.fset F.bootStatus_WARM (if cold then 0 else 1)

/-! ### RST_CMD (R414, R418, R420) -/

/-- RST_CMD ends at once with a result. -/
def State.rstResult (s : State) (r : Nat) : State := (s.fset F.rstCmd_RESULT r).fset F.rstCmd_GO 0

/-- Run RST_CMD. The device reset that it asks for is part of the step. -/
def State.rstRun (s : State) : State :=
  let level := s.fget F.rstCmd_LEVEL
  let target := s.fget F.rstCmd_TARGET
  if level = 3 then s.deviceReset false
  else if [384, 32, 8].getD level 0 ≤ target then s.rstResult 3
  else if s.rstCovered level target then s.rstResult 5
  else if s.rstRefused level target then s.rstResult 2
  else s.rstStart level target true

/-- A write of RST_CMD (R420, R493). -/
def State.rstCmdWrite (s : State) (w : Wr) : Nat × State :=
  s.wGo w F.rstCmd_GO (s.fbit F.rstCmd_GO) (some (F.rstCmd_RESULT, 4)) State.rstRun

/-! ### The package reset (R473, R402) -/

/-- PKG_RST_N is low for `ns` nanoseconds: an assertion from 1 µs on, without effect while THERMTRIP_N is asserted. -/
def State.pkgAssert (s : State) (ns : Nat) : State :=
  if ns < 1000 || s.thermtrip || !s.pins.vddHalo then s
  else
    let s := s.deviceReset true
    { s with pins := { s.pins with pkgRst := true, stkEn := false, optEn := false } }

/-- PKG_RST_N rises: S0 may run. -/
def State.pkgDeassert (s : State) : State := { s with pins := { s.pins with pkgRst := false } }

/-! ### The rows that are no register writes -/

def execResetDone (s : State) : Out := .next s.rstDone
def execPkgRstNAssert (ns : Nat) (s : State) : Out := .next (s.pkgAssert ns)
def execPkgRstNDeassert (s : State) : Out := .next s.pkgDeassert
def execFatalToPartition (p : Fin 8) (unit : UnitId) (code : BitVec 8) (addr : BitVec 64) (s : State) : Out :=
  .next (s.fatalPartition p unit.word code.toNat addr.toNat unit.streamNo)
def execFatalToDevice (unit : UnitId) (code : BitVec 8) (addr : BitVec 64) (s : State) : Out :=
  .next (s.fatalDevice unit.word code.toNat addr.toNat unit.streamNo)

end Sys2Proof.Machine
end

