-- ==== Sys2Proof/Machine/HostPort.lean ====
section
/-! DEFINITION. The CXL port (R216-R220, R474), host loss and reattachment (R239-R242), the Ethernet ports (R243, R249), the map switch (R213) and the arbiter commit (R343). -/

namespace Sys2Proof.Machine

/-! ### CXL.mem (R219) -/

/-- Bring-up has reached S8: VFs and HDM decoders are enabled (R402). -/
def State.ready (s : State) : Bool := s.fget F.bootStatus_STAGE = 8 && s.fget F.bootStatus_STATE = 1

/-- Decoder `k` serves requests: mapped, on a CXL link; a CXL 1.1 host has one decoder (R218). -/
def State.hdmOn (s : State) (k : Nat) : Bool :=
  s.ready && s.hostUp && s.fbit (F.hstHdm_VALID k) && (s.cxl.gen ≠ .cxl11 || k = 0)

/-- A host request at an address is allowed (R219, R362): in one region of the decoder's partition with HOST, and not in a sealed region. -/
def State.hostMay (s : State) (k a len : Nat) (ok : Rgn → Bool) : Bool :=
  let p := s.fget (F.hstHdm_PART k)
  decide (a + len ≤ 0xC000000000) && s.inRegion p a len fun r => ok r && r.host && !r.sealed

/-- A request fails its check: counted under the function of the decoder's partition. -/
def State.hostDenied (s : State) (k : Nat) : State := s.fsat (F.hstFstat_DENIED (1 + s.fget (F.hstHdm_PART k))) 1

/-- The local address of an offset in decoder `k`. -/
def State.hdmAddr (s : State) (k off : Nat) : Nat := s.fget (F.hstHdm_DPA_BASE k) * 2 ^ 30 + off

/-- A CXL.mem read: a failed one returns poison (R219); a FAILED device returns poison for every one (R314). -/
def State.cxlRead (s : State) (k off len : Nat) : State :=
  if !s.hdmOn k then s
  else
    let a := s.hdmAddr k off
    if s.failed then s.hostReply k len stDenied []
    else if !s.hostMay k a len (·.rd) then (s.hostDenied k).hostReply k len stDenied []
    else
      s.sliceRequest { addr := a, acc := .read len, host := some k }

/-- A CXL.mem write: a failed one, and every one of a FAILED device, is discarded; data with the poison indication leave their burst poisoned (R205). -/
def State.cxlWrite (s : State) (k off : Nat) (data : Bytes) (poison : Bool) : State :=
  if !s.hdmOn k then s
  else
    let a := s.hdmAddr k off
    if s.failed then s.emit (.memData k [] false stDenied)
    else if !s.hostMay k a data.length (·.wr) then (s.hostDenied k).emit (.memData k [] false stDenied)
    else s.sliceRequest { addr := a, acc := .write data, host := some k, poison := poison }

/-! ### Host snoops of the host-line cache (R189, R220) -/

/-- A host snoop: a modified line's data leave; SnpData leaves it shared, SnpInv removes it, SnpCur leaves it as it is. -/
def State.hostSnoop (s : State) (l0 kind : Nat) : State :=
  let l := l0 / 64 * 64
  if !s.hostUp then s
  else match Sparse.find s.hlc (l / 64) with
    | none => s.emit (.snpResp l [])
    | some h =>
      let s := s.emit (.snpResp l (if h.st = 2 then s.getBytes l 64 else []))
      match kind with
      | 0 => { s with hlc := Sparse.insert s.hlc (l / 64) ⟨1⟩ }
      | 1 => { s with hlc := Sparse.erase s.hlc (l / 64), mem := s.mem.clearRange l (l + 64) }
      | _ => s

/-- 10 ms without an answer to a host-window request (R220): it ends with TIMEOUT. A NETWRITE that waits to start completes so, a descriptor slot cannot be read, and a completion record is lost (log entry 152). -/
def State.hostTimeout (s : State) (who : HostReq) : State :=
  match who with
  | .dma n q =>
    match (s.core n).dmaHead q with
    | none => s
    | some j =>
      let h := (dOp j.desc ≠ 3 && isHost (jobSrc j j.done)) || isHost (jobDst j j.done)
      if h then s.dmaRefused n q stTimeout else s
  | .copy k seq =>
    match (s.str k).started.find? fun o => o.seq = seq.toNat && o.opc = 2 with
    | none => s
    | some o => if isHost (cSrc o.desc) || isHost (cDst o.desc) then s.completeOp k seq.toNat stTimeout 0 0 else s
  | .netwrite k =>
    match s.strHead k 8 with
    | some d => if s.hostStatus (cSrc d) = stTimeout then (s.strStart k d).completeDesc k d stTimeout 0 0 else s
    | none => s
  | .fetch k => if s.fetchable k && s.hostStatus (s.fetchAddr k) = stTimeout then s.fetchFailed k else s
  | .record k => if s.hostStatus (s.fget (F.strCq_BASE k)) = stTimeout then s.modStr k fun t => { t with cqWait := t.cqWait.tail } else s

/-! ### The link (R216, R245, R474) -/

/-- An error record of the port: function events carry the function in ADDR (R245). -/
def State.portError (s : State) (code cls : Nat) (f : Option Nat) : State :=
  let part := match f with
    | some f => if f = 0 || s.partState (f - 1) = 0 then none else some (f - 1)
    | none => none
  s.error { unit := 0x7000, code := code, cls := cls, addr := f.getD 0, part := part, noPart := true }

/-- Training completes with a protocol, width and rate; records that waited for the host go to their rings. -/
def State.cxlTrained (s : State) (gen : CxlGen) (width : CxlWidth) (rate : CxlRate) : State :=
  if (s.cxl.st = 1 || s.cxl.st = 3) && !s.cxl.perst then
    let s := { s with cxl := { s.cxl with st := 2, gen := gen, width := width, rate := rate, ide := none } }
    let s := if width ≠ .x16 || rate ≠ .gt64 then s.portError 0x63 0 none else s
    s.strs.foldl (fun s e => s.cqFlush e.1) s
  else s

/-- The port may start training (R474). -/
def State.cxlMay (s : State) : State :=
  { s with cxl := { s.cxl with may := true, st := if s.cxl.perst || s.cxl.st ≠ 0 then s.cxl.st else 1 } }

/-! ### Host loss (R239, R240) -/

/-- The streams of a partition under its host-loss policy. -/
def State.lossPolicy (s : State) (p policy : Nat) : State :=
  match policy with
  | 0 => (s.liveStreams p).foldl (fun s k => if isHost (s.fget (F.strRing_BASE k)) then s.holdStream k else s) s
  | 1 => (s.liveStreams p).foldl (fun s k => s.holdStream k) s
  | 2 => s.partReset p
  | _ => s

/-- The loss of PF0's host is reported on every Ethernet port that is up (R239); the spec gives the report no form (log entry 102). -/
def State.pf0Report (s : State) : State :=
  [0, 1].foldl (fun s p => if s.fbit (F.ethCfg_EN p) && s.fbit (F.ethStat_UP p) then s.emit (.lossReport p) else s) s

/-- Function `f` becomes host-lost; the records that wait for its host go to the log (R241). -/
def State.hostLost (s : State) (f : Nat) : State :=
  if s.fbit (F.hstAttach_LOST f) then s
  else
    let s := (s.fset (F.hstAttach_LOST f) 1).portError 0x60 1 (some f)
    if f = 0 then s.pf0Report
    else if s.partState (f - 1) = 0 then s
    else
      let s := (s.liveStreams (f - 1)).foldl (fun s k => s.logWaiting k) s
      s.lossPolicy (f - 1) (s.fget (F.hstHbcfg_POLICY f))

/-- The link leaves L0 for longer than 10 ms; a removal is handled as the loss of every function's host (R216). -/
def State.cxlDown (s : State) (removed : Bool) : State :=
  if s.cxl.st ≠ 2 then s
  else
    let s := { s with cxl := { s.cxl with st := 3, ide := none } }.portError 0x62 1 none
    if removed then (List.range 9).foldl (fun s f => s.hostLost f) s else s

/-- TIMEOUT_MS have passed since the last write of HST_HB (R239): 1,200,000 counts of die 8 a millisecond. -/
def State.hbExpired (s : State) (f : Nat) : Bool :=
  let t := s.fget (F.hstHbcfg_TIMEOUT_MS f)
  t ≠ 0 && Sparse.getD (fun _ => 0) s.hbAt f + t * 1200000 ≤ s.now 8

/-- The function's heartbeat timer expires. -/
def State.heartLost (s : State) (f : Nat) : State := if s.hbExpired f then s.hostLost f else s

/-- The timer of function `f` starts again. -/
def State.hbRestart (s : State) (f : Nat) : State := { s with hbAt := Sparse.setD (fun _ => 0) s.hbAt f (s.now 8) }

/-- Under DRAIN_AND_PARK, once every started descriptor of the partition has completed, its clusters are clock-gated (R240). -/
def State.lossGate (s : State) (p : Nat) : State :=
  if s.fbit (F.hstAttach_LOST (1 + p)) && s.fget (F.hstHbcfg_POLICY (1 + p)) = 1 && s.partState p ≠ 0
      && (s.liveStreams p).all (fun k => (s.str k).started.isEmpty) && !s.partRuns p then
    { s with gated := setBit s.gated p true }
  else s

/-- Reattachment (R242, step 1); records logged for streams that ran on are delivered at once. -/
def State.attach (s : State) (f : Nat) : State :=
  let s := ((s.fset (F.hstAttach_LOST f) 0).finc (F.hstAttach_EPOCH f) 1).hbRestart f
  let s := s.portError 0x61 0 (some f)
  if f = 0 then s
  else
    let s := { s with gated := setBit s.gated (f - 1) false }
    (s.liveStreams (f - 1)).foldl (fun s k => if s.strState k = 1 || s.strState k = 2 then s.deliverLog k else s) s

/-- CXL_PERST_N is asserted: the port resets, and every function is host-lost at once (R474). -/
def State.perstAssert (s : State) : State :=
  let s := { s with cxl := { s.cxl with st := 0, perst := true, ide := none } }
  (List.range 9).foldl (fun s f => s.hostLost f) s

/-- CXL_PERST_N is released. -/
def State.perstDeassert (s : State) : State :=
  let s := { s with cxl := { s.cxl with perst := false } }
  if s.cxl.may then s.cxlMay else s

/-! ### HST_ and ETH_ registers (R248, R249) -/

/-- A write of HST_HB restarts the timer, unless it has expired: such a write arrives too late (R239). -/
def State.hbWrite (s : State) (f : Nat) : Nat × State := (stOK, if s.hbExpired f then s.hostLost f else s.hbRestart f)

/-- A write of HST_HBCFG. One that changes TIMEOUT_MS starts the timer again (DEDUCED, log entry 165). -/
def State.hbcfgWrite (s : State) (f : Nat) (w : Wr) : Nat × State :=
  let r := s.wIf w (decide (w.fld (F.hstHbcfg_POLICY f) ≠ 3) && decide (w.fld (F.hstHbcfg_TIMEOUT_MS f) ≤ 60000))
  (r.1, if r.2.fget (F.hstHbcfg_TIMEOUT_MS f) = s.fget (F.hstHbcfg_TIMEOUT_MS f) then r.2 else r.2.hbRestart f)

/-- A write of HST_ATTACH: DETACH, then ATTACH. -/
def State.attachWrite (s : State) (f : Nat) (w : Wr) : Nat × State :=
  let s := if w.set (F.hstAttach_DETACH f) then s.hostLost f else s
  (stOK, if w.set (F.hstAttach_ATTACH f) then s.attach f else s)

/-- A write of HST_HDM[k] (R218, R248). -/
def State.hdmWrite (s : State) (k : Nat) (w : Wr) : Nat × State :=
  let old := s.cxl.gen = .cxl2 || s.cxl.gen = .cxl11
  s.wIf w (w.fld (F.hstHdm_VALID k) = 0 ||
    (decide (w.fld (F.hstHdm_DPA_BASE k) < s.mapN) && !(w.fld (F.hstHdm_MODE k) = 1 && old)))

/-- A write of ETH_CFG. -/
def State.ethWrite (s : State) (p : Nat) (w : Wr) : Nat × State :=
  let m := w.fld (F.ethCfg_MTU p)
  if decide (1518 ≤ m) && decide (m ≤ 9216) && decide (w.fld (F.ethCfg_SPEED p) ≤ 3) then
    let s := s.setReg w.reg w.new
    (stOK, if w.fld (F.ethCfg_EN p) = 0 then s.fset (F.ethStat_UP p) 0 else s)
  else s.wDeny

/-- FEC codewords of a port's receiver are counted (R249). -/
def State.ethFec (s : State) (p : Nat) (c : FecCount) : State :=
  (s.fsat (F.ethStat_FEC_CORR p) c.corr.toNat).fsat (F.ethStat_FEC_UNCORR p) c.uncorr.toNat

/-- An enabled port loses its link (R245), with the codewords its receiver has counted since the last event. -/
def State.ethDown (s : State) (p : Nat) (fec : FecCount) : State :=
  let s := if s.fbit (F.ethCfg_EN p) && s.fbit (F.ethStat_UP p) then s.ethFec p fec else s
  if s.fbit (F.ethCfg_EN p) && s.fbit (F.ethStat_UP p) then
    (s.fset (F.ethStat_UP p) 0).error { unit := unitDie 9, code := 0x66, cls := 1, addr := p }
  else s

/-- An enabled port gains its link, and management firmware has created queue pairs on it at the operator's request, each of one partition (R244; log entry 74). -/
def State.ethUp (s : State) (p : Nat) (qps : QpList) : State :=
  if s.fbit (F.ethCfg_EN p) then
    { s.fset (F.ethStat_UP p) 1 with qps := qps.foldl (fun m q => Sparse.insert m q.1 (q.2.val, p)) s.qps }
  else s

/-! ### The map switch (R213) -/

/-- A stacked-memory request is outstanding: an instance, a moving descriptor, a started COPY, NETWRITE or collective, or a request held. -/
def State.memBusy (s : State) : Bool :=
  !s.noInstances || s.cores.any (fun e => !e.2.dmaIdle) || s.strs.any (fun e => !e.2.started.isEmpty)
  || s.cops.any (fun o => o.st = 1) || !s.snpq.isEmpty || s.mchs.any (fun e => !e.2.held.isEmpty || !e.2.net.isEmpty)

/-- The rebuilt map takes effect; STACK regions at or above N GiB become invalid and their partitions fault, with a record whose CODE the spec does not give (log entry 30). -/
def State.mapSwitch (s : State) : State :=
  if !s.fbit F.memMap_COMMIT || s.fw.transit || s.memBusy || decide (16 < s.retiredCount) then s
  else
    let s := s.setMap.fpStamp false
    let s := { s with mchs := s.mchs.map fun (e : Nat × Mch) => (e.1, { e.2 with newlyRetired := false }) }
    let lost := (List.range 8).map fun p => (p, (s.regions p).filter fun (r : Rgn) => r.ty = 0 && decide (s.mapN * 2 ^ 30 ≤ r.limit))
    let s := lost.foldl (fun (s : State) (e : Nat × List Rgn) => e.2.foldl (fun (s : State) (r : Rgn) => s.setReg (.prtRgnA e.1 r.idx) (s.reg (.prtRgnA e.1 r.idx) % 2 ^ 63)) s) s
    let s := s.fset F.memMap_COMMIT 0
    lost.foldl (fun s e =>
      if e.2.isEmpty then s
      else
        let (c, s) := (s.remeasure e.1).draw
        s.fatalPartition e.1 unitMgmt (c.toNat % 256) 0) s

/-! ### ARB_COMMIT (R343, R344) -/

/-- The shadowed class words of a die's sub-block. -/
def arbWords (d : Nat) : List Reg :=
  ((List.range 9).filter (arbPresent d)).flatMap fun t => if t = 7 then [Reg.arbCls d t 0, .arbCls d t 1] else [Reg.arbCls d t 0]

/-- PENDING follows the shadows. -/
def State.arbPending (s : State) (d : Nat) : State :=
  let differs := (arbWords d).any fun r => s.reg r ≠ bitsOf (Sparse.getD (fun o => (regReset o).toNat) s.arbCls r.off) 63 0
  s.fset (F.arbCommit_PENDING d) (if differs then 1 else 0)

/-- A write of ARB_CLS goes to the shadow. -/
def State.arbClsWrite (s : State) (d : Nat) (w : Wr) : Nat × State := (stOK, (s.setReg w.reg w.new).arbPending d)

/-- A write of ARB_COMMIT: with GO, every shadow of the die takes effect. -/
def State.arbCommitWrite (s : State) (d : Nat) (w : Wr) : Nat × State :=
  if !w.set (F.arbCommit_GO d) then (stOK, s)
  else
    let s := { s with arbCls := (arbWords d).foldl (fun m (r : Reg) => Sparse.setD (fun o => (regReset o).toNat) m r.off (s.reg r)) s.arbCls }
    (stOK, (s.finc (F.arbCommit_COMMITS d) 1).arbPending d)

/-! ### The rows that are no register writes -/

def execCxlMemRead (k : Fin 16) (off : BitVec 48) (len : Fin 65) (s : State) : Out := .next (s.cxlRead k off.toNat len)
def execCxlMemWrite (k : Fin 16) (off : BitVec 48) (data : Bytes) (poison : Bool) (s : State) : Out :=
  if 64 < data.length then .fault .illFormed else .next (s.cxlWrite k off.toNat data poison)
def execSnpdata (line : BitVec 48) (s : State) : Out := .next (s.hostSnoop line.toNat 0)
def execSnpinv (line : BitVec 48) (s : State) : Out := .next (s.hostSnoop line.toNat 1)
def execSnpcur (line : BitVec 48) (s : State) : Out := .next (s.hostSnoop line.toNat 2)
def execHostWindowTimeout (who : HostReq) (s : State) : Out := .next (s.hostTimeout who)
def execCxlLinkTrained (gen : CxlGen) (width : CxlWidth) (rate : CxlRate) (s : State) : Out := .next (s.cxlTrained gen width rate)
/-- The row does not tell a hot removal from another loss of the link: a free value (log entry 166). -/
def execCxlLinkDown (s : State) : Out := .next (s.draw.2.cxlDown (s.draw.1.getLsbD 0))
def execCxlUncorrectable (s : State) : Out := .next (s.fatalDevice 0x7000 0x64 0)
def execCxlPerstNAssert (s : State) : Out := .next s.perstAssert
def execCxlPerstNDeassert (s : State) : Out := .next s.perstDeassert
def execHostLost (f : Fin 9) (s : State) : Out := .next (s.heartLost f)
def execHostLossGate (p : Fin 8) (s : State) : Out := .next (s.lossGate p)
def execEthLinkDown (e : EthFall) (s : State) : Out := .next (s.ethDown e.port e.fec)
def execEthLinkUp (e : EthRise) (s : State) : Out := .next (s.ethUp e.port e.qps)
def execMapSwitchDone (s : State) : Out := .next s.mapSwitch
/-- A Global Persistent Flush request is acknowledged with no action (R216). -/
def execGlobalPersistentFlush (s : State) : Out := .next (if s.hostUp then s.emit .gpfAck else s)
/-- The IDE_KM exchange sets up CXL IDE keys: the module generates the AES-256 keys of both directions, and they are held until the streams end (R216, R353; log entry 103); no service while the module is not OPERATIONAL (R351). -/
def execSpdmIdeKm (_msg : Bytes) (ok : Bool) (s : State) : Out :=
  .next (if ok && s.hostUp && s.fget F.secStat_MSTATE = 1 then
    let k := s.randBytes 8
    { k.2 with cxl := { k.2.cxl with ide := some (leVal k.1) } }
  else s)

end Sys2Proof.Machine
end

