-- ==== Sys2Proof/Machine/Part.lean ====
section
/-! DEFINITION. Partitions (R345-R348), sealing (R360-R363), the security module, its mailboxes and attestation (R350-R352, R364-R366, R373, R374). -/

namespace Sys2Proof.Machine

/-! ### Zeroing a range -/

/-- The stacked-memory address of a memory key, or the key itself outside stacked memory; none for an MCH outside the map. -/
def State.keyAddr (s : State) (k : Nat) : Option Nat :=
  if 768 * 2 ^ 30 ≤ k then some k
  else
    let m := k / 2 ^ 30
    if s.mapN = 768 || bitAt (s.reg (.memLive (m / 64))) (m % 64) then some (s.addrOf m (k % 2 ^ 30)) else none

/-- Write zeros from `lo` to `hi - 1`; whole bursts written clear their poison (R206). -/
def State.zeroRange (s : State) (lo hi : Nat) : State :=
  let inR := fun (o : Option Nat) => match o with | some a => decide (lo ≤ a) && decide (a < hi) | none => false
  { s with
    mem := s.mem.filter fun e => !inR (s.keyAddr e.1)
    poison := s.poison.filter fun e => !inR (s.keyAddr (e.1 / 2 ^ 24 * 2 ^ 30 + e.1 % 2 ^ 24 * 64)) }

/-- Zeros over every SEALED region of `p`. -/
def State.zeroSealed (s : State) (p : Nat) : State :=
  ((s.regions p).filter (·.sealed)).foldl (fun s r => s.zeroRange r.base (r.limit + 1)) s

/-! ### PRT_CMD (R347, R373) -/

/-- PRT_CMD ends with a result. -/
def State.prtEnd (s : State) (r : Nat) : State := (s.fset F.prtCmd_RESULT r).fset F.prtCmd_GO 0

/-- Good cores of the partition's clusters, ascending (R61). -/
def State.goodOf (s : State) (p : Nat) : List Nat :=
  (List.range 384).filter fun n => bitAt (s.fget (F.prtCfg_CLUSTERS p)) (clusterOfCore n) && s.coreGood n

/-- CREATE (R61, R347). -/
def State.create (s : State) (p : Nat) : State :=
  let c := s.fget (F.prtCfg_CLUSTERS p)
  let l := s.goodOf p
  let n := s.fget (F.coreVcfg_VCOUNT p)
  let shares := (List.range 8).any fun q => decide (q ≠ p) && decide (Nat.land c (s.fget (F.prtCfg_CLUSTERS q)) ≠ 0)
  if c = 0 || shares || l.length < n + s.fget (F.coreVcfg_RSV p) then s.prtEnd 3
  else
    let s := (List.range n).foldl (fun s v => s.setReg (.coreVmap p v) (2 ^ 63 + l.getD v 0)) s
    let s := l.foldl (fun s k => (s.enterPart k p).fset (F.coreFence_FENCE k) 0) s
    (s.fset (F.prtCfg_STATE p) 1).prtEnd 1

/-- What SEAL asks for (R360) beside an OPERATIONAL module. -/
def State.sealOk (s : State) (p : Nat) : Bool :=
  let n := s.fget F.prtCmdarg_NALLOW
  let a := s.fget F.prtCmdarg_ADDR
  s.fbit F.secSealpol_SEAL_ALLOW
  && !s.partRuns p && !(s.cops.any fun o => o.part = p && o.st ≠ 3)
  && (s.regions p).any (·.sealed)
  && decide (1 ≤ n) && decide (n ≤ 64) && decide (a % 64 = 0) && s.inRegion p a (64 * n) (fun _ => true)
  && decide ((s.read a (64 * n)).1 = stOK)
  && !Config.jtagUnlocked s.fw.cfgDig
  && (!s.fbit F.secSealpol_REQ_LINK_ENC || (List.range 64).all fun l => !s.fbit (F.lnkCfg_EN l) || s.fbit (F.lnkCfg_ENC l))
  && (!s.fbit F.secSealpol_REQ_IDE || s.cxl.ide.isSome)

/-- SEAL (R361). -/
def State.sealPart (s : State) (p : Nat) : State :=
  if s.fget F.secStat_MSTATE ≠ 1 then s.prtEnd 5
  else if !s.sealOk p then s.prtEnd 3
  else
    let n := s.fget F.prtCmdarg_NALLOW
    let list := s.getBytes (s.fget F.prtCmdarg_ADDR) (64 * n)
    let s := (s.partCores p).foldl (fun s k => s.zeroCore k) (s.zeroSealed p)
    let s := { s with allow := Sparse.setD (fun _ => []) s.allow p ((List.range n).map fun i => recField list (64 * i) 64)
                      keys := s.keys + 1 }
    let s := (s.fset (F.prtStat_ALLOW_N p) n).fset (F.prtCfg_STATE p) 2
    let s := s.modSec p fun _ => { SecPart.init with key := some s.keys, mProg := shake list }
    (s.remeasure p).prtEnd 1

/-- DESTROY begins (R348, step 1): the partition ends as for a fatal-to-partition fault; the rest follows once its reset has ended. -/
def State.destroyStart (s : State) (p : Nat) (go : Bool) : State :=
  let s := (s.partReset p).fset (F.prtCfg_STATE p) 3
  { s with prtRuns := s.prtRuns ++ [⟨p, 2, 0, 0, go⟩] }

/-- DESTROY ends (R348, steps 2 to 4). -/
def State.destroyEnd (s : State) (r : PrtRun) : State :=
  let p := r.part
  let cores := s.partCores p
  let s := cores.foldl (fun s n => s.zeroCore n) (s.zeroSealed p)
  let s := { s with prtRuns := s.prtRuns.erase r, secp := s.secp.erase p, allow := s.allow.erase p
                    rgnq := s.rgnq.filter (·.part ≠ p), gated := setBit s.gated p false }
  let s := (s.regions p).foldl (fun s e => s.setReg (.prtRgnA p e.idx) (s.reg (.prtRgnA p e.idx) % 2 ^ 63)) s
  let s := s.clearRegs (Reg.coreVmap p 0).off ((Reg.coreVmap p 383).off + 8)
  let s := cores.foldl (fun s n => (s.fset (F.coreFence_FENCE n) 1).modCore n fun c => { c with lastPart := none }) s
  let s := (s.clearReg (.prtStat p)).setReg (.prtCfg p) 0
  if r.go then s.prtEnd 1 else s

/-- The first DESTROY whose partition reset has ended is completed. -/
def State.destroyDone (s : State) : State :=
  match s.prtRuns.find? fun r => r.cmd = 2 && !s.rstCovered 2 r.part with
  | some r => s.destroyEnd r
  | none => s

/-- ZERO (R347): the region's bytes read as any mix of old bytes and zeros until it completes. -/
def State.zeroStart (s : State) (p : Nat) : State :=
  let i := s.fget F.prtCmdarg_ADDR % 4096
  match (s.regions p).find? fun r => r.idx = i && decide (r.ty ≤ 1) with
  | none => s.prtEnd 3
  | some r =>
    let s := s.fset (F.prtCfg_STATE p) 3
    { s with prtRuns := s.prtRuns ++ [⟨p, 3, r.base, r.limit + 1, true⟩], flux := s.flux ++ [⟨r.base, r.limit + 1, []⟩] }

/-- The region is zeroed. -/
def State.zeroDone (s : State) : State :=
  match s.prtRuns.find? fun r => r.cmd = 3 with
  | none => s
  | some r =>
    let s := (s.zeroRange r.lo r.hi)
    let s := { s with prtRuns := s.prtRuns.erase r, flux := s.flux.filter fun f => !(f.lo = r.lo && f.hi = r.hi) }
    (s.fset (F.prtCfg_STATE r.part) 1).prtEnd 1

/-- Run PRT_CMD; it waits for the commit while a Transit runs (R393). -/
def State.prtRun (s : State) : State :=
  let p := s.fget F.prtCmd_PART
  let st := s.partState p
  if s.fw.transit then { s with deferred := s.deferred ++ [.prtCmd] }
  else match s.fget F.prtCmd_CMD with
    | 0 => if st = 0 then s.create p else s.prtEnd 2
    | 1 => if st = 1 then s.sealPart p else s.prtEnd 2
    | 2 => if st = 1 || st = 2 then s.destroyStart p true else s.prtEnd 2
    | 3 => if st = 1 then s.zeroStart p else s.prtEnd 2
    | _ => s.prtEnd 2

/-- A write of PRT_CMD. -/
def State.prtCmdWrite (s : State) (w : Wr) : Nat × State :=
  s.wGo w F.prtCmd_GO (s.fbit F.prtCmd_GO) (some (F.prtCmd_RESULT, 4)) State.prtRun

/-- A write of PRT_CFG (R373). -/
def State.prtCfgWrite (s : State) (p : Nat) (w : Wr) : Nat × State := s.wIf w (decide (s.partState p = 0))

/-! ### What a sealed partition freezes (R361) -/

/-- The PART field of a register that assigns a resource to a partition. -/
def partFieldOf (r : Reg) : Option Fld :=
  match r with
  | .strCtl k => some (F.strCtl_PART k)
  | .lnkCfg l => some (F.lnkCfg_PART l)
  | .colChcfg c => some (F.colChcfg_PART c)
  | .colGdata0 => some F.colGdata0_PART
  | .hstHdm k => some (F.hstHdm_PART k)
  | _ => none

/-- The partition whose region entries, clusters, VCFG or UMB_ registers a register belongs to. -/
def frozenOf (r : Reg) : Option Nat :=
  match r with
  | .prtRgnA p _ | .prtRgnB p _ | .prtCfg p | .coreVcfg p | .umbSet p | .umbProt p | .umbRows p | .umbPar p | .umbWin p
  | .umbStat p | .umbCmd p | .umbRange p => some p
  | _ => none

/-- A write that R361 refuses. -/
def State.sealDenies (s : State) (r : Reg) (new : Nat) : Bool :=
  let sl := fun (p : Nat) => decide (s.partState p = 2)
  (match frozenOf r with | some p => sl p | none => false)
  || (match partFieldOf r with
      | some f => let o := s.fget f; let n := bitsOf new f.hi f.lo; decide (o ≠ n) && (sl o || sl n)
      | none => false)
  || (match r with
      | .lnkCfg l => s.fbit F.secSealpol_REQ_LINK_ENC && bitsOf new (F.lnkCfg_ENC l).hi (F.lnkCfg_ENC l).lo = 0 && (List.range 8).any sl
      | _ => false)

/-! ### The security module (R351, R352) -/

/-- Every session and partition key goes: management sessions, link keys, IDE keys, key pairs; an UNSEAL ends with TARGET_RESET. -/
def State.zeroizeKeys (s : State) : State :=
  let s := (List.range 8).foldl (fun s p => (s.unsealStop p stTargetReset).modSec p fun c => { c with key := none }) s
  { s with sessions := [], cxl := { s.cxl with ide := none } }

/-- Encrypted links go DOWN with REKEY_FAIL (R352). -/
def State.linksRekey (s : State) : State :=
  (List.range 64).foldl (fun s l => if s.fbit (F.lnkStat_ENC_ACTIVE l) then (s.linkError l 0x8B 1 0).linkDown l else s) s

/-- SEC_ZEROIZE (R352). -/
def State.zeroize (s : State) : State :=
  let sealedPs := (List.range 8).filter fun p => s.partState p = 2
  let s := s.zeroizeKeys.linksRekey
  let s := sealedPs.foldl (fun s p => s.destroyStart p false) s
  s.error { unit := unitSec, code := 0xC4, cls := 0 }

/-- A write of SEC_ZEROIZE. -/
def State.zeroizeWrite (s : State) (w : Wr) : Nat × State := (stOK, if w.set F.secZeroize_GO then s.zeroize else s)

/-- A self-test, pairwise test or entropy test fails (R351). -/
def State.secFail (s : State) (test : Nat) : State :=
  let s := (s.fset F.secStat_MSTATE 2).fset F.secStat_APPROVED 0
  let s := { s.zeroizeKeys with links := s.links.map fun (e : Nat × LinkS) => (e.1, { e.2 with txKey := none, rxKey0 := none, rxKey1 := none }) }
  let s := (List.range 64).foldl (fun s l => s.fset (F.lnkStat_ENC_ACTIVE l) 0) s
  s.fatalDevice unitSec 0xC0 test

/-! ### Mailboxes (R364-R366, R371) -/

/-- A mailbox command ends. -/
def State.mbxEnd (s : State) (f st : Nat) : State :=
  ((s.fset (F.mbxCmd_STATUS f) st).fset (F.mbxCmd_BUSY f) 0).fset (F.mbxCmd_GO f) 0

/-- An address and length against the region table of `p` (R232 as R366 applies it). -/
def State.regFoot (s : State) (p a len : Nat) (ok : Rgn → Bool) : Option Nat :=
  match s.regionAt p a with
  | none => some stOutOfBounds
  | some r => if !ok r then some stOutOfBounds else if r.limit < a + max len 1 - 1 then some stBadLength else none

def State.mbxArg (s : State) (f i : Nat) : Nat := s.reg (.mbxArg f i)

/-- The device identity key's number. -/
def keyIdent : Nat := 2

/-- Every enabled link has ENC_ACTIVE. -/
def State.allEncrypted (s : State) : Bool := (List.range 64).all fun l => !s.fbit (F.lnkCfg_EN l) || s.fbit (F.lnkStat_ENC_ACTIVE l)

/-- The attestation report of partition `p` with a nonce (R364). -/
def State.report (s : State) (p : Nat) (nonce : Bytes) : Bytes :=
  let sl := s.partState p = 2
  let c := s.secPart p
  let b := fun (x : Bool) (k : Nat) => if x then 2 ^ k else 0
  let flags := b sl 0 + b (s.fbit (F.prtStat_DEBUG_TOUCHED p)) 1 + b s.allEncrypted 2 + b s.cxl.ide.isSome 3
  let r := mkRec 2304 [(0, 2, 1), (2, 2, 2304), (4, 1, p), (5, 1, flags), (8, 6, s.fuses.serial), (14, 2, s.devid),
    (16, 4, s.fget F.mgtFwstat_FW_VERSION), (20, 4, s.fget F.mgtRollback_COUNT), (24, 8, s.now 8),
    (96, 64, Config.romDigest.toNat), (160, 64, s.fw.haloDig), (224, 64, measMgt s.fw.hdr), (288, 64, measUcode s.fw.ucHdr),
    (352, 64, s.fw.cfgDig), (416, 64, if sl then c.mPart else 0), (480, 64, if sl then c.mProg else 0), (544, 8, s.reg .secSealpol)]
  let r := recPut r 32 nonce
  let r := match (if sl then c.key else none) with
    | some k => recPut r 552 ((Config.kemKey k ++ zeroBytes 1568).take 1568)
    | none => r
  recPut r 2176 (leBytes 114 (Config.ed448Sign keyIdent (r.take 2176)).toNat)

/-- ATTEST. -/
def State.attest (s : State) (f p : Nat) : State :=
  let a0 := s.mbxArg f 0
  let a1 := s.mbxArg f 1
  match s.regFoot p a0 64 (·.rd) <|> s.regFoot p a1 2304 (·.wr) with
  | some e => s.mbxEnd f e
  | none =>
    let r := s.load {} a0 64
    if r.1 ≠ stOK then r.2.2.mbxEnd f stOutOfBounds
    else
      let s := r.2.2
      (s.store a1 (s.report p r.2.1)).2.mbxEnd f stOK

/-- GETCERT. -/
def State.getcert (s : State) (f p : Nat) : State :=
  let c := s.flashGet Config.identCert.1 (min Config.identCert.2 4096)
  match s.regFoot p (s.mbxArg f 0) c.length (·.wr) with
  | some e => s.mbxEnd f e
  | none => (s.store (s.mbxArg f 0) c).2.mbxEnd f stOK

/-- The plaintext of the segments of a blob before the first whose tag fails, and that segment (R365, R366). -/
def segments (key salt hdr : Bytes) (seg : Nat) : Nat → Nat → Bytes → Bytes × Option Nat
  | 0, _, _ => ([], none)
  | n + 1, i, b =>
    let len := min seg (b.length - 16)
    match Config.gcmOpenTagged key (salt ++ leBytes 8 i) (hdr ++ leBytes 8 i) (b.take len) ((b.drop len).take 16) with
    | none => ([], some i)
    | some p =>
      let q := segments key salt hdr seg n (i + 1) (b.drop (len + 16))
      (p ++ q.1, q.2)

/-- UNSEAL_FAIL (R372). -/
def State.unsealFail (s : State) (p addr : Nat) : State :=
  s.error { unit := unitSec, code := 0xC1, cls := 1, addr := addr, part := some p }

/-- Steps 3 and 4 of R366: the weight key is unwrapped and the engine starts. -/
def State.unsealRun (s : State) (f p : Nat) (rec' hdr body : Bytes) : State :=
  let c := s.secPart p
  let ss := Config.kemDecaps (c.key.getD 0) (rec'.take 1568)
  let kek := (leBytes 64 (shake (ss ++ leBytes 64 c.mPart ++ leBytes 64 c.mProg))).take 32
  match Config.kwUnwrap kek ((rec'.drop 1568).take 40) with
  | none => (s.unsealFail p (2 ^ 64 - 1)).mbxEnd f stCheckFail
  | some key =>
    let seg := 2 ^ recField hdr 2 1
    let q := segments key ((hdr.drop 4).take 4) hdr seg (ceilDiv (recField hdr 8 8) seg) 0 body
    let dst := s.mbxArg f 3
    { s.fset (F.mbxCmd_BUSY f) 1 with
      unseals := Sparse.insert s.unseals f ⟨p, dst, q.1, q.2⟩
      flux := s.flux ++ [⟨dst, dst + q.1.length, q.1⟩] }

/-- UNSEAL: the checks of R366 in order. -/
def State.unseal (s : State) (f p : Nat) : State :=
  let blen := s.mbxArg f 2
  if s.partState p ≠ 2 then s.mbxEnd f stDenied
  else match s.regFoot p (s.mbxArg f 0) 1608 (·.rd) <|> s.regFoot p (s.mbxArg f 1) (max blen 64) (·.rd) with
    | some e => s.mbxEnd f e
    | none =>
      let r := s.load {} (s.mbxArg f 1) (max blen 64)
      let k := r.2.2.load {} (s.mbxArg f 0) 1608
      let s := k.2.2
      if r.1 ≠ stOK ∨ k.1 ≠ stOK then (s.unsealFail p (if k.1 ≠ stOK then 2 ^ 64 - 1 else 0)).mbxEnd f stCheckFail
      else
        let hdr := r.2.1.take 64
        let plen := recField hdr 8 8
        let lg := recField hdr 2 1
        match s.regFoot p (s.mbxArg f 3) plen (fun e => e.wr && e.sealed) with
        | some e => s.mbxEnd f e
        | none =>
          if recField hdr 0 2 ≠ 1 || lg < 16 || 20 < lg then s.mbxEnd f stDenied
          else if blen ≠ 64 + plen + 16 * ceilDiv plen (2 ^ lg) then s.mbxEnd f stBadLength
          else if plen = 0 then s.mbxEnd f stOK
          else s.unsealRun f p k.2.1 hdr (r.2.1.drop 64)

/-- The engine finishes, or has met a tag failure (R366, step 5). -/
def State.unsealDone (s : State) (f : Nat) : State :=
  match Sparse.find s.unseals f with
  | none => s
  | some u =>
    let s := { s with unseals := Sparse.erase s.unseals f, flux := s.flux.filter fun x => !(x.lo = u.dst && x.data = u.plain) }
    match u.bad with
    | none => (s.store u.dst u.plain).2.mbxEnd f stOK
    | some i => ((s.store u.dst (zeroBytes u.plain.length)).2.unsealFail u.part i).mbxEnd f stCheckFail

/-- Run a mailbox command. -/
def State.mbxRun (s : State) (f : Nat) : State :=
  let p := if f = 0 then s.fget (F.mbxCmd_PART f) else f - 1
  if s.fget F.secStat_MSTATE ≠ 1 then s.mbxEnd f stDenied
  else match s.fget (F.mbxCmd_CMD f) with
    | 0 => s.attest f p
    | 1 => s.getcert f p
    | _ => s.unseal f p

/-- A write of MBX_CMD (R374). -/
def State.mbxWrite (s : State) (f : Nat) (w : Wr) : Nat × State :=
  if w.fld (F.mbxCmd_CMD f) = 3 then s.wDeny
  else s.wGo w (F.mbxCmd_GO f) (s.fbit (F.mbxCmd_GO f)) none fun s => s.mbxRun f

/-! ### The rows that are no register writes -/

def execZeroComplete (s : State) : Out := .next s.zeroDone
def execDestroyComplete (s : State) : Out := .next s.destroyDone
def execSecFail (test : BitVec 64) (s : State) : Out := .next (s.secFail test.toNat)
def execUnsealComplete (f : Fin 9) (s : State) : Out := .next (s.unsealDone f)

end Sys2Proof.Machine
end

