-- ==== Sys2Proof/Machine/Firmware.lean ====
section
/-! DEFINITION. Management firmware in service (R383-R395, R400, R401), recovery mode (R396), the change log and the write-limited settings (R382, R397, R398). -/

namespace Sys2Proof.Machine

/-! ### The change log (R398) -/

def logBase : Nat := 0x40000
def logSlots : Nat := 4096

/-- Bytes of entry `i` of the log. -/
def State.logEntry (s : State) (i : Nat) : Bytes := s.flashGet (logBase + 256 * i) 256

def State.logUsed (s : State) : Nat := s.fget F.mgtLimits_LOG_USED

/-- Entry `i` as the device writes it. -/
def State.logRecordOf (s : State) (i kind left : Nat) (data : Bytes) : Bytes :=
  let prev := if i = 0 then 0 else shake ((s.logEntry (i - 1)).take 254)
  let e := mkRec 256 [(0, 4, i), (4, 1, kind), (5, 1, left), (8, 8, s.now 8), (76, 64, prev), (254, 1, 0xFF)]
  let e := recPut e 16 (data.take 60)
  recPut e 140 (leBytes 114 (Config.ed448Sign keyIdent (e.take 140)).toNat)

/-- Append a committed entry; the last 128 slots are kept for counted kinds and OWNER_BIND. -/
def State.logAppend (s : State) (kind left : Nat) (data : Bytes) (kept : Bool) : State :=
  let i := s.logUsed
  if logSlots ≤ i || (!kept && logSlots - 128 ≤ i) then s
  else (s.flashPut (logBase + 256 * i) (s.logRecordOf i kind left data)).fset F.mgtLimits_LOG_USED (i + 1)

/-- DATA of the image kinds: FW_VERSION, SVN, the first 48 bytes of the header digest. -/
def imageData (h : Bytes) : Bytes := leBytes 4 (hdrVersion h) ++ leBytes 1 (hdrSvn h) ++ (leBytes 64 (shake h)).take 48

/-! ### Write-limited settings (R382, R397) -/

/-- A write of MGT_ROLLBACK (R382): only COUNT + 1, and no more than the running image's SVN; one fuse step. -/
def State.rollbackWrite (s : State) (w : Wr) : Nat × State :=
  let old := s.fuses.rollback
  let v := w.raw % 128
  if v ≠ old + 1 || 64 < v || hdrSvn s.fw.hdr < v then s.wDeny
  else
    let s := s.logAppend 2 (64 - v) (leBytes 8 old ++ leBytes 8 v) true
    let s := { s with fuses := { s.fuses with rollback := v } }
    (stOK, (s.fset F.mgtRollback_COUNT v).fset F.mgtLimits_ROLL_LEFT (64 - v))

/-- A write of SEC_SEALPOL (R374, R397): a change consumes one of 8 steps; SEAL_ALLOW stands while a partition is sealed. -/
def State.sealpolWrite (s : State) (w : Wr) : Nat × State :=
  let old := s.reg .secSealpol % 8
  let new := w.raw % 8
  let left := s.fget F.secSealpol_LEFT
  let anySealed := (List.range 8).any fun p => s.partState p = 2
  if new = old then (stOK, s)
  else if left = 0 || (new % 2 ≠ old % 2 && anySealed) then s.wDeny
  else
    let s := s.logAppend 5 (left - 1) (leBytes 8 old ++ leBytes 8 new) true
    let s := { s with fuses := { s.fuses with sealPol := new, sealUsed := s.fuses.sealUsed + 1 } }
    let s := s.setReg .secSealpol (setBits (s.reg .secSealpol) 2 0 new)
    (stOK, (s.fset F.secSealpol_LEFT (left - 1)).fset F.mgtLimits_SEAL_LEFT (left - 1))

/-! ### Transit (R390-R394) -/

/-- MGT_FWCMD ends. -/
def State.fwEnd (s : State) (r : Nat) : State := (s.fset F.mgtFwcmd_RESULT r).fset F.mgtFwcmd_GO 0

def State.fwState (s : State) : Nat := s.fget F.mgtFwstat_FWSTATE

/-- The header in the staged slot. -/
def State.stagedHdr (s : State) : Bytes := s.getBytes (s.slotBase s.stagedSlot) 4096

/-- Every component of a header matches its digest, as `get` reads it. -/
def compsMatch (h : Bytes) (get : Comp → Bytes) : Bool :=
  [1, 2, 3, 4, 5].all fun ty => match hdrComp h ty with | some c => decide (shake (get c) = c.dig) | none => false

/-- STAGE (R391 step 1): R381 rows 5 to 7 on the staged image, then the interface versions. -/
def State.fwStage (s : State) : State :=
  let b := s.slotBase s.stagedSlot
  let fail := fun (s : State) (row : Nat) => (s.fset F.mgtFwcmd_DETAIL row).fwEnd 3
  if s.fwState ≠ 0 && s.fwState ≠ 1 && s.fwState ≠ 5 then s.fwEnd 2
  else if (s.read b 4096).1 ≠ stOK then fail s 5
  else
    let h := s.stagedHdr
    if !(hdrLayoutOk h && hdrSigOk h) then fail s 5
    else if hdrSvn h < s.fget F.mgtRollback_COUNT then fail s 6
    else if (s.read b (hdrLen h)).1 ≠ stOK || !compsMatch h (s.slotComp s.stagedSlot) then fail s 7
    else if hdrHaloAbi h ≠ hdrHaloAbi s.fw.hdr || hdrUcodeAbi h ≠ hdrUcodeAbi s.fw.hdr then s.fwEnd 4
    else (s.fset F.mgtFwstat_FWSTATE 1).fwEnd 1

/-- A handover record (R390). -/
def handoverRec (cap ts : Nat) (body : Bytes) : Bytes :=
  mkRec 128 [(0, 2, cap), (2, 2, (Config.handoverVersion cap).toNat), (8, 8, body.length), (16, 8, ts), (64, 64, shake body)] ++ body

/-- Keep the newest record of a component. -/
def State.putHandover (s : State) (cap : Nat) (body : Bytes) : State :=
  { s with fw := { s.fw with records := Sparse.insert s.fw.records cap (handoverRec cap (s.now 8) body) } }

/-- Management components: the kernel, the scheduler, the link and memory managers, telemetry, the Umbra service (R383). -/
def mgmtCaps : List Nat := [4, 5, 6, 7, 8, 9]

/-- TRANSIT (R391 step 2, R393): components quiesce and write their records, whose body is their own format's. -/
def State.fwTransit (s : State) : State :=
  if s.fwState ≠ 1 then s.fwEnd 2
  else if (List.range 8).any (fun p => s.partState p = 2) && !s.fbit F.mgtFwcmd_ALLOW_SEALED then s.fwEnd 3
  else
    let s := mgmtCaps.foldl (fun s c =>
      let (w, s) := s.draw
      s.putHandover c (Config.handoverBody c w.toNat)) s
    { s.fset F.mgtFwstat_FWSTATE 2 with fw := { s.fw with transit := true } }

/-- Work that waited for the management complex runs (R393). -/
def State.runDeferred (s : State) : State :=
  let l := s.deferred
  l.foldl (fun s d => match d with
    | .prtCmd => s.prtRun
    | .umbCmd p => s.umbRun p
    | .policy l => s.recheck l
    | .routes l => s.escRewrite l) { s with deferred := [] }

/-- Transit is aborted (R393): the old components restart, the staged slot is as it was. -/
def State.fwAbort (s : State) (cap : Nat) : State :=
  let s := { s with fw := { s.fw with transit := false } }
  let s := (s.fset F.mgtFwstat_FWSTATE 1).fwEnd 5
  (s.error { unit := unitMgmt, code := 0xE4, cls := 1, addr := cap }).runDeferred

/-- The commit (R391 step 4, R392, R394): the slots exchange, and the microcode swap and the flash rewrite follow. -/
def State.fwCommit (s : State) : State :=
  let h := s.stagedHdr
  let halo := measHalo h ≠ s.fw.haloDig
  let s := { s with fw := { s.fw with slot := s.stagedSlot, hdr := h, transit := false, rewrite := true
                                      swaps := (List.range 384).filter s.coreGood } }
  let s := (s.fset F.mgtFwstat_FWSTATE 3).fset F.mgtFwstat_FW_VERSION (hdrVersion h)
  let s := (s.fset F.mgtFwstat_UCODE_PENDING 1).fset F.mgtFwstat_HALO_PENDING (if halo then 1 else 0)
  let s := s.error { unit := unitMgmt, code := 0xE3, cls := 0, addr := hdrVersion h }
  (s.fwEnd 1).swapsSeen.runDeferred

/-- Step 3 of a Transit ends; a device that has FAILED meanwhile ends it without a commit (R393). -/
def State.transitEnd (s : State) (f : FwFail) : State :=
  if !s.fw.transit then s
  else if s.failed then (({ s with fw := { s.fw with transit := false } }.fset F.mgtFwstat_FWSTATE 1).fwEnd 5).runDeferred
  else match f with
    | .ok => s.fwCommit
    | .failed cap => s.fwAbort cap.toNat

/-- Run MGT_FWCMD. -/
def State.fwRun (s : State) : State :=
  match s.fget F.mgtFwcmd_CMD with
  | 0 => s.fwStage
  | 1 => s.fwTransit
  | 3 => if s.fwState = 5 then { s with fw := { s.fw with rewrite := true, rewriteCmd := true } } else s.fwEnd 2
  | _ => s.fwEnd 2

/-- A write of MGT_FWCMD (R401, R493): ABORT with GO is accepted while a TRANSIT runs; the capability its record names is free. -/
def State.fwcmdWrite (s : State) (w : Wr) : Nat × State :=
  if s.fbit F.mgtFwcmd_GO && s.fw.transit && w.set F.mgtFwcmd_GO && w.fld F.mgtFwcmd_CMD = 2 then
    let (c, s) := (s.setReg w.reg (w.new % 2 ^ 63)).draw
    (stOK, s.fwAbort (c.toNat % 16))
  else s.wGo w F.mgtFwcmd_GO (s.fbit F.mgtFwcmd_GO) (some (F.mgtFwcmd_RESULT, 6)) State.fwRun

/-- A write of MGT_FWARG. -/
def State.fwargWrite (s : State) (w : Wr) : Nat × State := s.wIf w (decide (w.fld F.mgtFwarg_WOFF % 65536 = 0))

/-- Recovery mode (R396). -/
def State.recovering (s : State) : Bool := s.fwState = 4

/-- Bytes written to MGT_FWWIN at window offset `off` (R401). -/
def State.fwwinWrite (s : State) (off : Nat) (data : Bytes) : Nat × State :=
  let o := s.fget F.mgtFwarg_WOFF + off
  if s.recovering then
    (stOK, { s with fw := { s.fw with rcBuf := (List.range data.length).foldl (fun m i => Sparse.setD (fun _ => 0) m (o + i) (data.getD i 0)) s.fw.rcBuf } })
  else (stOK, (s.store (s.slotBase s.stagedSlot + o) data).2)

/-- A core takes the new microcode at its stream boundary; the third mismatch fences it (R392). -/
def State.ucodeSwap (s : State) (n bad : Nat) : State :=
  if !s.fw.swaps.contains n || (s.core n).inst.isSome || s.fw.transit then s
  else if 3 ≤ bad then ({ s with fw := { s.fw with swaps := s.fw.swaps.filter (· ≠ n) } }.coreFault n 0x28).swapsSeen
  else (s.loadUcode n).swapsSeen

/-! ### Flash rewrite (R395) -/

/-- Where image byte `b` stands in flash (R376). -/
def imagePlace (b : Nat) : Nat := if b < 4096 then 0x200000 + b else 0x210000 + b - 4096

/-- Program the body of the running image. -/
def State.flashBody (s : State) : State :=
  let n := hdrLen s.fw.hdr
  let s := s.flashErase 0x210000 (0x210000 + roundUp (n - 4096) 65536)
  s.flashPut 0x210000 (s.getBytes (s.slotBase s.fw.slot + 4096) (n - 4096))

/-- The flash is rewritten: the header goes first and comes back last; a failed attempt is repeated up to twice. -/
def State.flashRewrite (s : State) (fails : FlashFails) : State :=
  if !s.fw.rewrite then s
  else
    let cmd := s.fw.rewriteCmd
    let s := { s with fw := { s.fw with rewrite := false, rewriteCmd := false } }
    let s := (s.flashErase 0x200000 0x210000).flashBody
    if (List.range 3).all fun i => fails.getD i false then
      let (a, s) := s.draw
      let s := s.error { unit := unitMgmt, code := 0xE5, cls := 1, addr := a.toNat % 0x4000000 }
      let s := s.fset F.mgtFwstat_FWSTATE 5
      if cmd then s.fwEnd 7 else s
    else
      let s := (s.flashPut 0x200000 (s.fw.hdr.take 4096)).logAppend 0x10 0xFF (imageData s.fw.hdr) false
      let s := s.fset F.mgtFwstat_FWSTATE 0
      if cmd then s.fwEnd 1 else s

/-! ### Component faults (R386) -/

/-- The first management core of a component (R383). -/
def coreOfCap (cap : Nat) : Nat := [0, 0, 0, 0, 0, 1, 3, 4, 5, 6].getD cap 0

/-- A component faults and restarts from its newest record. -/
def State.compFault (s : State) (cap : Nat) : State :=
  if 5 ≤ cap ∧ cap ≤ 9 then s.error { unit := unitMgmt + coreOfCap cap, code := 0xE0, cls := 1, addr := cap } else s

/-- The kernel faults; a second fault within 600 s is fatal to the device. -/
def State.kernelFault (s : State) : State :=
  let again := match s.fw.kernelAt with | some t => decide (s.now 8 < t + 600 * oneSecond) | none => false
  let s := { s with fw := { s.fw with kernelAt := some (s.now 8) } }
  if again then s.fatalDevice unitMgmt 0xE1 0 else s.error { unit := unitMgmt, code := 0xE1, cls := 1 }

/-! ### The configuration block (R377) -/

/-- The block's own layout: magic, LENGTH, NENT. -/
def cfgLayoutOk (b : Bytes) : Bool :=
  let len := recField b 8 4
  let n := recField b 12 4
  decide (b.take 8 = [0x5A, 0x58, 0x52, 0x43, 0x46, 0x47, 0x30, 0x31]) && decide (len = 256 + 16 * n) && decide (len ≤ 131072)

/-- OWNER_PK and its digest. -/
def cfgOwnerPk (b : Bytes) : Bytes := (b.drop 24).take 57
def cfgOwner (b : Bytes) : Nat := shake (cfgOwnerPk b)

/-- The block's signature over the digest of the bytes before it. -/
def cfgSigOk (b : Bytes) : Bool :=
  let len := recField b 8 4
  Config.ed448Verify (cfgOwnerPk b) (leBytes 64 (shake (b.take (len - 128)))) ((b.drop (len - 128)).take 114)

/-- OWNER_PK against the fuse (R379). -/
def State.ownerOk (s : State) (b : Bytes) : Bool := match s.fuses.owner with | none => true | some o => decide (cfgOwner b = o)

/-! ### Recovery (R396) -/

/-- MGT_RCMD ends. -/
def State.rcEnd (s : State) (r : Nat) : State := (s.fset F.mgtRcmd_RESULT r).fset F.mgtRcmd_GO 0

def State.rcBytes (s : State) (a n : Nat) : Bytes := (List.range n).map fun i => Sparse.getD (fun _ => 0) s.fw.rcBuf (a + i)
def State.rcBodyBytes (s : State) (a n : Nat) : Bytes := (List.range n).map fun i => Sparse.getD (fun _ => 0) s.fw.rcBody (a + i)

/-- Take a window into the body received so far. -/
def State.rcTake (s : State) (a n : Nat) : State :=
  { s with fw := { s.fw with rcBody := (List.range n).foldl (fun m i => Sparse.setD (fun _ => 0) m (a + i) (Sparse.getD (fun _ => 0) s.fw.rcBuf (a + i))) s.fw.rcBody } }

/-- BEGIN_IMAGE: the header in the window passes R381 rows 5 and 6, and its sector is erased. -/
def State.rcBeginImage (s : State) : State :=
  if s.fget F.mgtFwarg_WOFF ≠ 0 then s.rcEnd 2
  else
    let h := s.rcBytes 0 4096
    if !(hdrLayoutOk h && hdrSigOk h) || hdrSvn h < s.fuses.rollback then s.rcEnd 3
    else
      let s := s.flashErase 0x200000 0x210000
      let s := { s with fw := { s.fw with rcKind := 1, rcNext := 0, rcBody := [] } }
      (s.rcTake 0 4096).rcEnd 1

/-- BEGIN_CONFIG: the first 64 KiB of the block stand in the window. -/
def State.rcBeginConfig (s : State) : State :=
  if s.fget F.mgtFwarg_WOFF ≠ 0 then s.rcEnd 2
  else
    let s := { s with fw := { s.fw with rcKind := 2, rcNext := 65536, rcBody := [] } }
    (s.rcTake 0 65536).rcEnd 1

/-- One past the last byte that recovery takes of an image or of a block (R376, R377). -/
def rcLimit (kind : Nat) : Nat := if kind = 1 then 0x3001000 else 131072

/-- WRITE: the next window in ascending order is programmed, as far as the image's place in flash goes. -/
def State.rcWrite (s : State) : State :=
  let w := s.fget F.mgtFwarg_WOFF
  let top := rcLimit s.fw.rcKind
  if s.fw.rcKind = 0 || w ≠ s.fw.rcNext || decide (top ≤ w) then s.rcEnd 2
  else
    let s := if s.fw.rcKind = 1 then
        let lo := max w 4096
        let n := min (w + 65536) top - lo
        let s := s.rcTake lo n
        s.flashPut (imagePlace lo) (s.rcBytes lo n)
      else s.rcTake w 65536
    { s with fw := { s.fw with rcNext := w + 65536 } }.rcEnd 1

/-- END: the image's digests, or the block's rows 2 and 3; then the header or the block is programmed and the log says so. -/
def State.rcFinish (s : State) : State :=
  match s.fw.rcKind with
  | 1 =>
    let h := s.rcBodyBytes 0 4096
    if compsMatch h (fun c => s.rcBodyBytes c.off c.len) then
      let s := (s.flashPut 0x200000 h).logAppend 0x11 0xFF (imageData h) false
      { s with fw := { s.fw with rcKind := 0 } }.rcEnd 1
    else { s with fw := { s.fw with rcKind := 0 } }.rcEnd 3
  | 2 =>
    let b := s.rcBodyBytes 0 131072
    if cfgLayoutOk b && cfgSigOk b && s.ownerOk b then
      let s := (s.flashErase 0x10000 0x30000).flashPut 0x10000 (b.take (recField b 8 4))
      let s := s.logAppend 0x12 0xFF (leBytes 4 0 ++ leBytes 1 0 ++ (leBytes 64 (shake (b.take (recField b 8 4)))).take 48) false
      { s with fw := { s.fw with rcKind := 0 } }.rcEnd 1
    else { s with fw := { s.fw with rcKind := 0 } }.rcEnd 3
  | _ => s.rcEnd 2

/-- Run MGT_RCMD: ENTER in every mode, the rest in recovery. -/
def State.rcRun (s : State) : State :=
  let c := s.fget F.mgtRcmd_CMD
  if c = 5 then { s with fw := { s.fw with enter := true } }.rcEnd 1
  else if !s.recovering || 6 ≤ c then s.rcEnd 5
  else match c with
    | 0 => s.rcBeginImage
    | 1 => s.rcBeginConfig
    | 2 => s.rcWrite
    | 3 => s.rcFinish
    | _ => s.deviceReset false

/-- A write of MGT_RCMD. -/
def State.rcmdWrite (s : State) (w : Wr) : Nat × State :=
  s.wGo w F.mgtRcmd_GO (s.fbit F.mgtRcmd_BUSY) (some (F.mgtRcmd_RESULT, 5)) State.rcRun

/-! ### The rows that are no register writes -/

def execTransitCommit (fail : FwFail) (s : State) : Out := .next (s.transitEnd fail)
def execFlashRewrite (fails : FlashFails) (s : State) : Out := .next (s.flashRewrite fails)
def execUcodeSwap (core : Fin 384) (bad : Fin 4) (s : State) : Out := .next (s.ucodeSwap core bad)
def execFwComponentFault (cap : BitVec 4) (s : State) : Out := .next (s.compFault cap.toNat)
def execFwKernelRestart (s : State) : Out := .next s.kernelFault
def execHandoverRecord (cap : BitVec 4) (body : Bytes) (s : State) : Out :=
  .next (if mgmtCaps.contains cap.toNat then s.putHandover cap.toNat body else s)

end Sys2Proof.Machine
end

