-- ==== Sys2Proof/Machine/Power.lean ====
section
/-! DEFINITION. Power following, Park, telemetry, Halo and its safe state, open-fibre control, the supplies and the test port (chapter 17; R477-R483). Powers are in milliwatts. -/

namespace Sys2Proof.Machine

/-- Halo runs: its supply is up, the package is out of reset, its self-test has passed and it has not fallen into the safe state. -/
def State.haloRuns (s : State) : Bool :=
  s.pins.vddHalo && !s.pins.pkgRst && (s.fget F.safStat_STATE = 1 || s.fget F.safStat_STATE = 3)

/-- Timestamp counts of one millisecond at 1.2 GHz (R27). -/
def oneMs : Nat := 1200000

/-! ### Setpoints (R421-R423) -/

/-- A write of PWR_SP[k] (R421, R423). -/
def State.spWrite (src : Nat) : Hook := fun s w =>
  let may := match src, w.req with
    | 0, .i3c => true
    | 1, .pf0 => true
    | 2, .cap c => c = 8 || c = 12
    | _, _ => false
  let mode := w.fld (F.pwrSp_MODE src)
  let watts := w.fld (F.pwrSp_WATTS src)
  if !may || mode = 3 || (mode = 1 && (watts < 300 || 2200 < watts)) then s.wDeny
  else (stOK, { s.setReg w.reg w.new with pow := { s.pow with spAt := putAt s.pow.spAt src (s.now 8) } })

/-- The lease of a source has run out: MODE NONE is written (R422). -/
def State.leaseEnd (s : State) (src : Nat) : State :=
  let l := s.fget (F.pwrSp_LEASE_MS src)
  if s.fget (F.pwrSp_MODE src) ≠ 0 ∧ l ≠ 0 ∧ s.pow.spAt.getD src 0 + l * oneMs ≤ s.now 8 then s.fset (F.pwrSp_MODE src) 0 else s

/-- The effective request: its mode, source and watts (R421). -/
def State.powerReq (s : State) : Nat × Nat × Nat :=
  match [0, 1, 2].find? fun k => s.fget (F.pwrSp_MODE k) ≠ 0 with
  | some k => (s.fget (F.pwrSp_MODE k), k, s.fget (F.pwrSp_WATTS k))
  | none => (1, 3, s.fget F.safThr1_PKG_LIMIT)

/-! ### The governor (R424) -/

/-- VF[d]. -/
def State.vf (s : State) (d : Nat) : Nat := s.fget (F.pwrVf_VMIN (d - 8))

/-- Divisors from `lo` to 32. -/
def divisors (lo : Nat) : List Nat := ((List.range 33).filter fun d => decide (max lo 8 ≤ d))

/-- The least divisor whose minimum voltage `v` meets; 33 for none. -/
def State.dvOf (s : State) (v : Nat) : Nat := ((divisors 8).find? fun d => decide (s.vf d ≤ v)).getD 33

/-- Cores in REPLAY, each counted at G = 16. -/
def State.replayCount (s : State) : Nat := (s.cores.filter fun (e : Nat × CoreS) => match e.2.inst with | some i => i.replaying | none => false).length

/-- P(d, G, V) is at most `b`, all of it exact: `ps` is the calibrated static power times GD; one replaying core is 1/368 of Pd. -/
def State.powerFits (s : State) (ps gd b d g v : Nat) : Bool :=
  let p := s.pow
  let r := min s.replayCount 368
  let num := p.pdN * p.d0 * (g * (368 - r) + 16 * r) * v * v
  let den := p.pdD * d * (368 * p.g0) * p.v0 * p.v0
  decide (ps * den + num * gd ≤ b * gd * den)

/-- The settings that R424 finds for B = `b`. -/
def State.governed (s : State) (ps gd b : Nat) : Nat × Nat :=
  let lo := max (s.fget F.pwrGov_DMIN) (s.dvOf s.pow.vnow)
  let tries := (((List.range 17).reverse).map fun g => (divisors lo).map fun d => (d, g)).flatten
  (tries.find? fun t => s.powerFits ps gd b t.1 t.2 s.pow.vnow).getD (32, 0)

/-- dset. -/
def State.dset (s : State) (ps gd b : Nat) : Nat :=
  ((divisors (s.fget F.pwrGov_DMIN)).find? fun d => s.powerFits ps gd b d 16 (s.vf d)).getD 32

/-- Set d and G; a change leaves a GOVERNOR event. -/
def State.setDG (s : State) (d g : Nat) : State :=
  let same := s.fget F.pwrStat_D = d ∧ s.fget F.pwrStat_G = g
  let s := (s.fset F.pwrStat_D d).fset F.pwrStat_G g
  if same then s else s.tail 2294 0x71 8 none (d + g * 256 + s.fget F.pwrStat_TARGET * 65536)

/-- Set the voltage command, in tenths of a millivolt. -/
def State.setVcmd (s : State) (v : Nat) : State := { s with pow := { s.pow with vcmd := v } }.fset F.pwrStat_VCMD (v / 10)

/-- The voltage command after a tick: a tenth of a millivolt towards VF[dset], never below VF of the divisor in force. -/
def State.vcmdNext (s : State) (dset d : Nat) : Nat :=
  let goal := s.vf dset * 10
  let v := s.pow.vcmd
  max (if v < goal then min goal (v + 1) else max goal (v - 1)) (s.vf d * 10)

/-- Exit from Park begins (R429): voltage at least VF[32], gates open, d = 32 and G = 0, and the microcode broadcast to every good core. -/
def State.parkExit (s : State) : State :=
  let s := (s.fset F.pwrStat_PARK 3).setVcmd (max s.pow.vcmd (s.vf 32 * 10))
  let s := { s with pow := { s.pow with gatesOff := false, parkT := s.now 8, vnow := max s.pow.vnow (s.vf 32) }
                    fw := { s.fw with ucLoad := (List.range 384).filter s.coreGood, ucSend := 2 ^ 65 - 1, ucRound := 0
                                      ucDue := false, ucNack := [], ucPark := true } }
  s.setDG 32 0

/-- Entry begins (R427). -/
def State.parkEnter (s : State) : State :=
  { s.fset F.pwrStat_PARK 1 with pow := { s.pow with parkT := s.now 8 } }

/-- RUN before the gates close: cores stopped at a TB continue (R430). -/
def State.parkUndo (s : State) : State :=
  { s.fset F.pwrStat_PARK 0 with cores := s.cores.map fun (e : Nat × CoreS) => (e.1, { e.2 with parked := false }) }

/-- What the mode in force asks of Park (R427, R429, R430). -/
def State.parkFollow (s : State) : State :=
  match s.fget F.pwrStat_MODE, s.fget F.pwrStat_PARK with
  | 2, 0 => s.parkEnter
  | 1, 1 => if s.pow.gatesOff then s else s.parkUndo
  | 1, 2 => s.parkExit
  | _, _ => s

/-- Set d, G and the voltage command for the budget in force (R424). -/
def State.govern (s : State) (ps : Nat) : State :=
  let gd := s.pow.gainD
  let psN := s.pow.gainN * ps
  let b := min (s.fget F.pwrStat_TARGET * 1000) s.pow.ceil
  let (d, g) := s.governed psN gd b
  let dset := s.dset psN gd b
  let v := s.vcmdNext dset d
  (s.setDG d g).setVcmd v

/-- One tick of 10 µs (R421, R424, R432): `ps` and `pd` are the uncalibrated estimates of it. -/
def State.governorTick (s : State) (ps pd : Nat) : State :=
  if !s.haloRuns || s.failed || s.tripped || !s.clockOn then s
  else
    let (mode, src, watts) := s.powerReq
    let s := (s.fset F.pwrStat_MODE mode).fset F.pwrStat_SRC src
    let s := if mode = 1 then s.fset F.pwrStat_TARGET (min watts (s.fget F.safThr1_PKG_LIMIT)) else s
    let s := s.fset F.pwrTel_EST (min (s.pow.gainN * (ps + pd) / s.pow.gainD / 1000) 0xFFFF)
    let s := if s.fget F.pwrStat_G = 0 then s else
      { s with pow := { s.pow with pdN := s.pow.gainN * pd, pdD := s.pow.gainD, d0 := s.fget F.pwrStat_D
                                   g0 := s.fget F.pwrStat_G, v0 := s.pow.vnow } }
    let s := s.parkFollow
    if mode = 1 ∧ s.fget F.pwrStat_PARK ≤ 1 then s.govern ps else s

/-! ### The ramp (R426, R432, R434) -/

/-- DMIN = 32 for 10 ms, with the RAMP alert (R434). -/
def State.holdDmin (s : State) : State :=
  { (s.fset F.pwrGov_DMIN 32).alert 1 with pow := { s.pow with hold := some (s.now 8) } }

/-- The gain after a window with uncalibrated mean E and measured mean M (R432); free where E is 0. -/
def State.gainStep (s : State) (e m : Nat) : State :=
  if e = 0 then
    let (w, s) := s.draw
    { s with pow := { s.pow with gainN := w.toNat, gainD := 2 ^ 32 } }
  else
    let n := 15 * s.pow.gainN * e + m * s.pow.gainD
    let d := 16 * s.pow.gainD * e
    { s with pow := { s.pow with gainN := n / Nat.gcd n d, gainD := d / Nat.gcd n d } }

/-- A window of 1 ms ends: `e` is its uncalibrated mean, `m` the measured one. The exit from Park lies outside the limit. -/
def State.rampWindow (s : State) (e m : Nat) : State :=
  if !s.haloRuns || s.failed || s.tripped || !s.clockOn then s
  else
    let ru := s.fget F.safThr1_RAMP_UP
    let a := s.pow.gainN * e / s.pow.gainD
    let ovr := match s.pow.mean with
      | some p => decide (p + 1500 * ru + 20000 < m) && decide (s.fget F.pwrStat_PARK ≠ 3)
      | none => false
    let s := s.fset F.pwrTel_MEAS (min (m / 1000) 0xFFFF)
    let s := if ovr then (s.error { unit := unitHalo, code := 0xD3, cls := 0, addr := m / 1000, every := oneSecond }).holdDmin else s
    let c := a + ru * 1000
    let s := { s with pow := { s.pow with mean := some a, ceil := c } }
    (s.fset F.pwrStat_CEIL (min (c / 1000) 4095)).gainStep e m

/-! ### Park (R427-R430) -/

/-- A core holds nothing that keeps Park entry waiting. -/
def CoreS.stopped (c : CoreS) : Bool := c.inst.isNone || c.parked

/-- What a core loses when its power gate closes: everything but its instance's progress. -/
def State.gateCore (s : State) (n : Nat) : State :=
  (s.zeroCore n).modCore n fun c =>
    { c.fresh with parked := c.parked, imem := [], ucMap := 0, ucOk := false, pc := 0, barCnt := c.barCnt, barFin := c.barFin, remCnt := c.remCnt }

/-- Step 3 of entry: every core has stopped and the gates close. -/
def State.parkGate (s : State) : State :=
  if s.fget F.pwrStat_PARK = 1 ∧ s.pow.gatesOff = false ∧ s.failed = false ∧ s.cores.all (fun (e : Nat × CoreS) => e.2.stopped) = true then
    let s := (List.range 384).foldl (fun s n => s.gateCore n) s
    { s with pow := { s.pow with gatesOff := true } }
  else s

/-- The PARK record: 1 entry, 2 exit, with the duration in microseconds. -/
def State.parkRecord (s : State) (k : Nat) : State :=
  s.error { unit := unitHalo, code := 0xDA, cls := 0, addr := k + (s.now 8 - s.pow.parkT) / 1200 % 2 ^ 32 * 2 ^ 32, every := oneSecond }

/-- A stack enters self-refresh; with the twelfth, entry is complete, and an exit asked for meanwhile starts at once (R430). -/
def State.stackSleep (s : State) (k : Nat) : State :=
  if !s.pow.gatesOff || s.failed then s
  else
    let s := { s with pow := { s.pow with selfRef := setBit s.pow.selfRef k true } }
    if s.fget F.pwrStat_PARK = 1 ∧ s.pow.selfRef % 4096 = 4095 then
      ((s.fset F.pwrStat_PARK 2).parkRecord 1).parkFollow
    else s

/-- Step 3 of exit for one core: its parked instance is loaded from its program region and parking checkpoint and starts at RESTORE (R429). -/
def State.unparkCore (s : State) (n : Nat) : State :=
  let c := s.core n
  match c.inst with
  | none => s
  | some i =>
    if !c.parked then s
    else
      let s := s.modCore n fun c => { c with parked := false }
      let who : Asker := ⟨i.stream, i.seq⟩
      let img := s.load who i.prog (32 * i.bundles)
      let ck := match i.valid with | some a => img.2.2.load who a 2048 | none => (stOK, [], img.2.2)
      let s := ck.2.2
      if img.1 ≠ stOK || ck.1 ≠ stOK then s.poisonConsumed n
      else
        let s := s.putProgram n img.2.1 c.progDig
        let s := s.startInstance n { i with rpc := match i.valid with | some _ => recField ck.2.1 8 8 % 8192 | none => 0 }
        let s := match i.valid with
          | some _ => s.modCore n fun c => { (c.restore ck.2.1) with pc := i.restore }
          | none => s
        s.modCore n fun d => { d with barCnt := c.barCnt, barFin := c.barFin, remCnt := c.remCnt }

/-- Steps 3 and 4 of exit. -/
def State.parkDone (s : State) : State :=
  let s := (List.range 384).foldl (fun s n => s.unparkCore n) s
  { (s.fset F.pwrStat_PARK 0).parkRecord 2 with fw := { s.fw with ucPark := false } }

/-! ### Trips and the safe state (R435, R436) -/

/-- The safety outputs act: ACLK stopped, lasers off, the Eclipse rail removed, THERMTRIP_N asserted. -/
def State.safeState (s : State) : State :=
  if !s.pins.vddHalo || s.thermtrip then s
  else { ((s.fset F.safStat_STATE 2).alert 2).eclRelease with tripped := true, thermtrip := true }

/-- A trip, with its record (R435). -/
def State.trip (s : State) (code addr : Nat) : State := (s.fatalDevice unitHalo code addr).safeState

/-- A fatal-to-device fault that SHUTDOWN_REQ_N follows (R431, R434). -/
def State.shutFault (s : State) (code addr : Nat) : State :=
  let s := s.fatalDevice unitHalo code addr
  if s.thermtrip then { s with shutReq := true } else { s.fset F.safStat_STATE 3 with shutReq := true }

/-- The watchdog fires: 2 ms have passed without a kick; before the timestamps run, whenever the row says so. -/
def State.watchdog (s : State) : State :=
  if !s.haloRuns || (s.clockOn && decide (s.now 8 < s.pow.kick + 2 * oneMs)) then s else (s.fset F.safStat_WDOG 1).safeState

/-! ### The AVSBus (R431, R479, R480) -/

/-- Millivolts that rail `r` is commanded to. -/
def State.railCmd (s : State) (r : Nat) : Nat :=
  if r < 4 then s.pow.vnow
  else [750, 800, 850, 1200, 1050, 750, 1800, 900, 3300, 1800, 1800, 5000].getD (r - 4) 0

/-- The polls of R431 apply to rail `r`: always to groups A and B, to group C from 20 ms after its enable rose. -/
def State.railPolled (s : State) (r : Nat) : Bool :=
  if r = 8 || r = 9 || r = 10 then s.pins.stkEn && decide (s.pins.stkAt + 20 * oneMs ≤ s.now 8)
  else if r = 11 || r = 12 then s.pins.optEn && decide (s.pins.optAt + 20 * oneMs ≤ s.now 8)
  else true

/-- Rail `r` answers a poll, or does not; three misses, or two readings in a row more than 5 % off, are RAIL_FAULT. -/
def State.railRead (s : State) (r : Nat) (a : Option (BitVec 16 × BitVec 32)) : State :=
  if !s.railPolled r then s
  else
    let (miss, off, s) := match a with
      | none => (s.pow.missed.getD r 0 + 1, s.pow.off.getD r 0, s)
      | some (mv, ma) =>
        let c := s.railCmd r
        let bad := decide (c * 105 < mv.toNat * 100) || decide (mv.toNat * 100 < c * 95)
        (0, if bad then s.pow.off.getD r 0 + 1 else 0, (s.fset (F.pwrRail_MV r) mv.toNat).fset (F.pwrRail_MA r) ma.toNat)
    let put := fun (l : List Nat) (v : Nat) => putAt (l ++ List.replicate (16 - l.length) 0) r v
    let fault := decide (3 ≤ miss) || decide (2 ≤ off)
    let s := { s with pow := { s.pow with missed := put s.pow.missed (if fault then 0 else miss), off := put s.pow.off (if fault then 0 else off) } }
    if fault then s.shutFault 0xD6 r else s

/-- The compute-die voltage after the pending commands, in steps of 5 mV from the one in force; it is never below the command. -/
def State.vStep (s : State) : Nat :=
  let v := s.pow.vnow * 10
  let c := s.pow.vcmd
  if v < c then s.pow.vnow + (c - v + 49) / 50 * 5 else s.pow.vnow - (v - c) / 50 * 5

/-- The poll of 1 ms. -/
def State.avsPoll (s : State) (reads : RailReads) : State :=
  if !s.haloRuns || !s.clockOn then s
  else
    let s := (List.range 16).foldl (fun s r => s.railRead r ((reads[r]?).getD none)) s
    if s.failed || s.tripped || s.vStep = s.pow.vnow then s
    else
      let v := s.vStep
      let s := { s with pow := { s.pow with vnow := v } }
      (List.range 4).foldl (fun s r => s.emit (.avs r v)) s

/-! ### Temperatures and currents (R434, R370) -/

/-- Insert into a rising list. -/
def insertInt (x : Int) : List Int → List Int
  | [] => [x]
  | y :: ys => if x ≤ y then x :: y :: ys else y :: insertInt x ys

/-- Twice the median of a list of readings; 0 of an empty list. -/
def median2 (l : List Int) : Int :=
  let t := l.foldr insertInt []
  let n := t.length
  if n % 2 = 1 then 2 * t.getD (n / 2) 0 else t.getD (n / 2 - 1) 0 + t.getD (n / 2) 0

/-- A sensor of a die fails: outside -40 to 150 °C, or more than 15 °C from the die's median. -/
def sensorBad (l : List Int) (x : Int) : Bool :=
  decide (x < -40) || decide (150 < x) || decide (15 * 2 < (2 * x - median2 l).natAbs)

/-- What a die reads, in half degrees: its hottest sensor, or with a failed sensor the median of the rest plus 5 °C. -/
def dieReads (l : List Int) : Int :=
  let good := l.filter fun x => !sensorBad l x
  if good.length = l.length then 2 * l.foldl max (l.getD 0 0) else median2 good + 10

/-- A stack's sensor fails. -/
def stackBad (x : Int) : Bool := decide (x < -40) || decide (150 < x)

/-- A SENSOR_FAULT record, with the alert. -/
def State.sensorFault (s : State) (die sensor : Nat) : State :=
  (s.error { unit := unitDie die, code := 0xD8, cls := 1, addr := sensor, every := oneSecond }).alert 5

/-- The sensors of die `d`: failed ones are recorded, and a die with fewer than two working sensors trips. -/
def State.dieSensors (s : State) (d : Nat) (l : List Int) : State :=
  let s := (List.range l.length).foldl (fun s i => if sensorBad l (l.getD i 0) then s.sensorFault d i else s) s
  if (l.filter fun x => !sensorBad l x).length < 2 then s.trip 0xD4 d else s

/-- DMIN takes one step up (R434), with the alert. -/
def State.throttle (s : State) : State :=
  (s.fset F.pwrGov_DMIN (min (s.fget F.pwrGov_DMIN + 1) 32)).alert 0

/-- Whole degrees of a reading as SAF_STAT and PWR_TEN hold it. -/
def degrees (x : Int) : Nat := min x.toNat 255

/-- The place of the greatest reading. -/
def hottest (l : List Int) : Nat := ((List.range l.length).find? fun i => l.all fun x => decide (x ≤ l.getD i 0)).getD 0

/-- The window of 100 ms of R370: 1,000 samples of the measured power and the hottest readings. -/
def State.tenSample (s : State) (tj stk : Nat) : State :=
  let p := s.pow
  let n := p.tenN + 1
  let w := p.tenP + s.fget F.pwrTel_MEAS
  let t := p.tenTj + tj
  let k := p.tenStk + stk
  if n < 1000 then { s with pow := { p with tenN := n, tenP := w, tenTj := t, tenStk := k } }
  else
    let s := { s with pow := { p with tenN := 0, tenP := 0, tenTj := 0, tenStk := 0 } }
    ((s.fset F.pwrTen_POWER (w / n / 10 * 10)).fset F.pwrTen_TJ (t / n / 5 * 5)).fset F.pwrTen_STK (k / n / 5 * 5)

/-- The currents: overcurrent holds DMIN, more of it trips. -/
def State.currents (s : State) (l : List Nat) : State :=
  (List.range l.length).foldl (fun s r =>
    let c := l.getD r 0
    if s.fget F.safThr0_OC_TRIP_PCT ≤ c then s.trip 0xD5 r
    else if s.fget F.safThr0_OC_THR_PCT ≤ c then
      (s.error { unit := unitHalo, code := 0xD2, cls := 0, addr := r, every := oneSecond }).holdDmin
    else s) s

/-- The sample of 100 µs. -/
def State.tempSample (s : State) (e : TempReads) : State :=
  if !s.haloRuns then s
  else
    let tjs := e.tj.toList
    let stks := e.stk.toList
    let thr := s.fget F.safThr0_TJ_THR
    let sthr := s.fget F.safThr0_STK_THR
    let s := (List.range tjs.length).foldl (fun s d => s.dieSensors d (tjs.getD d [])) s
    let tj := (tjs.take 4).map dieReads
    let s := (List.range stks.length).foldl (fun s k => if stackBad (stks.getD k 0) then (s.sensorFault (4 + k / 3) k).fset (F.memStack_RATE k) 2 else s) s
    let hotDies := (List.range tj.length).filter fun d => decide ((2 * thr : Int) ≤ tj.getD d 0)
    let hotStks := (List.range stks.length).filter fun k => !stackBad (stks.getD k 0) && decide ((sthr : Int) ≤ stks.getD k 0)
    let badStk := stks.any stackBad
    let s := hotDies.foldl (fun s d => s.error { unit := unitHalo, code := 0xD0, cls := 0, addr := d, every := oneSecond }) s
    let s := hotStks.foldl (fun s k => s.error { unit := unitHalo, code := 0xD1, cls := 0, addr := k, every := oneSecond }) s
    let s := if !hotDies.isEmpty || !hotStks.isEmpty || badStk then s.throttle else s
    let s := (List.range tj.length).foldl (fun s d => if (2 * s.fget F.safThr0_TJ_TRIP : Int) ≤ tj.getD d 0 then s.trip 0xD4 d else s) s
    let s := (List.range stks.length).foldl (fun s k =>
      if !stackBad (stks.getD k 0) && decide ((s.fget F.safThr0_STK_TRIP : Int) < stks.getD k 0) then s.trip 0xD4 (16 + k) else s) s
    let s := s.currents e.cur.toList
    let cool := tj.all (fun x => decide (x ≤ 2 * (thr : Int) - 6)) && stks.all (fun x => !stackBad x && decide (x ≤ (sthr : Int) - 3))
    let s := { s with pow := { s.pow with cool := cool } }
    let d := hottest tj
    let stk := stks.filter fun x => !stackBad x
    let k := (findIdx? (fun x => decide (x = stk.getD (hottest stk) 0)) stks).getD 0
    let mt := degrees (tj.getD d 0 / 2)
    let mk := degrees (stk.getD (hottest stk) 0)
    let s := (s.fset F.safStat_TJ_MAX mt).fset F.safStat_TJ_DIE d
    ((s.fset F.safStat_STK_MAX mk).fset F.safStat_STK k).tenSample mt mk

/-- DMIN takes one step down while every reading is cool and no hold lasts. -/
def State.dminRelease (s : State) : State :=
  let d := s.fget F.pwrGov_DMIN
  if s.haloRuns && decide (8 < d) && s.pow.cool && s.pow.hold.isNone then s.fset F.pwrGov_DMIN (d - 1) else s

/-- The 10 ms of a hold have passed; DMIN is released as above. -/
def State.holdEnd (s : State) : State :=
  match s.pow.hold with
  | some t => if t + 10 * oneMs ≤ s.now 8 then { s with pow := { s.pow with hold := none } } else s
  | none => s

/-! ### Threshold requests (R437) -/

/-- Fields of a threshold set: places in the words, bounds and Ouvfen's default. -/
def thr0Fields : List (Nat × Nat × Nat × Nat × Nat) :=
  [(55, 48, 100, 120, 120), (47, 40, 80, 110, 100), (35, 32, 1, 10, 10), (31, 24, 95, 105, 105), (23, 16, 80, 100, 95),
   (15, 8, 100, 115, 115), (7, 0, 80, 105, 100)]
def thr1Fields : List (Nat × Nat × Nat × Nat × Nat) := [(27, 16, 300, 2200, 2200), (7, 0, 1, 200, 50)]

/-- The default threshold words. -/
def thrDefault (fs : List (Nat × Nat × Nat × Nat × Nat)) : Nat := fs.foldl (fun n f => setBits n f.1 f.2.1 f.2.2.2.2) 0

/-- Ranges and relations hold of a set of thresholds. -/
def thrOk (a b : Nat) : Bool :=
  let inRange := fun (v : Nat) (f : Nat × Nat × Nat × Nat × Nat) =>
    decide (f.2.2.1 ≤ bitsOf v f.1 f.2.1) && decide (bitsOf v f.1 f.2.1 ≤ f.2.2.2.1)
  thr0Fields.all (inRange a) && thr1Fields.all (inRange b)
  && decide (bitsOf a 7 0 + 5 ≤ bitsOf a 15 8) && decide (bitsOf a 23 16 + 5 ≤ bitsOf a 31 24)
  && decide (bitsOf a 47 40 + 10 ≤ bitsOf a 55 48)

/-- Some field of the new set is larger: a raise; some field differs. -/
def thrRaises (a b a' b' : Nat) : Bool :=
  thr0Fields.any (fun f => decide (bitsOf a f.1 f.2.1 < bitsOf a' f.1 f.2.1)) || thr1Fields.any (fun f => decide (bitsOf b f.1 f.2.1 < bitsOf b' f.1 f.2.1))
def thrDiffers (a b a' b' : Nat) : Bool :=
  thr0Fields.any (fun f => decide (bitsOf a f.1 f.2.1 ≠ bitsOf a' f.1 f.2.1)) || thr1Fields.any (fun f => decide (bitsOf b f.1 f.2.1 ≠ bitsOf b' f.1 f.2.1))

/-- The fuse steps that counted kinds have left. -/
def State.haloLeft (s : State) : Nat := 16 - s.fuses.haloUsed

/-- DATA of the threshold entries (R398): the set, then the steps burned of the three counters. -/
def State.thrData (s : State) (a b : Nat) : Bytes :=
  leBytes 8 a ++ leBytes 8 b ++ leBytes 8 s.fuses.haloUsed ++ leBytes 8 s.fuses.rollback ++ leBytes 8 s.fuses.sealUsed

/-- A set that raises or lowers takes effect and is logged; a raise burns one step. -/
def State.thrPut (s : State) (a b a' b' : Nat) : State :=
  let s := if thrRaises a b a' b' then
      let s := { s with fuses := { s.fuses with haloUsed := s.fuses.haloUsed + 1 } }
      (s.logAppend 3 s.haloLeft (s.thrData a' b') true).fset F.mgtLimits_HALO_LEFT s.haloLeft
    else if thrDiffers a b a' b' then s.logAppend 4 0xFF (s.thrData a' b') false else s
  (s.setReg .safThr0 a').setReg .safThr1 b'

/-- SAF_REQ runs (R437). -/
def State.safRun (s : State) : State :=
  let a := s.reg .safThr0
  let b := s.reg .safThr1
  let a' := s.reg .safProp0
  let b' := s.reg .safProp1
  let fin := fun (s : State) (r : Nat) => (s.fset F.safReq_RESULT r).fset F.safReq_GO 0
  if !thrOk a' b' then fin s 3
  else if thrRaises a b a' b' && s.haloLeft = 0 then fin s 4
  else
    let s := s.thrPut a b a' b'
    fin (if thrDiffers a b a' b' then s.alert 7 else s) 1

/-- A write of SAF_REQ (R493). -/
def State.safReqWrite : Hook := fun s w => s.wGo w F.safReq_GO (s.fbit F.safReq_GO) (some (F.safReq_RESULT, 5)) State.safRun

/-! ### Open-fibre control (R439) -/

/-- No light for OFC_MS: the transmitter goes off, the link goes DOWN, and probing begins. -/
def State.fibreOpen (s : State) (l : Nat) : State :=
  if !s.haloRuns || bitAt (s.reg .safLaser) l then s
  else
    let s := s.setReg .safLaser (setBit (s.reg .safLaser) l true)
    let s := { s with pow := { s.pow with probing := setBit s.pow.probing l true } }
    let s := s.error { unit := unitLink l, code := 0xD9, cls := 0, every := oneSecond }
    (s.alert 6).linkDown l

/-- A probe: when both ends have seen light for the same 2 ms the bit clears, and training follows (R260 step 2). -/
def State.fibreProbe (s : State) (l : Nat) (light : Bool) : State :=
  if s.haloRuns && bitAt s.pow.probing l && light then
    { s.setReg .safLaser (setBit (s.reg .safLaser) l false) with pow := { s.pow with probing := setBit s.pow.probing l false } }
  else s

/-! ### The supplies and the test port (R26, R435, R472, R477, R483) -/

/-- VDD_HALO falls below 1.62 V: everything is held in reset, Halo with its trip latch too. -/
def State.haloLow (s : State) : State :=
  let s := s.deviceReset true
  { s with tripped := false, thermtrip := false, shutReq := false, pow := .init
           pins := { s.pins with vddHalo := false, pkgRst := true, stkEn := false, optEn := false } }

/-- VDD_HALO rises; the dies stay held until PKG_RST_N deasserts. -/
def State.haloUp (s : State) : State := { s with pins := { s.pins with vddHalo := true, pkgRst := true } }

/-- An instruction is loaded into the test port: EXTEST, INTEST and CLAMP only under PKG_RST_N (R477). -/
def State.jtagLoad (s : State) (i : JtagIns) : State :=
  let i' := match i with
    | .extest | .intest | .clamp => if s.pins.pkgRst then i else .bypass
    | _ => i
  { s with pins := { s.pins with jtag := i' } }

/-! ### The rows -/

def execLeaseExpiry (src : Fin 3) (s : State) : Out := .next (s.leaseEnd src)
def execGovernorTick (ps pd : Nat) (s : State) : Out := .next (s.governorTick ps pd)
def execRampWindow (est meas : Nat) (s : State) : Out := .next (s.rampWindow est meas)
def execParkGate (s : State) : Out := .next s.parkGate
def execStackSelfRefresh (stack : Fin 12) (s : State) : Out := .next (s.stackSleep stack)
def execAvsbusPoll (rails : RailReads) (s : State) : Out := .next (s.avsPoll rails)
def execHaloTempSample (env : TempReads) (s : State) : Out := .next (s.tempSample env)
def execDminRelease (s : State) : Out := .next s.dminRelease
def execOvercurrentHoldEnd (s : State) : Out := .next s.holdEnd
def execClockFault (die : Fin 10) (s : State) : Out := .next (if s.haloRuns then s.shutFault 0xD7 die else s)
def execWatchdogKick (s : State) : Out := .next { s with pow := { s.pow with kick := s.now 8 } }
def execWatchdogExpiry (s : State) : Out := .next s.watchdog
def execLockstepMismatch (s : State) : Out := .next s.safeState
/-- The injected mismatch was not seen, or the pin does not read back (R436). -/
def execSafetySelfCheck (seen pinOk : Bool) (s : State) : Out := .next (if seen && pinOk then s else s.safeState)
def execHclkFault (s : State) : Out := .next s.safeState
def execOpenFibreDetect (link : Fin 64) (s : State) : Out := .next (s.fibreOpen link)
def execOfcProbe (link : Fin 64) (light : Bool) (s : State) : Out := .next (s.fibreProbe link light)
def execVddHaloLow (s : State) : Out := .next s.haloLow
def execVddHaloUp (s : State) : Out := .next s.haloUp
/-- The switches lose their drive and spring to bypass (R483); the polls find the rail. -/
def execVddEclLoss (s : State) : Out := .next { s.eclRelease with pins := { s.pins with vddEcl := false } }
def execEntdaa (addr : BitVec 7) (s : State) : Out :=
  .next (if s.pins.vddHalo && !s.pins.pkgRst then { s with pins := { s.pins with i3c := some addr.toNat } } else s)
def execJtagInstructionLoad (ins : JtagIns) (s : State) : Out := .next (s.jtagLoad ins)

end Sys2Proof.Machine
end

