-- ==== Sys2Proof/Machine/Region.lean ====
section
/-! DEFINITION. The region table (R166-R169), LLC way modes (R175-R177), crossings (R182), the MEM_ registers (R208-R215). -/

namespace Sys2Proof.Machine

/-! ### PRT_RGN_A -/

/-- An LLC-window granule is in scratchpad mode and on a good slice (R175). -/
def State.granuleOk (s : State) (g : Nat) : Bool := decide (g / 768 < s.spwOf (g % 768 / 8)) && s.sliceGood (g % 768)

/-- The type's granule and window (R167). -/
def State.rgnWindow (s : State) (r : Rgn) : Bool :=
  let al := fun (g : Nat) => decide (r.base % g = 0) && decide ((r.limit + 1) % g = 0)
  match r.ty with
  | 0 => al (2 ^ 30) && decide (r.limit < s.mapN * 2 ^ 30)
  | 1 => al 65536 && decide (0x10000000000 ≤ r.base) && decide (r.limit < 0x10030000000) &&
      (List.range (r.limit / 65536 + 1 - r.base / 65536)).all fun i => s.granuleOk (r.base / 65536 - 0x1000000 + i)
  | 2 => al 0x200000 && decide (0x80000000000 ≤ r.base) && decide (r.limit < 0x100000000000)
  | _ => false

/-- The checks of R167 on a valid entry of partition `p`. -/
def State.rgnOk (s : State) (p : Nat) (r : Rgn) : Bool :=
  let own := (s.regions p).filter (·.idx ≠ r.idx)
  let rng := (r.base, r.limit)
  decide (r.base ≤ r.limit) && s.rgnWindow r
  && !(own.any fun q => meets rng (q.base, q.limit))
  && !((List.range 8).any fun q => decide (q ≠ p) && (s.regions q).any fun o => meets rng (o.base, o.limit) && !(o.shared && r.shared))
  && !(r.sealed && r.shared) && !(r.atom && decide (r.ty ≠ 0))
  && !(decide (r.ty = 2) && decide (256 ≤ (own.filter (·.ty = 2)).length))
  && !(s.areas.any (meets rng))

/-- Host requests that slices hold or that wait for snoops (R169): those of decoders of partition `p` within an entry. -/
def State.hostBusy (s : State) (p : Nat) (r : Rgn) : Bool :=
  (s.snpq ++ (s.mchs.map fun e => e.2.held ++ e.2.net).flatten).any fun h =>
    match h.host with
    | some k => decide (s.fget (F.hstHdm_PART k) = p) && decide (r.base ≤ h.addr) && decide (h.addr ≤ r.limit)
    | none => false

/-- A core DMA descriptor or a host request admitted under an entry has not completed (R169). A fabric request is admitted in the step that serves it (log entry 149). -/
def State.rgnBusy (s : State) (p : Nat) (r : Rgn) : Bool :=
  s.hostBusy p r || s.cores.any fun e =>
    let n := e.1
    decide (s.dmaPart n = p) && e.2.dmaq.any fun q => q.any fun j =>
      j.checked && ((dOp j.desc ≠ 3 && (spmWin (dSrc j.desc)).isNone && decide (r.base ≤ dSrc j.desc) && decide (dSrc j.desc ≤ r.limit))
        || ((spmWin (dDst j.desc)).isNone && decide (r.base ≤ dDstBase j.desc) && decide (dDstBase j.desc ≤ r.limit)))

/-- An entry takes effect with the limit that PRT_RGN_B held at its write (R166). -/
def State.rgnSet (s : State) (p i v lim : Nat) : State :=
  { s.setReg (.prtRgnA p i) v with rgnLim := Sparse.setD (fun _ => 0) s.rgnLim (p * 4096 + i) lim }

/-- A write of PRT_RGN_A (R166, R167, R169). -/
def State.rgnWrite (s : State) (w : Wr) : Nat × State :=
  match w.reg with
  | .prtRgnA p i =>
    let b := s.reg (.prtRgnB p i)
    let r := Rgn.ofWords i w.new b
    let old := s.reg w.reg
    let lim := Sparse.getD (fun _ => 0) s.rgnLim (p * 4096 + i)
    if 3 ≤ r.ty then s.wDeny
    else if bitAt w.new 63 && !s.rgnOk p r then s.wDeny
    else if bitAt old 63 && (decide (old ≠ w.new) || decide (lim ≠ r.limit)) then
      match (s.regions p).find? (·.idx = i) with
      | some o => if s.rgnBusy p o then (stPending, { s with rgnq := s.rgnq ++ [⟨p, i, w.new, r.limit, w.req⟩] }) else (stOK, s.rgnSet p i w.new r.limit)
      | none => (stOK, s.rgnSet p i w.new r.limit)
    else (stOK, s.rgnSet p i w.new r.limit)
  | _ => s.wDeny

/-- A region write whose wait is over takes effect and is acknowledged (R169). -/
def State.rgnFinish (s : State) (p i : Nat) : State :=
  match s.rgnq.find? fun q => q.part = p && q.idx = i, (s.regions p).find? (·.idx = i) with
  | some q, some o =>
    if s.rgnBusy p o then s
    else ({ s with rgnq := s.rgnq.erase q }.rgnSet p i q.val q.lim).answer stOK []
  | some q, none => ({ s with rgnq := s.rgnq.erase q }.rgnSet p i q.val q.lim).answer stOK []
  | none, _ => s

/-! ### LLC way modes (R176, R177) -/

/-- First byte of way `w` of slice `m` in the LLC window (R175). -/
def wayAddr (m w : Nat) : Nat := 0x10000000000 + (w * 768 + m) * 65536

/-- A way of slice `m` from `lo` to `hi - 1` is covered by a valid region or backs the locked staging pool (R176, R294). -/
def State.waysUsed (s : State) (m lo hi : Nat) : Bool :=
  (List.range 16).any fun w => decide (lo ≤ w) && decide (w < hi) &&
    (s.anyRegionIn (wayAddr m w) (wayAddr m w + 65535) ||
     (s.fbit F.colPool_LOCK && decide (s.fget F.colPool_BASE ≤ w * 768 + m) && decide (w * 768 + m < s.fget F.colPool_BASE + s.fget F.colPool_CHUNKS)))

/-- A write of LLC_GRP goes to the shadow (R190); a value that the configuration gives before release from reset is in force. -/
def State.llcGrpWrite (s : State) (g : Nat) (w : Wr) : Nat × State :=
  if 16 < w.new % 32 then s.wDeny
  else
    let s := if s.fget F.bootStatus_STAGE < 2 then { s with spw := Sparse.setD (fun _ => 0) s.spw g (w.new % 32) } else s
    s.wOk w

/-- Groups whose shadow differs from the value in force. -/
def State.llcChanged (s : State) : List Nat := (List.range 96).filter fun g => s.fget (F.llcGrp_SPW g) ≠ s.spwOf g

/-- A write of LLC_COMMIT (R176, R493). -/
def State.llcCommit (s : State) (w : Wr) : Nat × State :=
  s.wGo w F.llcCommit_GO (s.fbit F.llcCommit_BUSY) (some (F.llcCommit_RESULT, 3)) fun s =>
    let ch := s.llcChanged
    let bad := ch.any fun g => (List.range 8).any fun j => s.waysUsed (8 * g + j) (s.fget (F.llcGrp_SPW g)) (s.spwOf g)
    if bad then (s.fset F.llcCommit_GO 0).fset F.llcCommit_RESULT 2
    else { s.fset F.llcCommit_BUSY 1 with llcOp := ch.map fun g => (g, s.fget (F.llcGrp_SPW g)) }

/-- One slice's ways change mode: lines of a way that leaves the cache are written back and dropped, and every changing way is zeroed (R176); the engine takes the slice's input (R334). -/
def State.changeWays (s : State) (m old new : Nat) : State :=
  let s := s.grant 4 m 3
  let s := if old < new then s.llcDrop m old new else s
  (List.range 16).foldl (fun s w =>
    if (min old new ≤ w) ∧ w < max old new then { s with mem := s.mem.clearRange (wayAddr m w) (wayAddr m w + 65536) } else s) s

/-- A slice of a changing group has an MCH that retrains: the commit lasts until it has ended (R177). -/
def State.llcWaits (s : State) : Bool := s.llcOp.any fun p => (List.range 8).any fun j => s.retraining (8 * p.1 + j)

/-- Group `g` takes a new SPW, and emits LLC_COMMIT (R176, R446). -/
def State.changeGroup (s : State) (g new : Nat) : State :=
  let old := s.spwOf g
  let s := (List.range 8).foldl (fun s j => s.changeWays (8 * g + j) old new) s
  let s := { s with spw := Sparse.setD (fun _ => 0) s.spw g new }
  s.tail (2016 + g) 0x48 (4 + g / 24) none new

/-- The commit completes: the values that were shadowed at GO are in force together (R176), and requests that waited for a changing way proceed (R177). -/
def State.llcDone (s : State) : State :=
  if !s.fbit F.llcCommit_BUSY || s.llcWaits then s
  else
    let ch := s.llcOp
    let s := { ch.foldl (fun s p => s.changeGroup p.1 p.2) s with llcOp := [] }
    let s := ((s.fset F.llcCommit_BUSY 0).fset F.llcCommit_GO 0).fset F.llcCommit_RESULT 1
    ch.foldl (fun s p => (List.range 8).foldl (fun s j => s.releaseHeld (8 * p.1 + j)) s) s

/-! ### Crossings (R182) -/

/-- A flit fails its CRC on crossing `x` and is retried. -/
def State.crossRetry (s : State) (x : Nat) : State :=
  (s.fsat (F.nocXstat_RETRIES x) 1).tail (2176 + x) 0x58 (crossDie x) none (s.fget (F.nocXstat_MODULES x))

/-- A module leaves crossing `x`; the loss of the last one is fatal to the device. The record's CODE is not in the spec: a free value (log entry 19). -/
def State.moduleGone (s : State) (x : Nat) : State :=
  let k := s.fget (F.nocXstat_MODULES x)
  if k = 0 then s
  else
    let s := s.fset (F.nocXstat_MODULES x) (k - 1)
    let s := (s.fpPut (408 + x) 1 (k - 1)).fpStamp true
    let (c, s) := s.draw
    if k = 1 then s.fatalDevice (unitDie (crossDie x)) (c.toNat % 256) 0
    else s.error { unit := unitDie (crossDie x), code := c.toNat % 256, cls := 0 }

/-! ### MEM_ registers -/

/-- A write of MEM_CFG (R215). -/
def State.memCfgWrite (s : State) (w : Wr) : Nat × State :=
  let t := w.fld F.memCfg_RT_TEMP
  let h := w.fld F.memCfg_SCRUB_HOURS
  s.wIf w (decide (2 ≤ t) && decide (t ≤ 40) && decide (w.fld F.memCfg_PIN_THRESH ≠ 0) && decide (1 ≤ h) && decide (h ≤ 168))

/-- A write of MEM_RETRAIN (R207, R208, R215). -/
def State.memRetrain (s : State) (w : Wr) : Nat × State :=
  if 768 ≤ w.fld F.memRetrain_MCH then s.wDeny
  else s.wGo w F.memRetrain_GO (s.fbit F.memRetrain_GO) none fun s => (s.fset F.memRetrain_GO 0).retrainGo

/-- A write of MEM_RETIRE (R212, R215). -/
def State.memRetire (s : State) (w : Wr) : Nat × State :=
  if 768 ≤ w.fld F.memRetire_MCH then s.wDeny
  else if w.set F.memRetire_GO then
    if 16 ≤ s.retiredCount then s.wDeny
    else let s := s.setReg w.reg (w.new % 2 ^ 63); (stOK, s.retire (s.fget F.memRetire_MCH) 0x47)
  else (stOK, s.setReg w.reg (w.new % 2 ^ 63))

/-- Some MCH has been retired since the map in force was made. -/
def State.mapStale (s : State) : Bool := s.mchs.any fun e => e.2.newlyRetired

/-- A write of MEM_MAP (R213, R215, R493). After a seventeenth retirement the device is unusable and there is no rebuilt map to commit (log entry 150). -/
def State.memMap (s : State) (w : Wr) : Nat × State :=
  if s.fbit F.memMap_COMMIT then s.wDeny
  else if w.set F.memMap_COMMIT then
    if !s.mapStale || !s.noInstances || decide (16 < s.retiredCount) then s.wDeny else (stOK, s.fset F.memMap_COMMIT 1)
  else (stOK, s)

/-! ### The rows that are no register writes -/

def execCrossingFlitCrcFail (x : Fin 12) (s : State) : Out := .next (s.crossRetry x)
def execModuleRemoved (x : Fin 12) (s : State) : Out := .next (s.moduleGone x)

end Sys2Proof.Machine
end

