-- ==== Sys2Proof/Machine/RegView.lean ====
section
/-! DEFINITION. Who may reach a register (R384, R440, R488, R489, R491), what a register reads as, and the coarsened counters that partitions read (R368, R369). -/

namespace Sys2Proof.Machine

/-! ### Views -/

/-- Core `n` is partition `p`'s. -/
def State.ownsCore (s : State) (p n : Nat) : Bool := s.partOfCore n = some p

/-- Partition `p`'s view of a register (R488). -/
def State.partSees (s : State) (p : Nat) (r : Reg) : Bool :=
  s.fnOn (1 + p) && match r with
  | .strRing k | .strCq k | .strCtl k | .strCqhead k | .strStat k | .strHead k | .strScnt k => s.strPart k = p
  | .cntScfg k | .cntSbase k | .cntSlist k | .cntShead k | .cntSstat k => k = 1 + p
  | .cntCtag n | .cntCbund n | .cntCstall n | .cntCrows n | .cntTrap n _ | .cntTrapst n => s.ownsCore p n
  | .cntNw q _ _ => q = p
  | .cntNwclr => true
  | .coreStatus n | .coreErr n | .coreFence n => s.ownsCore p n
  | .coreVcfg q | .coreVmap q _ => q = p
  | .mxeCtl n | .mxeStat n | .mxeCkctl n | .mxeCkcnt n | .mxeCklast n | .mxePerf n => s.ownsCore p n
  | .vxeStat n | .vxeFlags n | .vxePerf n | .spmEcc n => s.ownsCore p n
  | .prtCfg q | .prtStat q | .prtRgnA q _ | .prtRgnB q _ => q = p
  | .mgtErrbase k | .mgtErrhead k | .mgtErrstat k | .mgtErrirq k => k = 1 + p
  | .lnkStat l => s.fget (F.lnkCfg_PART l) = p
  | .colChcfg c | .colChcnt c | .colChdrop c => s.fget (F.colChcfg_PART c) = p
  | .hstHb f | .hstHbcfg f | .hstAttach f | .hstFstat f => f = 1 + p
  | .hstId0 | .hstId1 => true
  | .mbxCmd f | .mbxArg f _ => f = 1 + p
  | .trcBcfg b | .trcBbase b | .trcBctl b | .trcBstat b | .trcBtrig b | .trcBloss b | .trcTrig b _ | .trcSrcen b _ => b = 1 + p
  | .pwrTen => true
  | .umbSet q | .umbProt q | .umbRows q | .umbPar q | .umbWin q | .umbStat q | .umbCmd q | .umbRange q => q = p
  | _ => false

/-- Registers that the board reads over I3C (R440): BOOT_, SAF_, PWR_, MEM_STACK, MGT_FWSTAT and MGT_RCMD. -/
def i3cReads (r : Reg) : Bool :=
  match r with
  | .bootStatus | .bootCtl | .bootReport _ _ | .bootFloorplan _ | .bootFdr _ => true
  | .safStat | .safAlert | .safThr0 | .safThr1 | .safProp0 | .safProp1 | .safReq | .safLaser | .safStore _ => true
  | .pwrSp _ | .pwrStat | .pwrTel | .pwrGov | .pwrTen | .pwrRail _ | .pwrVf _ => true
  | .memStack _ | .mgtFwstat | .mgtRcmd => true
  | _ => false

/-- Registers that the board writes over I3C (R440). -/
def i3cWrites (r : Reg) : Bool :=
  match r with
  | .pwrSp k => k = 0
  | .safAlert | .mgtRcmd | .mgtFwarg | .mgtFwwin _ => true
  | _ => false

/-- The requester may read the register (R489, R491). -/
def State.mayRead (s : State) (q : Req) (r : Reg) : Bool :=
  match q with
  | .vf p => s.partSees p r
  | .i3c => i3cReads r
  | _ => true

/-- A register that a partition sees and only reads, whatever its access codes (R488: "reads its cores"). -/
def partReadOnly (r : Reg) : Bool :=
  match r with
  | .coreErr _ => true
  | _ => false

/-! ### Capabilities (R384) -/

/-- Stage S1 runs (R381): the boot ROM and the configuration reader write every target. -/
def State.inS1 (s : State) : Bool := s.fget F.bootStatus_STAGE = 1 && s.fget F.bootStatus_STATE = 0 && !s.pins.pkgRst

/-- A reserved capability value (R383). -/
def badCap : Req → Bool
  | .cap c => c = 0 || c = 14 || c = 15
  | _ => false

/-- Registers that capability 0xD writes (R465): CORE_DBG, CORE_BKPT, CORE_DREG, TRC_ and CNT_. -/
def debugWrites (off : Nat) (r : Reg) : Bool :=
  (match r with | .coreDbg _ | .coreBkpt _ | .coreDreg _ _ => true | _ => false)
  || decide (0x800000 ≤ off ∧ off < 0x1000000) || decide (0x1E80000 ≤ off ∧ off < 0x1E90000)

/-- The capabilities that a block's registers accept writes from (R384), by offset. -/
def blockCaps (off : Nat) : List Nat :=
  if off < 0x800000 then [5, 12]
  else if off < 0x1000000 then [8, 12]
  else if off < 0x1800000 then [5, 12]
  else if off < 0x1A00000 then [6, 12]
  else if off < 0x1D00000 then [4, 12]
  else if off < 0x1D20000 then [7, 12]
  else if off < 0x1E20000 then [4, 12]
  else if off < 0x1E30000 then [6, 12]
  else if off < 0x1E50000 then [5, 12]
  else if off < 0x1E60000 then [4, 12]
  else if off < 0x1E70000 then [3]
  else if off < 0x1E80000 then [10, 12]
  else if off < 0x1E90000 then [8, 12]
  else if off = Reg.pwrGov.off then [3]
  else if off < 0x1EA0000 then [8, 12]
  else if off < 0x1ED0000 then [4, 12]
  else [9, 12]

/-- A write from a capability is accepted by the target (R384). -/
def State.capMay (s : State) (q : Req) (off : Nat) (r : Reg) : Bool :=
  match q with
  | .cap c => (s.inS1 && (c = 1 || c = 2)) || (blockCaps off).contains c.toNat || (c = 13 && debugWrites off r)
  | .i3c => i3cWrites r
  | _ => true

/-- A write that its target refuses for its capability: counted, recorded at most once a second, discarded. -/
def State.capViolation (s : State) (off : Nat) : State :=
  (s.fsat F.mgtCapstat_VIOL 1).error { unit := unitMgmt, code := 0xE2, cls := 1, addr := off, every := oneSecond }

/-! ### Dies in reset (R494) -/

/-- The die that holds a register. -/
def dieOfReg (r : Reg) : Nat :=
  match r with
  | .coreStatus n | .coreErr n | .coreFence n | .coreDbg n | .coreBkpt n | .coreDreg n _ => dieOfCore n
  | .mxeCtl n | .mxeStat n | .mxeCkctl n | .mxeCkcnt n | .mxeCklast n | .mxePerf n => dieOfCore n
  | .vxeStat n | .vxeFlags n | .vxePerf n | .spmEcc n => dieOfCore n
  | .memMchStat m | .memMchEcc m | .memMchPin m => 4 + m / 192
  | .memStack k => 4 + k / 3
  | .nocXstat x => crossDie x
  | .llcGrp g => 4 + g / 24
  | .lnkCfg l | .lnkStat l | .lnkPeerId l | .lnkPeerInfo l | .lnkExpect l | .lnkCnt l | .lnkFec l | .lnkMap l => dieOfUnit (unitLink l)
  | .lnkEcl p => dieOfUnit (unitLink (p / 10 * 20 + p % 10))
  | .ethCfg _ | .ethStat _ => 9
  | .arbCommit d | .arbCls d _ _ | .arbMaxwait d _ => d
  | _ => 8

/-- The register's die has left reset, or the access is one that reset does not stop: the configuration reader's in S1, the board's. -/
def State.regUp (s : State) (q : Req) (r : Reg) : Bool :=
  bitAt s.boot.dies (dieOfReg r) || (q = .i3c && s.pins.vddHalo && !s.pins.pkgRst) || (s.inS1 && (q = .cap 2 || q = .cap 1))

/-- The core whose CORE_, MXE_, VXE_ or SPM_ registers a register is one of. -/
def coreOfReg (r : Reg) : Option Nat :=
  match r with
  | .coreStatus n | .coreErr n | .coreFence n | .coreDbg n | .coreBkpt n | .coreDreg n _
  | .mxeCtl n | .mxeStat n | .mxeCkctl n | .mxeCkcnt n | .mxeCklast n | .mxePerf n
  | .vxeStat n | .vxeFlags n | .vxePerf n | .spmEcc n => some n
  | _ => none

/-- A core or cluster reset of the register's core runs: writes are discarded with TARGET_RESET. -/
def State.regResetting (s : State) (r : Reg) : Bool :=
  match coreOfReg r with
  | some n => s.resets.any fun j => decide (j.level ≤ 1) && !j.waits && j.cores.contains n
  | none => false

/-! ### What a register reads as -/

/-- Word `w` of SAF_STORE: the newest record lies in the lowest slot (R318, R443). -/
def State.storeWord (s : State) (w : Nat) : Nat := recField (s.err.halo.getD (w / 4) []) (8 * (w % 4)) 8

/-- The stored or computed word of a register. -/
def State.regRaw (s : State) (r : Reg) : Nat :=
  match r with
  | .coreStatus n => s.coreStatus n
  | .coreDreg n i => (s.core n).dreg i
  | .mxeStat n => s.mxeStat n
  | .vxeStat n => s.vxeStat n
  | .colPoolstat => s.colPoolstat
  | .secMsess => setBits (s.reg .secMsess) 63 56 (min s.sessions.length 255)
  | .safStore w => s.storeWord w
  | .bootFdr i => if s.fdrUsed ≤ i / 8 && 2 ≤ s.fget F.bootStatus_STAGE then 2 ^ 64 - 1 else s.reg r
  | _ => s.reg r

/-- The word of a register: reserved bits, write-only fields and self-clearing bits read 0 (R13, R15). -/
def State.regWord (s : State) (r : Reg) : Nat :=
  let v := s.regRaw r
  r.layout.foldl (fun n f => if f.op = .wo then n else setBits n f.hi f.lo (bitsOf v f.hi f.lo)) 0

/-- The counter fields of a register (R369). -/
def counterFields (r : Reg) : List (Nat × Nat) :=
  match r with
  | .mxeCkcnt _ | .mxePerf _ | .vxePerf _ => [(63, 32), (31, 0)]
  | .spmEcc _ => [(63, 32)]
  | .colChcnt _ => [(63, 48), (47, 32), (31, 0)]
  | .colChdrop _ | .cntCbund _ | .cntCstall _ | .cntCrows _ => [(63, 0)]
  | _ => []

/-- Bits [7:0] of every counter field cleared. -/
def coarsen (r : Reg) (v : Nat) : Nat := (counterFields r).foldl (fun v f => setBits v (f.2 + 7) f.2 0) v

/-- Partition `p` reads a register: its counters as the snapshot stands, taken anew 1 ms or more after the last (R369). -/
def State.partWord (s : State) (p : Nat) (r : Reg) : Nat × State :=
  let v := s.regWord r
  if (counterFields r).isEmpty then (v, s)
  else
    let key := p * 2 ^ 28 + r.off
    let put := fun (o : Nat) => (counterFields r).foldl (fun n f => setBits n f.1 f.2 (bitsOf o f.1 f.2)) v
    match Sparse.find s.coarse key with
    | some (o, t) =>
      if s.now 8 < t + oneMs then (put o, s)
      else (coarsen r v, { s with coarse := Sparse.insert s.coarse key (coarsen r v, s.now 8) })
    | none => (coarsen r v, { s with coarse := Sparse.insert s.coarse key (coarsen r v, s.now 8) })

/-- The RC fields of a register cleared (R15); with MEM_MCH_PIN go its PIN and the counts of each pin behind it (R215). -/
def State.clearRc (s : State) (r : Reg) : State :=
  if r.layout.any (fun f => f.op = .rc) then
    let s := match r with | .memMchPin m => (s.modMch m fun c => { c with pinCnt := [] }).fset (F.memMchPin_PIN m) 0 | _ => s
    s.setReg r (r.layout.foldl (fun n f => if f.op = .rc then setBits n f.hi f.lo 0 else n) (s.reg r))
  else s

/-! ### The trace read window (R340, R368, R455) -/

/-- The sealed partition whose region covers an address. -/
def State.sealedOwner (s : State) (a : Nat) : Option Nat :=
  (List.range 8).find? fun p => decide (s.partState p = 2) && (match s.regionAt p a with | some r => r.sealed | none => false)

/-- An address of the locked staging pool. -/
def State.inPool (s : State) (a : Nat) : Bool :=
  s.fbit F.colPool_LOCK && decide (0x10000000000 + s.fget F.colPool_BASE * 65536 ≤ a)
  && decide (a < 0x10000000000 + (s.fget F.colPool_BASE + s.fget F.colPool_CHUNKS) * 65536)

/-- One byte of a debug read: 0xE5 where it is sealed, with SEALED_READ; 0 where nothing backs it. -/
def State.debugByte (s : State) (a : Nat) : Byte × State :=
  match s.sealedOwner a with
  | some p => (0xE5, (s.sealedDebug p).fset (F.prtStat_SEALED_READ p) 1)
  | none =>
    if s.inPool a && (List.range 8).any (fun p => s.partState p = 2) then (0xE5, s)
    else (if s.backed a then s.getByte a else 0, s)

/-- Eight bytes of TRC_RDWIN: from stacked memory, by a burst slot of the debug port (R340). -/
def State.rdWin (s : State) (w : Nat) : Nat × State :=
  let a := s.fget F.trcRdpos_ADDR + 8 * w
  let s := match spaceOf a with | .stack x => s.debugSlot (s.physOf x).1 | _ => s
  let r := (List.range 8).foldl (fun (r : Bytes × State) i =>
    let b := r.2.debugByte (a + i)
    (r.1 ++ [b.1], b.2)) ([], s)
  (leVal r.1, r.2)

end Sys2Proof.Machine
end

