-- ==== Sys2Proof/Machine/Sampler.lean ====
section
/-! DEFINITION. The counter sampler (R458-R462). -/

namespace Sys2Proof.Machine

/-- Bytes of a slot for `n` values (R458). -/
def slotBytes (n : Nat) : Nat := roundUp (32 + 8 * n) 64

/-- The requester a ring's reads count as: the operator for ring 0, partition p for ring 1 + p. -/
def ringReq (r : Nat) : Req := if r = 0 then .pf0 else .vf (Fin.ofNat 8 (r - 1))

/-- The list of ring `r`, as memory holds it: `none` where it cannot be read. -/
def State.sampleList (s : State) (r addr n : Nat) : Option (List Nat) :=
  let own := r = 0 || s.inRegion (r - 1) addr (4 * n) fun g => g.rd
  if addr % 8 ≠ 0 || !own || (s.read addr (4 * n)).1 ≠ stOK then none
  else some ((List.range n).map fun i => s.getLE (addr + 4 * i) 4)

/-- Every entry names a register that the ring's owner may read. -/
def State.sampleOk (s : State) (r : Nat) (l : List Nat) : Bool :=
  l.all fun e => match Reg.ofOff e with | some g => decide (e < 2 ^ 28) && s.mayRead (ringReq r) g | none => false

/-- The ring's place at EN = 1 (R458). -/
def State.samplePlace (s : State) (r base bytes : Nat) : Bool :=
  decide (base % 4096 = 0) && (if r = 0 then s.freeStack base bytes else s.ownStack (r - 1) base bytes)

/-- A write of CNT_SCFG (R458, R462). -/
def State.scfgWrite (s : State) (r : Nat) (w : Wr) : Nat × State :=
  let en := w.fld (F.cntScfg_EN r) = 1
  let log := w.fld (F.cntScfg_LOG2N r)
  let n := w.fld (F.cntScfg_NCNT r)
  let least := if r = 0 then 1024 else 1200000
  if log < 4 ∨ 16 < log ∨ n = 0 ∨ 1024 < n ∨ w.fld (F.cntScfg_INTERVAL r) < least then s.wDeny
  else if !en then s.wOk w
  else if s.fbit (F.cntScfg_EN r) then s.wDeny
  else
    match s.sampleList r (s.fget (F.cntSlist_LIST r)) n with
    | none => s.wDeny
    | some l =>
      if s.sampleOk r l && s.samplePlace r (s.fget (F.cntSbase_BASE r)) (slotBytes n * 2 ^ log) then
        (stOK, { s.setReg w.reg w.new with samps := Sparse.setD (fun _ => Samp.init) s.samps r ⟨l, 0, 0⟩ })
      else s.wDeny

/-- A write of CNT_SBASE or CNT_SLIST: none while the ring is enabled. -/
def State.sringWrite (s : State) (r : Nat) (w : Wr) : Nat × State := s.wIf w (!s.fbit (F.cntScfg_EN r))

/-- The words of a snapshot; a partition's counters are coarse. -/
def State.sampleWords (s : State) (r : Nat) (l : List Nat) : List Nat × State :=
  l.foldl (fun (a : List Nat × State) e =>
    match Reg.ofOff e with
    | none => (a.1 ++ [0], a.2)
    | some g =>
      if r = 0 then (a.1 ++ [a.2.regWord g], a.2)
      else let v := a.2.partWord (r - 1) g; (a.1 ++ [v.1], v.2)) ([], s)

/-- A snapshot record (R459). -/
def snapRecord (num ts flags : Nat) (vs : List Nat) : Bytes :=
  mkRec 32 [(0, 8, num), (8, 8, ts), (16, 2, vs.length), (18, 1, flags)] ++ (vs.map (leBytes 8)).flatten

/-- INTERVAL has passed for ring `r`: the registers are latched and a record written, or dropped when the ring is full (R460). -/
def State.snapshot (s : State) (r : Nat) : State :=
  if !s.fbit (F.cntScfg_EN r) then s
  else
    let k := Sparse.getD (fun _ => Samp.init) s.samps r
    let put := fun (s : State) (k : Samp) => { s with samps := Sparse.setD (fun _ => Samp.init) s.samps r k }
    let n := 2 ^ s.fget (F.cntScfg_LOG2N r)
    let wr := s.fget (F.cntSstat_WRITTEN r)
    if (wr + 2 ^ 32 - s.fget (F.cntShead_HEAD r)) % 2 ^ 32 = n then
      put (s.fsat (F.cntSstat_LOST r) 1) { k with num := k.num + 1, gap := k.gap + 1 }
    else
      let (vs, s) := s.sampleWords r k.list
      let flags := (if k.gap = 0 then 0 else 1) + (if r = 0 then 0 else 2) + (if s.fget F.pwrStat_PARK = 2 then 4 else 0)
      let s := (s.write (s.fget (F.cntSbase_BASE r) + wr % n * slotBytes vs.length) (snapRecord k.num (s.now 8) flags vs)).2
      put (s.fset (F.cntSstat_WRITTEN r) (wr + 1)) { k with num := k.num + 1, gap := 0 }

def execSamplerSnapshot (r : Fin 9) (s : State) : Out := .next (s.snapshot r)

end Sys2Proof.Machine
end

