-- ==== Sys2Proof/Machine/TraceRegs.lean ====
section
/-! DEFINITION. Writes to the trace, sampler-memory, numeric-watch and error-ring registers (R317-R319, R448-R455, R463, R464). -/

namespace Sys2Proof.Machine

/-! ### Error rings (R317, R319, R412) -/

/-- The ring's checks at EN = 1: aligned, and in a STACK region of no partition (ring 0) or of its partition with WR. -/
def State.errRingOk (s : State) (r base log : Nat) : Bool :=
  decide (base % (32 * 2 ^ log) = 0) && (if r = 0 then s.freeStack base (32 * 2 ^ log) else s.ownStack (r - 1) base (32 * 2 ^ log))

/-- A write of MGT_ERRBASE (R319); the first enable of ring 0 writes the records held for it, and LOST then counts those beyond (R412). -/
def State.errBaseWrite (s : State) (r : Nat) (w : Wr) : Nat × State :=
  let en := w.fld (F.mgtErrbase_EN r) = 1
  let log := w.fld (F.mgtErrbase_LOG2N r)
  if log < 6 ∨ 16 < log then s.wDeny
  else if !en then s.wOk w
  else if s.fbit (F.mgtErrbase_EN r) || !s.errRingOk r (w.fld (F.mgtErrbase_BASE r)) log then s.wDeny
  else
    let s := s.setReg w.reg w.new
    if r = 0 ∧ s.err.everEn = false then
      let held := s.err.held
      let s := { s with err := { s.err with everEn := true, held := [] } }
      (stOK, held.foldl (fun s e => s.ringWrite 0 e (recField e 3 1 % 8)) s)
    else (stOK, s)

/-- A write of MGT_ERRIRQ: MINCLASS 5-7 is reserved. -/
def State.errIrqWrite (s : State) (r : Nat) (w : Wr) : Nat × State := s.wIf w (decide (w.fld (F.mgtErrirq_MINCLASS r) ≤ 4))

/-! ### Tail registers (R448, R454, R455) -/

/-- The checks at EN = 1 (R448). -/
def State.tailOk (s : State) (b : Nat) (w : Wr) : Bool :=
  let log := w.fld (F.trcBcfg_LOG2SZ b)
  let base := s.fget (F.trcBbase_BASE b)
  decide (base % 2 ^ log = 0) && decide (w.fld (F.trcBcfg_PRE_MIB b) + w.fld (F.trcBcfg_POST_MIB b) + 17 ≤ 2 ^ (log - 20))
  && (if b = 0 then s.freeStack base (2 ^ log) else s.ownStack (b - 1) base (2 ^ log))

/-- A write of TRC_BCFG (R448, R454, R455): EN = 1 arms the buffer, EN = 0 stops it with its summary. -/
def State.tailCfgWrite (s : State) (b : Nat) (w : Wr) : Nat × State :=
  let en := w.fld (F.trcBcfg_EN b) = 1
  let log := w.fld (F.trcBcfg_LOG2SZ b)
  let cc := w.fld (F.trcBcfg_CRASH_CLASS b)
  if w.fld (F.trcBcfg_MODE b) = 3 ∨ log < 26 ∨ 32 < log ∨ cc = 0 ∨ 4 < cc then s.wDeny
  else if en then
    if s.fbit (F.trcBcfg_EN b) || !s.tailOk b w then s.wDeny
    else (stOK, (s.setReg w.reg w.new).tailArm b)
  else
    let s := if s.fbit (F.trcBcfg_EN b) && s.mainOn b then s.tailSummary b else s
    s.wOk w

/-- A write of TRC_BBASE: none while the buffer is enabled. -/
def State.tailBaseWrite (s : State) (b : Nat) (w : Wr) : Nat × State := s.wIf w (!s.fbit (F.trcBcfg_EN b))

/-- A write of TRC_BCTL (R450, R454): REARM starts the buffer anew, TRIGGER fires as cause 4; its SRC field is free (log entry 20). -/
def State.tailCtlWrite (s : State) (b : Nat) (w : Wr) : Nat × State :=
  let s := if w.set (F.trcBctl_REARM b) && s.fbit (F.trcBcfg_EN b) then s.tailArm b else s
  if w.set (F.trcBctl_TRIGGER b) then
    let (x, s) := s.draw
    (stOK, s.trigger b 4 (x.toNat % 4096) 8)
  else (stOK, s)

/-- A write of TRC_SRCEN (R448): bits of sources a partition's buffer cannot admit ignore the write; word 36 has 4 bits. -/
def State.tailSrcenWrite (s : State) (b i : Nat) (w : Wr) : Nat × State :=
  let v := (List.range 64).foldl (fun v k =>
    if bitAt w.new k && (i < 36 || k < 4) && (b = 0 || s.partSource (b - 1) (64 * i + k)) then v + 2 ^ k else v) 0
  (stOK, s.setReg w.reg v)

/-- A write of TRC_MKR: PLOG2 takes 21-28. -/
def State.mkrWrite (s : State) (w : Wr) : Nat × State :=
  s.wIf w (decide (21 ≤ w.fld F.trcMkr_PLOG2) && decide (w.fld F.trcMkr_PLOG2 ≤ 28))

/-- A write of TRC_RDPOS: 4 KiB aligned. -/
def State.rdposWrite (s : State) (w : Wr) : Nat × State := s.wIf w (decide (w.fld F.trcRdpos_ADDR % 4096 = 0))

/-! ### Numeric watch and trap slots (R463, R464) -/

/-- Clear numeric-watch entries `t0` to `t1 - 1` of partition `p`. -/
def State.nwClear (s : State) (p t0 t1 : Nat) : State := s.clearRegs (Reg.cntNw p t0 0).off (Reg.cntNw p t1 0).off

/-- A write of CNT_NWCLR (R463): the clear is done within the write, so GO never reads 1 after it. A partition's function always clears its own. -/
def State.nwclrWrite (s : State) (w : Wr) : Nat × State :=
  s.wGo w F.cntNwclr_GO (s.fbit F.cntNwclr_GO) (some (F.cntNwclr_RESULT, 2)) fun s =>
    let p := match partOfReq w.req with | some p => p | none => s.fget F.cntNwclr_PART
    let t := s.fget F.cntNwclr_TENSOR
    let s := if s.fbit F.cntNwclr_ALL then s.nwClear p 0 4096 else s.nwClear p t (t + 1)
    (s.fset F.cntNwclr_GO 0).fset F.cntNwclr_RESULT 1

/-! ### Markers (R457) -/

/-- The 16 bytes of a marker from link `l`. -/
def State.marker (s : State) (l : Nat) : Bytes :=
  leBytes 8 (s.now (dieOfUnit (unitLink l))) ++ leBytes 2 (s.fget F.rteCfg_DEVID) ++ leBytes 1 l ++ [0x01] ++ zeroBytes 4

/-- A marker has arrived on link `l` (R457): a MARKER packet leaves with the receiver's timestamp. -/
def State.markerIn (s : State) (l : Nat) (d : Bytes) : State :=
  if recField d 11 1 ≠ 1 then s
  else
    let die := dieOfUnit (unitLink l)
    s.tailPkt 2 (2112 + l) (recField d 10 1) die (s.partOfUnit (unitLink l) 0)
      (recField d 0 6 + recField d 8 2 % 32768 * 2 ^ 48) ((List.range 9).filter fun b => s.tailAdmits b (2112 + l))

end Sys2Proof.Machine
end

