-- ==== Sys2Proof/Machine/RegAccess.lean ====
section
/-! DEFINITION. Register writes and reads (R13-R16, R384, R490-R495): the checks, the effect of each register's write, the board's accesses (R440). -/

namespace Sys2Proof.Machine

/-! ### Writes -/

/-- A field that a write from this requester changes or sets: its access code in the requester's view (R15, R16). The configuration reader writes SEC_OPAUTH, whose value is the configuration's. -/
def State.accOf (s : State) (q : Req) (r : Reg) (f : FldSpec) : Acc :=
  match q, r with
  | .vf _, r => if partReadOnly r then .ro else f.pt
  | .cap c, .secOpauth _ => if s.inS1 && c = 2 then .rw else f.op
  | _, _ => f.op

/-- A write changes, clears or sets fields of this code. -/
def Acc.writes : Acc → Bool
  | .ro | .rc => false
  | _ => true

/-- The fields a write may touch, of the data written. -/
def State.rawOf (s : State) (q : Req) (r : Reg) (v : Nat) : Nat :=
  r.layout.foldl (fun n f => if (s.accOf q r f).writes then setBits n f.hi f.lo (bitsOf v f.hi f.lo) else n) 0

/-- The register's word with the write merged (R15): written fields replaced, W1C bits written 1 cleared, the rest as they stand. -/
def State.merged (s : State) (q : Req) (r : Reg) (v : Nat) : Nat :=
  r.layout.foldl (fun n f =>
    let o := bitsOf n f.hi f.lo
    let x := bitsOf v f.hi f.lo
    match s.accOf q r f with
    | .rw | .wo | .rws | .rwh | .rwl | .rwf => setBits n f.hi f.lo x
    | .w1c => setBits n f.hi f.lo (o - Nat.land o x)
    | .ro | .rc | .w1s => n) (s.reg r)

/-- A register whose fields only Halo writes, and the configuration reader in S1 (R495). -/
def isRwh (r : Reg) : Bool := r.layout.any fun f => f.op = .rwh

/-- Halo, or the configuration reader in S1. -/
def State.isHalo (s : State) (q : Req) : Bool :=
  match q with
  | .cap c => c = 3 || (c = 2 && s.inS1)
  | _ => false

/-- A write of SAF_THR0 or SAF_THR1 by Halo: within the ranges and relations of R437, and counted and logged as every raise is (R397). -/
def State.thrWrite (s : State) (w : Wr) : Nat × State :=
  let a := s.reg .safThr0
  let b := s.reg .safThr1
  let a' := if w.reg = .safThr0 then w.new else a
  let b' := if w.reg = .safThr1 then w.new else b
  if !thrOk a' b' || (thrRaises a b a' b' && s.haloLeft = 0) then s.wDeny
  else
    let s := s.thrPut a b a' b'
    (stOK, if thrDiffers a b a' b' then s.alert 7 else s)

/-- A write of BOOT_CTL: STOP_AFTER 8 to 14 is reserved. -/
def State.bootCtlWrite (s : State) (w : Wr) : Nat × State :=
  let k := w.fld F.bootCtl_STOP_AFTER
  s.wIf w (decide (k ≤ 7) || decide (k = 15))

/-- A write of SAF_ALERT (R443). -/
def State.safAlertWrite (s : State) (w : Wr) : Nat × State := s.wOk w

/-- The effect of a register write (R14, R493 and the register's own table). -/
def State.regEffect (s : State) (w : Wr) : Nat × State :=
  match w.reg with
  | .strRing k => s.strRingWrite k w
  | .strCq k => s.strCqWrite k w
  | .strCtl k => s.strCtlWrite k w
  | .strCqhead k => s.strCqheadWrite k w
  | .strStat k => s.strStatWrite k w
  | .strHead k => s.strHeadWrite k w
  | .strScnt k => s.strScntWrite k w
  | .strCtx => s.areaWrite w F.strCtx_LOCK F.strCtx_BASE
  | .strDb => (stOK, s.doorbell 0 w.raw)
  | .cntScfg r => s.scfgWrite r w
  | .cntSbase r | .cntSlist r => s.sringWrite r w
  | .cntNwclr => s.nwclrWrite w
  | .coreFence n => s.fenceWrite n w
  | .coreDbg n => s.dbgWrite n w
  | .coreBkpt n => s.bkptWrite n w
  | .coreDreg n i => s.dregWrite n i w
  | .coreVcfg p => s.vcfgWrite p w
  | .coreVmap p v => s.vmapWrite p v w
  | .rteCfg => s.rteCfgWrite w
  | .rteShape => s.rteShapeWrite w
  | .rteEntc d => s.rteEntcWrite d w
  | .prtCfg p => s.prtCfgWrite p w
  | .prtCmd => s.prtCmdWrite w
  | .prtRgnA _ _ => s.rgnWrite w
  | .mgtFwcmd => s.fwcmdWrite w
  | .mgtFwarg => s.fwargWrite w
  | .mgtFwarea => s.areaWrite w F.mgtFwarea_LOCK F.mgtFwarea_BASE
  | .mgtRollback => s.rollbackWrite w
  | .mgtRcmd => s.rcmdWrite w
  | .mgtFwwin i => s.fwwinWrite (8 * i) (leBytes 8 w.raw)
  | .mgtErrbase r => s.errBaseWrite r w
  | .mgtErrirq r => s.errIrqWrite r w
  | .memCfg => s.memCfgWrite w
  | .memRetrain => s.memRetrain w
  | .memRetire => s.memRetire w
  | .memMap => s.memMap w
  | .llcGrp g => s.llcGrpWrite g w
  | .llcCommit => s.llcCommit w
  | .lnkCfg l => s.lnkCfgWrite l w
  | .lnkExpect l => s.lnkExpectWrite l w
  | .lnkMap l => s.lnkMapWrite l w
  | .lnkEcl p => s.lnkEclWrite p w
  | .colCfg => s.colCfgWrite w
  | .colPool => s.colPoolWrite w
  | .colPriv => s.areaWrite w F.colPriv_LOCK F.colPriv_BASE
  | .colGcmd => s.colGcmdWrite w
  | .colChcfg c => s.colChcfgWrite c w
  | .hstHb f => s.hbWrite f
  | .hstHbcfg f => s.hbcfgWrite f w
  | .hstAttach f => s.attachWrite f w
  | .hstHdm k => s.hdmWrite k w
  | .ethCfg p => s.ethWrite p w
  | .safAlert => s.safAlertWrite w
  | .safThr0 | .safThr1 => s.thrWrite w
  | .safReq => s.safReqWrite w
  | .secSealpol => s.sealpolWrite w
  | .secZeroize => s.zeroizeWrite w
  | .mbxCmd f => s.mbxWrite f w
  | .trcBcfg b => s.tailCfgWrite b w
  | .trcBbase b => s.tailBaseWrite b w
  | .trcBctl b => s.tailCtlWrite b w
  | .trcSrcen b i => s.tailSrcenWrite b i w
  | .trcMkr => s.mkrWrite w
  | .trcRdpos => s.rdposWrite w
  | .pwrSp k => s.spWrite k w
  | .pwrGov => s.wIf w (decide (8 ≤ w.fld F.pwrGov_DMIN) && decide (w.fld F.pwrGov_DMIN ≤ 32))
  | .rstCmd => s.rstCmdWrite w
  | .bootCtl => s.bootCtlWrite w
  | .arbCommit d => s.arbCommitWrite d w
  | .arbCls d _ _ => s.arbClsWrite d w
  | .umbSet p => s.umbSetWrite p w
  | .umbCmd p => s.umbCmdWrite p w
  | .umbProt p | .umbRows p | .umbPar p | .umbWin p => s.umbFieldWrite p w
  | _ => s.wOk w

/-- A write that its target refuses for its capability counts as a violation; one that is refused on other grounds does not. -/
def State.capRefused (s : State) (q : Req) (off : Nat) (r : Reg) : State :=
  match q with
  | .cap _ => if s.capMay q off r then s else s.capViolation off
  | _ => s

/-- UMB_STAT of a set with EN = 1: a write completes with DENIED, though every field of it is RO (R333). -/
def State.setLocked (s : State) (r : Reg) : Bool :=
  match r with
  | .umbStat p => s.fbit (F.umbSet_EN p)
  | _ => false

/-- A write of 8 bytes to an assigned register, after the check of its offset. Every write of a register that only Halo writes, by whomever it is refused, is counted in SAF_STAT.DENIED (R15). -/
def State.regPut (s : State) (q : Req) (r : Reg) (v : Nat) : Nat × State :=
  if !s.regUp q r || s.regResetting r then (stTargetReset, s)
  else if isRwh r && !s.isHalo q then (stDenied, (s.capRefused q r.off r).fsat F.safStat_DENIED 1)
  else if !(match q with | .vf p => s.partSees p r | _ => true) then (stDenied, s)
  else if !s.capMay q r.off r then (stDenied, s.capRefused q r.off r)
  else if s.setLocked r then (stDenied, s)
  else if !(r.layout.any fun f => (s.accOf q r f).writes) then (stOK, s)
  else
    let w : Wr := ⟨q, r, s.rawOf q r v, s.merged q r v⟩
    if s.sealDenies r w.new then (stDenied, s) else s.regEffect w

/-- A message with a reserved capability is discarded and counted; nothing answers it (R384). -/
def State.badMessage (s : State) : State := s.fsat F.mgtCapstat_BADMSG 1

/-- An access to the PRT_ block completes after a region write of its requester that is still outstanding (R169, R180). -/
def State.prtWaits (s : State) (q : Req) (off : Nat) : Bool :=
  decide (0x1A00000 ≤ off) && decide (off < 0x1C00000) && (s.rgnq.any (·.req = q) || s.prtq.any (·.req = q))

/-- A write of 8 bytes at an offset of the register space (R13, R384, R490, R491). -/
def State.regWrite (s : State) (q : Req) (off v : Nat) : Nat × State :=
  if badCap q then (stPending, s.badMessage)
  else if s.prtWaits q off then (stPending, { s with prtq := s.prtq ++ [⟨q, off, .write (leBytes 8 v)⟩] })
  else if off % 8 ≠ 0 then (stDenied, s)
  else match Reg.ofOff off with
    | none => (if q = .i3c then stOutOfBounds else stOK, s)
    | some r => s.regPut q r v

/-- MGT_FWWIN's offsets. -/
def inFwwin (off : Nat) : Bool := decide (0x1C10000 ≤ off) && decide (off < 0x1C20000)

/-- A write of any width (R490): 8 bytes to any register, 64 bytes to MGT_FWWIN. -/
def State.regWriteBytes (s : State) (q : Req) (off : Nat) (data : Bytes) : Nat × State :=
  if data.length = 8 then s.regWrite q off (leVal data)
  else if badCap q then (stPending, s.badMessage)
  else if data.length = 64 && off % 64 = 0 && inFwwin off then
    let r := Reg.mgtFwwin ((off - 0x1C10000) / 8)
    if !s.regUp q r then (stTargetReset, s)
    else if (match q with | .vf _ => true | _ => false) then (stDenied, s)
    else if !s.capMay q off r then (stDenied, s.capRefused q off r)
    else s.fwwinWrite (off - 0x1C10000) data
  else (stDenied, s)

/-- The completion of a write is recorded unless it stays outstanding. -/
def State.sendAnswer (r : Nat × State) : State := if r.1 = stPending then r.2 else r.2.answer r.1 []

/-- A register write by its register. -/
def State.put (s : State) (q : Req) (r : Reg) (v : Nat) : Out := .next (State.sendAnswer (s.regWrite q r.off v))

/-! ### Reads -/

/-- A requester whose reads clear RC fields (R15): not a partition, not the debug port. -/
def readClears : Req → Bool
  | .vf _ => false
  | .cap c => c ≠ 13
  | _ => true

/-- A read of one register (R15, R369, R491). -/
def State.regGet (s : State) (q : Req) (off : Nat) : Nat × Nat × State :=
  match Reg.ofOff off with
  | none => (if q = .i3c then stOutOfBounds else stOK, 0, s)
  | some r =>
    if !s.regUp q r then (stTargetReset, 0, s)
    else if !s.mayRead q r then (stDenied, 0, s)
    else match r, q with
      | .trcRdwin w, _ => let x := s.rdWin w; (stOK, x.1, x.2)
      | r, .vf p => let x := s.partWord p r; (stOK, x.1, x.2)
      | r, _ => (stOK, s.regWord r, if readClears q then s.clearRc r else s)

/-- A register of a window that accepts reads of 16 to 64 bytes (R490). -/
def wideRead (r : Reg) : Bool :=
  match r with
  | .bootReport _ _ | .bootFloorplan _ | .bootFdr _ | .safStore _ | .trcRdwin _ | .cntTrap _ _ | .cntNw _ _ _ => true
  | _ => false

/-- A read of any width (R490): served as reads of 8 bytes in ascending order; the status is the first that is not OK. -/
def State.regRead (s : State) (q : Req) (off len : Nat) : Nat × Bytes × State :=
  let offs := (List.range (len / 8)).map (off + 8 * ·)
  let wide := len % 8 = 0 && decide (16 ≤ len) && decide (len ≤ 64) && decide (off % len = 0)
    && offs.all fun o => match Reg.ofOff o with | some r => wideRead r | none => false
  if !(len = 8 && off % 8 = 0) && !wide then (stDenied, [], s)
  else offs.foldl (fun (a : Nat × Bytes × State) o =>
    let g := a.2.2.regGet q o
    (if a.1 = stOK then g.1 else a.1, a.2.1 ++ leBytes 8 g.2.1, g.2.2)) (stOK, [], s)

/-- The answer of a read. -/
def State.readAnswer (s : State) (q : Req) (off len : Nat) : State :=
  if badCap q then s.badMessage
  else if s.prtWaits q off then { s with prtq := s.prtq ++ [⟨q, off, .read len⟩] }
  else
    let r := s.regRead q off len
    r.2.2.answer r.1 r.2.1

/-- The accesses to the PRT_ block that waited are made in their order (R169, R180). -/
def State.prtRetry (s : State) : State :=
  s.prtq.foldl (fun (s : State) (a : PrtAcc) => match a.acc with
    | .write d => State.sendAnswer (s.regWrite a.req a.off (leVal d))
    | .read n => s.readAnswer a.req a.off n) { s with prtq := [] }

/-! ### The board (R440) -/

/-- The I3C target serves requests: Halo's supply is up, the package is out of reset, and the dynamic address is assigned. -/
def State.i3cServes (s : State) : Bool := s.pins.vddHalo && !s.pins.pkgRst && s.pins.i3c.isSome

/-! ### The rows -/

def execRegisterWrite (req : Req) (off : BitVec 28) (data : Bytes) (s : State) : Out :=
  .next (State.sendAnswer (s.regWriteBytes req off.toNat data))
/-- A commit of way modes completes, and what waited for the slices goes on (R177). -/
def execLlcCommitDone (s : State) : Out := .next s.llcDone.memResume
/-- A region write completes, and then what waited for it (R169, R180). -/
def execRegionWriteComplete (p : Fin 8) (i : Fin 4096) (s : State) : Out := .next (s.rgnFinish p i).prtRetry.memResume
def execRcRead (req : Req) (off : BitVec 28) (len : Nat) (s : State) : Out := .next (s.readAnswer req off.toNat len)
def execPartitionCounterRead (p : Fin 8) (off : BitVec 28) (s : State) : Out := .next (s.readAnswer (.vf p) off.toNat 8)
/-- A read of 9 bytes: the status and 8 data bytes (R440). -/
def execI3cRead (off : BitVec 28) (s : State) : Out := .next (if s.i3cServes then s.readAnswer .i3c off.toNat 8 else s)
/-- A write, with its status byte (R440). -/
def execI3cWrite (off : BitVec 28) (v : BitVec 64) (s : State) : Out :=
  .next (if s.i3cServes then State.sendAnswer (s.regWrite .i3c off.toNat v.toNat) else s)

end Sys2Proof.Machine
end

