-- ==== Sys2Proof/Machine/Boot.lean ====
section
/-! DEFINITION. Bring-up (R402-R413): the nine stages, the boot ROM's checks and the configuration reader (R375-R381, R397, R399), the floor plan (R410). -/

namespace Sys2Proof.Machine

/-! ### Stages (R402-R404) -/

/-- Stage `k` may start: the package is out of reset, nothing has stopped bring-up, and the stage before has ended DONE and is not the one to halt after. -/
def State.stageMay (s : State) (k : Nat) : Bool :=
  s.pins.vddHalo && !s.pins.pkgRst && !s.thermtrip && !s.failed && !s.recovering
  && (if k = 0 then s.fget F.bootStatus_STAGE = 0 && s.fget F.bootStatus_STATE = 0
      else decide (s.fget F.bootStatus_STAGE + 1 = k) && s.fget F.bootStatus_STATE = 1 && decide (s.fget F.bootCtl_STOP_AFTER ≠ k - 1))

/-- Stage `k` starts. -/
def State.stageBegin (s : State) (k : Nat) : State :=
  ((s.fset F.bootStatus_STAGE k).fset F.bootStatus_STATE 0).fset F.bootStatus_CODE 0

/-- What a stage report says (R403); TESTED is free where the spec does not say what the stage examines. -/
structure StageRep where
  result : Nat := 0
  code : Nat := 0
  tested : Option Nat := none
  failed : Nat := 0
  discrep : Nat := 0
  appended : Nat := 0
  unit : Nat := 0
  detail : Nat := 0
  deriving DecidableEq, Repr

/-- Write the report of stage `k` (R403). -/
def State.stageReport (s : State) (k : Nat) (t : StageTime) (r : StageRep) : State :=
  let (w, s) := s.draw
  let tested := r.tested.getD (w.toNat % 2 ^ 32)
  let ws := [k + r.result * 2 ^ 8 + r.code * 2 ^ 16 + s.fget F.bootStatus_WARM * 2 ^ 32, t.t0.toNat, t.t1.toNat,
    tested + r.failed * 2 ^ 32, r.discrep + r.appended * 2 ^ 32, r.unit, r.detail, 0]
  (List.range 8).foldl (fun s i => s.setReg (.bootReport k i) (ws.getD i 0)) s

/-- Stage `k` ends DONE. -/
def State.stageDone (s : State) (k : Nat) (t : StageTime) (r : StageRep) : State :=
  ((s.fset F.bootStatus_STATE 1).fset F.bootStatus_CODE r.code).stageReport k t r

/-- Stage `k` fails (R404): FAILED, ALERT_N, a BOOT_FAILED record that names the die. -/
def State.stageFail (s : State) (k : Nat) (t : StageTime) (code die : Nat) (r : StageRep) : State :=
  let s := ((s.fset F.bootStatus_STATE 2).fset F.bootStatus_CODE code).stageReport k t { r with result := 2, code := code }
  (s.alert 4).error { unit := unitDie die, code := 0xF4, cls := 4, addr := code }

/-- Recovery mode with a reason (R396): the port trains as PF0, and bring-up goes no further. -/
def State.recover (s : State) (k reason code : Nat) (t : StageTime) : State :=
  let s := ((s.fset F.mgtFwstat_FWSTATE 4).fset F.mgtFwstat_REASON reason).fset F.bootStatus_CODE code
  (s.stageReport k t { result := 2, code := code, detail := reason }).cxlMay

/-! ### S0 -/

/-- S0: the self-tests; Halo's own only after a cold reset. Die 8 leaves reset and the security module is in service. -/
def State.s0 (s : State) (e : S0Env) (t : StageTime) : State :=
  let s := s.stageBegin 0
  let cold := s.boot.cold
  if cold && !e.haloOk then (s.stageFail 0 t 0x10 8 {}).safeState
  else if cold && !e.refOk then s.stageFail 0 t 0x11 8 {}
  else if cold && !e.pllOk then s.stageFail 0 t 0x12 8 {}
  else if !e.secOk then
    let (w, s) := (s.stageFail 0 t 0x13 8 {}).draw
    s.secFail w.toNat
  else
    let s := (s.fset F.safStat_STATE 1).fset F.secStat_MSTATE 1
    let s := { s.fset F.secStat_APPROVED 1 with boot := { s.boot with dies := 2 ^ 8 } }
    let s := if cold then (s.setReg .safThr0 (thrDefault thr0Fields)).setReg .safThr1 (thrDefault thr1Fields) else s
    s.stageDone 0 t {}

/-! ### The change log at S1 (R399) -/

def State.logBlank (s : State) (i : Nat) : Bool := (s.logEntry i).all (· = 0xFF)

/-- The chain and the signature of entry `i` hold. -/
def State.logEntryOk (s : State) (i : Nat) : Bool :=
  let e := s.logEntry i
  recField e 0 4 = i && recField e 76 64 = (if i = 0 then 0 else shake ((s.logEntry (i - 1)).take 254))
  && recField e 140 114 = (Config.ed448Sign keyIdent (e.take 140)).toNat

/-- Entries before the first free slot, and the first that does not hold. -/
def State.logScan (s : State) : Nat → Nat → Nat × Option Nat
  | 0, i => (i, none)
  | k + 1, i => if s.logBlank i then (i, none) else if s.logEntryOk i then s.logScan k (i + 1) else (i, some i)

/-- Steps of a kind's counter, and how many are burned. -/
def kindSteps (kind : Nat) : Nat := if kind = 2 then 64 else if kind = 3 then 16 else if kind = 5 then 8 else 0
def State.burned (s : State) (kind : Nat) : Nat :=
  if kind = 2 then s.fuses.rollback else if kind = 3 then s.fuses.haloUsed else if kind = 5 then s.fuses.sealUsed else 0

def logKind (e : Bytes) : Nat := recField e 4 1
def logCommitted (e : Bytes) : Bool := recField e 255 1 = 0

/-- Commit the intents among the first `n` entries whose fuse step is burned. -/
def State.logCommit (s : State) (n : Nat) : State :=
  (List.range n).foldl (fun s i =>
    let e := s.logEntry i
    if !logCommitted e && decide (kindSteps (logKind e) ≤ s.burned (logKind e) + recField e 5 1) && decide (0 < kindSteps (logKind e))
    then s.flashPut (logBase + 256 * i + 255) [0] else s) s

/-- The committed entries among the first `n`, newest first. -/
def State.logEntries (s : State) (n : Nat) : List Bytes := (((List.range n).map s.logEntry).filter logCommitted).reverse

/-- Committed entries of a kind: those since the newest LOG_RESTART, and the steps it carries. -/
def logCount (l : List Bytes) (kind : Nat) : Nat :=
  let since := l.takeWhile fun e => logKind e ≠ 6
  let carried := match l.find? fun e => logKind e = 6 with
    | some e => recField e (if kind = 3 then 32 else if kind = 2 then 40 else 48) 8
    | none => 0
  (since.filter fun e => logKind e = kind).length + carried

/-- LOG_RESTART with the default thresholds, and its LOG_MISMATCH record. -/
def State.logRestart (s : State) (bad : Nat) : State :=
  let s := s.logAppend 6 0xFF (s.thrData (thrDefault thr0Fields) (thrDefault thr1Fields)) true
  s.error { unit := unitMgmt, code := 0xE6, cls := 1, addr := bad }

/-- Erase the log. -/
def State.logErase (s : State) : State :=
  (s.flashErase logBase (logBase + 256 * logSlots)).fset F.mgtLimits_LOG_USED 0

/-- The walk of S1. -/
def State.logWalk (s : State) : State :=
  let w := s.logScan logSlots 0
  match w.2 with
  | some i => s.logErase.logRestart i
  | none =>
    let n := w.1
    let s := (s.logCommit n).fset F.mgtLimits_LOG_USED n
    let l := s.logEntries n
    if [2, 3, 5].all fun k => decide (s.burned k ≤ logCount l k) then s
    else if n < logSlots then s.logRestart n else s.logErase.logRestart n

/-- The threshold set in force (R397). -/
def State.thrForce (s : State) : Nat × Nat :=
  match (s.logEntries s.logUsed).find? fun e => [3, 4, 6].contains (logKind e) with
  | some e => (recField e 16 8, recField e 24 8)
  | none => (thrDefault thr0Fields, thrDefault thr1Fields)

/-! ### The configuration reader (R377-R379, R397) -/

/-- One entry: the state after it, the threshold set asked for, and whether it completed OK. Thresholds are compared once the block has been read; only the block's count. -/
def State.cfgEntry (s : State) (blk : Bool) (p : Nat × Nat) (e : Bytes) : State × (Nat × Nat) × Bool :=
  let off := recField e 0 4
  let v := recField e 8 8
  if 2 ^ 28 ≤ off || off % 8 ≠ 0 then (s, p, false)
  else if off = Reg.safThr0.off || off = Reg.safThr1.off then
    let p' := if off = Reg.safThr0.off then (s.rawOf (.cap 2) .safThr0 v, p.2) else (p.1, s.rawOf (.cap 2) .safThr1 v)
    if thrOk p'.1 p'.2 then (s, if blk then p' else p, true) else (s, p, false)
  else
    let r := s.regWrite (.cap 2) off v
    (r.2, p, decide (r.1 = stOK))

/-- Entries in order, up to the first that does not complete OK. -/
def State.cfgRun (s : State) (blk : Bool) (p : Nat × Nat) : List Bytes → State × (Nat × Nat) × Bool
  | [] => (s, p, true)
  | e :: es =>
    let r := s.cfgEntry blk p e
    if r.2.2 then r.1.cfgRun blk r.2.1 es else r

/-- The lower of each field of two threshold words. -/
def thrMin (fs : List (Nat × Nat × Nat × Nat × Nat)) (a b : Nat) : Nat :=
  fs.foldl (fun n f => setBits n f.1 f.2.1 (min (bitsOf a f.1 f.2.1) (bitsOf b f.1 f.2.1))) 0

/-- The block's thresholds against the set in force (R397). -/
def State.thrLoad (s : State) (f p : Nat × Nat) : State :=
  let (p, s) := if thrRaises f.1 f.2 p.1 p.2 && s.haloLeft = 0 then
      ((thrMin thr0Fields f.1 p.1, thrMin thr1Fields f.2 p.2), s.error { unit := unitMgmt, code := 0xE7, cls := 1, addr := 3 })
    else (p, s)
  let s := s.thrPut f.1 f.2 p.1 p.2
  if thrDiffers f.1 f.2 p.1 p.2 then s.alert 7 else s

/-- A blank OWNER is fused with the digest of the block's key (R379). -/
def State.bindOwner (s : State) (b : Bytes) : State :=
  match s.fuses.owner with
  | some _ => s
  | none =>
    let s := { s with fuses := { s.fuses with owner := some (cfgOwner b) } }
    (s.logAppend 1 0xFF ((leBytes 64 (cfgOwner b)).take 48) true).fset F.mgtLimits_OWNED 1

/-- Bytes of a component of the image in flash (R376). -/
def State.flashComp (s : State) (c : Comp) : Bytes := s.flashGet (imagePlace c.off) c.len

/-- What the fuses of the north I/O die give registers (R419, R496). -/
def State.fuseLoad (s : State) : State :=
  let f := s.fuses
  let s := (s.fset F.hstId0_SERIAL f.serial).fset F.hstId0_STEPPING f.stepping
  let s := (s.fset F.mgtRollback_COUNT f.rollback).fset F.mgtLimits_ROLL_LEFT (64 - f.rollback)
  let s := (s.fset F.mgtLimits_HALO_LEFT s.haloLeft).fset F.mgtLimits_OWNED (if f.owner.isSome then 1 else 0)
  let s := (s.fset F.mgtLimits_SEAL_LEFT (8 - f.sealUsed)).fset F.secSealpol_LEFT (8 - f.sealUsed)
  s.setReg .secSealpol (setBits (s.reg .secSealpol) 2 0 f.sealPol)

/-- What the configuration sets that is not its register alone: the values in force of LLC_GRP (R176), the CKEN that a core reset restores (R417), the digests that attestation reports (R364). -/
def State.cfgForce (s : State) (b h : Bytes) : State :=
  { s.fset F.mgtFwstat_CFG_SEQ (recField b 16 4 % 65536) with
    fw := { s.fw with cfgDig := shake (b.take (recField b 8 4)), hdr := h, haloDig := measHalo h }
    spw := (List.range 96).foldl (fun m g => Sparse.setD (fun _ => 0) m g (s.fget (F.llcGrp_SPW g))) s.spw
    boot := { s.boot with cken := (List.range 384).foldl (fun m n => if s.fbit (F.mxeCkctl_CKEN n) then m + 2 ^ n else m) 0 } }

/-- The identity sector is written from its one-time-programmable copy where it differs (R376). -/
def State.identRestore (s : State) : State :=
  { s with flash := s.fuses.otp.foldl (fun m e => if e.1 < 0x10000 then Sparse.setD flashErased m e.1 e.2 else m) (s.flash.clearRange 0 0x10000) }

/-- S1: the checks of R381 in order. -/
def State.s1 (s : State) (e : S1Env) (t : StageTime) : State :=
  let s := (s.stageBegin 1).fuseLoad
  let bad := fun (s : State) (r : Nat) => s.recover 1 r (0x100 + r) t
  if s.fw.enter then { s with fw := { s.fw with enter := false } }.recover 1 9 0 t
  else if !e.flashOk then bad s 1
  else
    let s := s.identRestore
    let b := s.flashGet 0x10000 0x20000
    if !(cfgLayoutOk b && cfgSigOk b) then bad s 2
    else if !s.ownerOk b then bad s 3
    else
      let s := s.logWalk.bindOwner b
      let h := s.flashGet 0x200000 4096
      if !(hdrLayoutOk h && hdrSigOk h) then bad s 5
      else if hdrSvn h < s.fuses.rollback then bad s 6
      else if !compsMatch h s.flashComp then bad s 7
      else
        let force := s.thrForce
        let defs := match hdrComp h 5 with | some c => chunksOf 16 (c.len / 16) (s.flashComp c) | none => []
        let n := recField b 12 4
        let d := s.cfgRun false force defs
        let r := if d.2.2 then d.1.cfgRun true d.2.1 (chunksOf 16 n ((b.drop 128).take (16 * n))) else d
        if !r.2.2 then bad r.1 4
        else ((r.1.thrLoad force r.2.1).cfgForce b h).stageDone 1 t {}

/-! ### S2: fuses, dies, the field defect record (R405, R409) -/

/-- Read the slots of the field defect record up to the first erased one. -/
def State.fdrRead (s : State) : Nat → Nat → State
  | 0, i => s.fset F.bootStatus_FDR_USED i
  | k + 1, i =>
    let e := s.flashGet (0x30000 + 64 * i) 64
    if e.all (· = 0xFF) then s.fset F.bootStatus_FDR_USED i
    else
      let s := (List.range 8).foldl (fun s w => s.setReg (.bootFdr (8 * i + w)) (recField e (8 * w) 8)) s
      let s := if fdrGood e then s else s.error { unit := unitMgmt, code := 0xF3, cls := 1, addr := i }
      s.fdrRead k (i + 1)

/-- MCHs out of use by fuse or record are retired in the map (R405). -/
def State.mchFuses (s : State) : State :=
  ((List.range 768).foldl (fun s m =>
    if s.fuseOf (unitMch m) ≠ 0 || s.defect (unitMch m) then s.fset (F.memMchStat_STATE m) 3 else s) s).setMap

/-- UCIe training leaves crossing `x` with `n` modules less, one at least (R402). -/
def State.modulesOut (s : State) (x n : Nat) : State :=
  s.fset (F.nocXstat_MODULES x) (max 1 (s.fget (F.nocXstat_MODULES x) - n))

/-- S2. -/
def State.s2 (s : State) (e : S2Env) (t : StageTime) : State :=
  let s := s.stageBegin 2
  match e.dieAbsent, e.pllBad, e.crossDead, e.fuseBad with
  | some d, _, _, _ => s.stageFail 2 t 0x201 d { unit := unitDie d, detail := d }
  | none, some d, _, _ => s.stageFail 2 t 0x204 d { unit := unitDie d, detail := d }
  | none, none, some x, _ => s.stageFail 2 t 0x203 (crossDie x) { unit := unitDie (crossDie x), detail := crossDie x }
  | none, none, none, some d => s.stageFail 2 t 0x202 d { unit := unitDie d, detail := d }
  | none, none, none, none =>
    let s := { s with boot := { s.boot with dies := 2 ^ 10 - 1 } }
    let s := (List.range 25).foldl (fun s i => s.fset (F.pwrVf_VMIN i) (Sparse.getD (fun _ => 0) s.fuses.vf (8 + i))) s
    let s := e.modulesOut.foldl (fun (s : State) (p : Fin 12 × BitVec 6) => s.modulesOut p.1 p.2.toNat) s
    let s := (s.fdrRead 256 0).mchFuses
    let bad := (List.range s.fdrUsed).filter fun i => !fdrGood (s.fdrEntry i)
    s.stageDone 2 t { result := if bad.isEmpty && e.modulesOut.isEmpty then 0 else 1 }

/-! ### S3: rails and clocks -/

/-- S3: the port trains first; then the rails, ACLK, and the start pulse of the die timestamps (R27). -/
def State.s3 (s : State) (e : S3Env) (t : StageTime) : State :=
  let s := (s.stageBegin 3).cxlMay
  let dieOf := fun (r : Nat) => if r < 4 then r else 8
  match e.railSilent, e.railOff, e.aclkBad with
  | some r, _, _ => s.stageFail 3 t 0x301 (dieOf r) { detail := r }
  | none, some r, _ => s.stageFail 3 t 0x302 (dieOf r) { detail := r }
  | none, none, some d => s.stageFail 3 t 0x303 d { unit := unitDie d, detail := d }
  | none, none, none =>
    let v := s.vf 8
    let s := { s.setVcmd (v * 10) with clockOn := true, time := List.replicate 10 0 }
    let s := { s with pow := { s.pow with vnow := v, kick := 0 }, pins := { s.pins with stkEn := true, optEn := true, stkAt := 0, optAt := 0 } }
    let s := (List.range 4).foldl (fun s r => s.emit (.avs r v)) s
    s.stageDone 3 t {}

/-! ### S4: memory training (R201, R202, R406, R413) -/

/-- The digest over the warm record. -/
def warmDigest (trained failed : List Nat) : Nat :=
  shake ((trained.map (leBytes 8)).flatten ++ (failed.map (leBytes 4)).flatten)

/-- Keep the warm record. -/
def State.warmKeep (s : State) : State :=
  let tr := (List.range 768).map fun m => s.reg (.memMchStat m)
  { s with boot := { s.boot with warm := some ⟨tr, s.boot.failed, warmDigest tr s.boot.failed⟩ } }

/-- The warm record can be used: it is there, its digest holds, and no stack is RT_TEMP or more from its training temperature. -/
def State.warmOk (s : State) : Bool :=
  match s.boot.warm with
  | none => false
  | some w =>
    decide (w.digest = warmDigest w.trained w.failed) &&
    (List.range 768).all fun m =>
      let v := w.trained.getD m 0
      let f := F.memMchStat_TRAIN_TEMP m
      let d := (sextN 8 (s.fget (F.memStack_TEMP (m / 64))) - sextN 8 (bitsOf v f.hi f.lo)).natAbs
      decide (s.fget (F.memMchStat_STATE m) = 3) || s.fget F.memCfg_RT_TEMP = 0 || decide (d < s.fget F.memCfg_RT_TEMP)

/-- Train MCH `m` with the pins found bad; three or more retire it. -/
def State.bootTrain (s : State) (m : Nat) (bad : List Nat) : State :=
  match trainPins bad with
  | none => (s.fset (F.memMchStat_STATE m) 3).fdrAppend (unitMch m) 2 0x47 (bitsOf (s.reg (.memMchStat m)) 45 32)
  | some o =>
    let s := s.setTrained m o (s.fget (F.memStack_TEMP (m / 64)))
    if o.1 = 1 then
      let s := s.error { unit := unitMch m, code := 0x46, cls := 0 }
      s.fdrAppend (unitMch m) 3 0x46 (bitsOf (s.reg (.memMchStat m)) 45 32)
    else s

/-- Every burst of stacked memory is written as zeros, and every slice is cleared. -/
def State.zeroMemory (s : State) : State :=
  { s with mem := (s.mem.clearRange 0 (768 * 2 ^ 30)).clearRange 0x10000000000 0x10030000000, poison := [], llc := [], plru := [], snoop := [] }

/-- S4. -/
def State.s4 (s : State) (e : S4Env) (t : StageTime) : State :=
  let s := s.stageBegin 4
  match e.stackSilent with
  | some k => s.stageFail 4 t 0x401 (4 + k / 3) { detail := k }
  | none =>
    let s := e.temps.foldl (fun s (p : Fin 12 × BitVec 8) =>
      (s.fset (F.memStack_TEMP p.1) p.2.toNat).fset (F.memStack_RATE p.1) (refreshRate 0 (sextN 8 p.2.toNat))) s
    let cold := s.boot.cold || s.fbit F.bootCtl_FORCE_COLD || !s.warmOk
    let s := { s.fset F.bootCtl_FORCE_COLD 0 with boot := { s.boot with cold := cold } }
    let s := if cold then (s.fset F.bootStatus_WARM 0).fset F.rstStat_WARM_RESETS 0 else s.fset F.bootStatus_WARM 1
    let used := s.fdrUsed
    let held := s.retiredCount
    let ms := (List.range 768).filter fun m => s.fget (F.memMchStat_STATE m) ≠ 3
    let badOf := fun (m : Nat) => (e.bad.find? fun p => p.1.val = m).map fun p => p.2.map (·.val)
    let words := (s.boot.warm.map (·.trained)).getD []
    let s := ms.foldl (fun s m =>
      match cold, badOf m with
      | true, b => s.bootTrain m (b.getD [])
      | false, some b => s.bootTrain m b
      | false, none => s.setReg (.memMchStat m) (words.getD m 0)) s
    let gone := ms.filter fun m => s.fget (F.memMchStat_STATE m) = 3
    let named := if cold then gone else ms.filter fun m => (badOf m).isSome
    let rep : StageRep := { tested := some ms.length, failed := gone.length, appended := s.fdrUsed - used,
                            unit := (named.head?.map unitMch).getD 0 }
    if 16 < held + gone.length then
      let m := gone.headD 0
      s.stageFail 4 t 0x402 (dieOfUnit (unitMch m)) { rep with detail := m / 64 }
    else
      let s := s.setMap.zeroMemory.warmKeep
      s.stageDone 4 t { rep with result := if named.isEmpty && s.fdrUsed = used then 0 else 1 }

/-! ### S5: firmware (R381, R388) -/

/-- A component of the image goes from flash into slot 0 of the firmware area. -/
def State.copyComp (s : State) (ty : Nat) : State :=
  match hdrComp s.fw.hdr ty with
  | some c => s.setBytes (s.slotBase 0 + c.off) (s.flashComp c)
  | none => s

/-- S5 ends. -/
def State.s5End (s : State) (used : Nat) (t : StageTime) : State :=
  let n := s.fdrUsed - used
  { s with boot := { s.boot with s5 := none } }.stageDone 5 t { result := if n = 0 then 0 else 1, failed := n, appended := n }

/-- S5: MGT is copied and checked, the components start, and the microcode broadcast begins; the stage ends with it. -/
def State.s5 (s : State) (e : S5Env) (t : StageTime) : State :=
  let s := s.stageBegin 5
  let s := { s with fw := { s.fw with slot := 0 } }
  let s := ((s.setBytes (s.slotBase 0) s.fw.hdr).copyComp 3).copyComp 4
  if !e.mgtOk then
    let s := { s.deviceReset false with boot := { (s.deviceReset false).boot with dies := 2 ^ 8 } }
    (s.stageBegin 5).recover 5 8 0x508 t
  else match e.compBad with
    | some c => s.stageFail 5 t 0x501 8 { unit := unitMgmt + coreOfCap c.toNat, detail := c.toNat }
    | none =>
      let cores := (List.range 384).filter fun n => s.fuseOf (unitCore n) = 0 && !s.fdrHas (unitCore n) 1
      let s := { s.fset F.mgtFwstat_FW_VERSION (hdrVersion s.fw.hdr) with
        fw := { s.fw with comps := 0x3F0, ucHdr := s.fw.hdr, ucLoad := cores, ucSend := 2 ^ 65 - 1, ucRound := 0
                          ucDue := false, ucNack := [], ucPark := false }
        boot := { s.boot with s5 := some (t, s.fdrUsed) } }
      if cores.isEmpty then s.s5End s.fdrUsed t else s

/-! ### S6: known-answer runs (R407, R408) -/

/-- The units with a fuse code that S6 may run, by UNIT_ID. -/
def karUnits : List Nat :=
  (List.range 384).map (0x1000 + ·) ++ (List.range 32).map (0x2000 + ·) ++ (List.range 768).map (0x5000 + ·) ++ (List.range 64).map (0x4000 + ·)

/-- A unit fails its run (R408). -/
def State.karFail (s : State) (u : Nat) : State :=
  if s.fuseOf u = 0 && !s.defect u then
    (s.fdrAppend u 1 0xF0 0).error { unit := u, code := 0xF0, cls := if u / 4096 ≤ 2 then 2 else 1 }
  else s

/-- The MCH of a failed slice is retired (R407). -/
def State.karRetire (s : State) (m : Nat) : State :=
  if s.fget (F.memMchStat_STATE m) = 3 then s
  else (s.fset (F.memMchStat_STATE m) 3).fdrAppend (unitMch m) 2 0xF0 (bitsOf (s.reg (.memMchStat m)) 45 32)

/-- A fuse-bad unit whose run passes. -/
def State.discreps (s : State) : List Nat := karUnits.filter fun u => s.fuseOf u = 1 && !s.boot.failed.contains u

/-- The runs of a cold S6. -/
def State.karRun (s : State) (e : S6Env) (t : StageTime) : State :=
  let used := s.fdrUsed
  let run := karUnits.filter fun u => s.fuseOf u ≤ 1
  let all := e.failed.map (·.toNat)
  let bad := run.filter all.contains
  let reds := onesOf 8 e.reducers.toNat
  let s := bad.foldl (fun s u => s.karFail u) s
  let slices := bad.filter (· / 4096 = 5)
  let s := if slices.isEmpty then s else (slices.foldl (fun s u => s.karRetire (u % 4096)) s).setMap
  let s := { s with boot := { s.boot with failed := bad ++ reds.map (0x10000 + ·) } }
  let disc := s.discreps
  let s := disc.foldl (fun s u => s.error { unit := u, code := 0xF1, cls := 0 }) s
  let rep : StageRep := { tested := some (run.length + 9), failed := bad.length + reds.length, discrep := disc.length,
                          appended := s.fdrUsed - used, unit := bad.headD 0 }
  if all.contains 0x7000 then s.stageFail 6 t 0x601 8 { rep with unit := 0x7000, failed := rep.failed + 1 }
  else if e.reducers.toNat % 16 = 15 then s.stageFail 6 t 0x601 8 rep
  else if e.reducers.toNat / 16 = 15 then s.stageFail 6 t 0x601 9 rep
  else s.warmKeep.stageDone 6 t { rep with result := if bad.isEmpty && reds.isEmpty && disc.isEmpty then 0 else 1 }

/-- S6; a warm bring-up skips the runs, and the stored verdicts stand. -/
def State.s6 (s : State) (e : S6Env) (t : StageTime) : State :=
  let s := s.stageBegin 6
  if s.boot.cold then s.karRun e t
  else
    let f := (s.boot.warm.map (·.failed)).getD []
    { s with boot := { s.boot with failed := f } }.warmKeep.stageDone 6 t { tested := some 0 }

/-! ### S7: links -/

/-- S7: the Eclipse rail drives the switches through, Halo lets the lasers emit, and the links that may leave DOWN train. -/
def State.s7 (s : State) (t : StageTime) : State :=
  let s := { s.stageBegin 7 with eclRail := s.pins.vddEcl }
  let s := if s.eclRail then (List.range 30).foldl (fun s p => if s.fbit (F.lnkEcl_FORCE p) then s else s.fset (F.lnkEcl_STATE p) 0) s else s
  let s := s.setReg .safLaser 0
  let s := (List.range 64).foldl (fun s l => if s.linkState l = 0 && s.laserOn l then s.setLinkState l 1 0 else s) s
  s.stageDone 7 t {}

/-! ### S8: the floor plan (R410, R411) -/

/-- Write a bitmap of the floor plan. -/
def State.fpMap (s : State) (off n : Nat) (f : Nat → Bool) : State :=
  (List.range (ceilDiv n 64)).foldl (fun s j =>
    s.setReg (.bootFloorplan (off / 8 + j))
      ((List.range (min 64 (n - 64 * j))).foldl (fun w i => if f (64 * j + i) then w + 2 ^ i else w) 0)) s

/-- A core may be used: it, its barrier unit and its microcode are good. -/
def State.coreUsable (s : State) (n : Nat) : Bool :=
  s.usable (unitCore n) && s.usable (0x2000 + clusterOfCore n) && !(s.core n).fenced

/-- The floor plan with GEN 0. -/
def State.floorPlan (s : State) : State :=
  let s0 := s
  let s := (s.clearRegs (Reg.bootFloorplan 0).off ((Reg.bootFloorplan 63).off + 8)).fpPut 0 2 1
  let s := (s.fpMap 8 384 s0.coreUsable).fpMap 56 384 fun n => s0.discreps.contains (unitCore n)
  let s := s.fpMap 104 32 fun k => s0.usable (0x2000 + k)
  let s := (s.fpMap 112 768 fun m => s0.fget (F.memMchStat_STATE m) ≠ 3).fpMap 208 768 fun m => s0.fget (F.memMchStat_STATE m) = 1
  let s := (s.fpMap 304 768 fun m => s0.usable (unitSlice m)).fpMap 400 64 fun l => s0.usable (unitLink l)
  let s := (List.range 12).foldl (fun s x => s.fpPut (408 + x) 1 (s.fget (F.nocXstat_MODULES x))) s
  let s := s.fpPut 420 1 ((List.range 8).foldl (fun m r => if s0.boot.failed.contains (0x10000 + r) then m else m + 2 ^ r) 0)
  let s := (s.fpPut 6 2 s.mapN).fpCount
  let s := s.fpPut 421 1 (s.fget F.bootStatus_WARM + (if s.fpGet 4 2 < 368 then 2 else 0))
  s.fpStamp false

/-- Every unit is in use. -/
def State.allGood (s : State) : Bool :=
  (List.range 384).all s.coreGood && (List.range 32).all s.clusterGood && (List.range 768).all s.sliceGood
  && (List.range 64).all s.linkGood && s.mapN = 768 && s.fpGet 420 1 = 255

/-- S8: the floor plan is final, and the good cores leave their fence. -/
def State.s8 (s : State) (t : StageTime) : State :=
  let s := (s.stageBegin 8).floorPlan
  let s := (List.range 384).foldl (fun s n => if s.coreGood n then s.fset (F.coreFence_FENCE n) 0 else s) s
  let below := s.fpGet 4 2 < 368
  let s := s.fset F.bootStatus_BELOW (if below then 1 else 0)
  s.stageDone 8 t { result := if s.allGood then 0 else 1, code := if below then 0x801 else 0x800 }

/-! ### The rows -/

def execStageS0 (env : S0Env) (t : StageTime) (s : State) : Out := .next (if s.stageMay 0 then s.s0 env t else s)
def execStageS1 (env : S1Env) (t : StageTime) (s : State) : Out := .next (if s.stageMay 1 then s.s1 env t else s)
def execStageS2 (env : S2Env) (t : StageTime) (s : State) : Out := .next (if s.stageMay 2 then s.s2 env t else s)
def execStageS3 (env : S3Env) (t : StageTime) (s : State) : Out := .next (if s.stageMay 3 then s.s3 env t else s)
def execStageS4 (env : S4Env) (t : StageTime) (s : State) : Out := .next (if s.stageMay 4 then s.s4 env t else s)
def execStageS5 (env : S5Env) (t : StageTime) (s : State) : Out := .next (if s.stageMay 5 then s.s5 env t else s)
def execStageS6 (env : S6Env) (t : StageTime) (s : State) : Out := .next (if s.stageMay 6 then s.s6 env t else s)
def execStageS7 (t : StageTime) (s : State) : Out := .next (if s.stageMay 7 then s.s7 t else s)
def execStageS8 (t : StageTime) (s : State) : Out := .next (if s.stageMay 8 then s.s8 t else s)

end Sys2Proof.Machine
end

