-- ==== Sys2Proof/Machine/Elem.lean ====
section
/-! DEFINITION. The functions of R119 and R151 as exact integers: each value is computed far inside its stated bound, and a free result stands where it lies within that bound (log entry 14). -/

namespace Sys2Proof.Machine

/-- Fraction bits of the fixed-point values below. -/
def fxP : Nat := 768

/-- 1 in fixed point. -/
def fxOne : Int := 2 ^ fxP

def fxMul (a b : Int) : Int := a * b / fxOne
def fxDiv (a b : Int) : Int := a * fxOne / b

/-- A finite value in fixed point. -/
def fxOf (s : Bool) (m : Nat) (e : Int) : Int :=
  let n : Nat := m * 2 ^ (e + fxP).toNat / 2 ^ (-(e + fxP)).toNat
  if s then -(n : Int) else n

/-- A fixed-point value times 2^k, as a value. -/
def fxNum (v k : Int) : Num := .fin (decide (v < 0)) v.natAbs (k - fxP)

/-- The sum of the terms `t`, `t r / d n`, … for counts `n` from `n`, each next term `t q / (a n (b n))`; it ends where the terms vanish. -/
def fxSeries (q : Int) (den : Nat → Nat) : Nat → Nat → Int → Int → Int
  | 0, _, _, acc => acc
  | fuel + 1, n, t, acc =>
    if t = 0 ∨ t = -1 then acc
    else fxSeries q den fuel (n + 1) (fxMul t q / (den n : Int)) (acc + t)

/-- The sum of t, t q / 3, t q² / 5, …: atanh for q = t² and atan for q = -t². -/
def fxOdd (q : Int) : Nat → Nat → Int → Int → Int
  | 0, _, _, acc => acc
  | fuel + 1, n, t, acc =>
    if t = 0 ∨ t = -1 then acc
    else fxOdd q fuel (n + 1) (fxMul t q) (acc + t / ((2 * n + 1 : Nat) : Int))

def fxAtanh (t : Int) : Int := fxOdd (fxMul t t) 800 0 t 0
def fxAtan (t : Int) : Int := fxOdd (-(fxMul t t)) 800 0 t 0

/-- ln 2, and pi by Machin's formula. -/
def fxLn2 : Int := 2 * fxAtanh (fxOne / 3)
def fxPi : Int := 16 * fxAtan (fxOne / 5) - 4 * fxAtan (fxOne / 239)

/-- The square root of a fixed-point value that is not negative. -/
def fxSqrt (v : Int) : Int := (isqrt (v.toNat * 2 ^ fxP) : Nat)

/-- e^y as a fixed-point value in [1, 2) and a power of two. -/
def fxExp (y : Int) : Int × Int :=
  let k := y / fxLn2
  (fxSeries (y - k * fxLn2) (fun n => n + 1) 400 0 fxOne 0, k)

/-- The logistic function 1 / (1 + e^(-y)), with its power of two. -/
def fxSigm (y : Int) : Int × Int :=
  if 2048 * fxOne ≤ y then (fxOne, 0)
  else if y ≤ -2048 * fxOne then (0, 0)
  else
    let (f, k) := fxExp (-(y.natAbs : Int))
    let d := fxOne + f / 2 ^ (-k).toNat
    if 0 ≤ y then (fxDiv fxOne d, 0) else (fxDiv f d, k)

/-- tanh. -/
def fxTanh (y : Int) : Int :=
  if 2048 * fxOne ≤ y then fxOne
  else if y ≤ -2048 * fxOne then -fxOne
  else
    let (f, k) := fxExp (-(2 * y.natAbs : Int))
    let e := f / 2 ^ (-k).toNat
    let t := fxDiv (fxOne - e) (fxOne + e)
    if y < 0 then -t else t

/-- The complementary error function of a value that is not negative; 0 from 16 upwards, where it lies below 2^-370. -/
def fxErfc (z : Int) : Int :=
  if 16 * fxOne ≤ z then 0
  else
    let q := fxMul z z
    let (f, k) := fxExp (-q)
    let sum := fxSeries (2 * q) (fun n => 2 * n + 3) 4000 0 z 0
    fxOne - fxDiv (2 * (fxMul f sum / 2 ^ (-k).toNat)) (fxSqrt fxPi)

/-- erf, as a value with no cancellation at small operands. -/
def fxErf (z : Int) : Int :=
  if 16 * fxOne ≤ z then fxOne
  else if z ≤ -16 * fxOne then -fxOne
  else
    let q := fxMul z z
    let (f, k) := fxExp (-q)
    let sum := fxSeries (2 * q) (fun n => 2 * n + 3) 4000 0 (z.natAbs : Int) 0
    let r := fxDiv (2 * (fxMul f sum / 2 ^ (-k).toNat)) (fxSqrt fxPi)
    if z < 0 then -r else r

/-- The quadrant of x and what is left of it, between -pi/4 and pi/4. -/
def fxReduce (x : Int) : Nat × Int :=
  let h := fxPi / 2
  let n := (2 * x + h) / (2 * h)
  ((n % 4).toNat, x - n * h)

def fxSin0 (r : Int) : Int := fxSeries (-(fxMul r r)) (fun n => (2 * n + 2) * (2 * n + 3)) 400 0 r 0
def fxCos0 (r : Int) : Int := fxSeries (-(fxMul r r)) (fun n => (2 * n + 1) * (2 * n + 2)) 400 0 fxOne 0

/-- sin x, or cos x for a quadrant more. -/
def fxSin (turn : Nat) (x : Int) : Int :=
  let (n, r) := fxReduce x
  match (n + turn) % 4 with
  | 0 => fxSin0 r
  | 1 => fxCos0 r
  | 2 => -(fxSin0 r)
  | _ => -(fxCos0 r)

/-- ln of m 2^e, m ≠ 0. -/
def fxLn (m : Nat) (e : Int) : Int :=
  let f : Int := (m * 2 ^ fxP / 2 ^ Nat.log2 m : Nat)
  numExp m e * fxLn2 + 2 * fxAtanh (fxDiv (f - fxOne) (f + fxOne))

/-- Twice the argument of the tanh in R119's GELU: 2 · 0.7978845608 (x + 0.044715 x³). -/
def fxGeluArg (x : Int) : Int :=
  (x + fxMul (fxMul x x) x * 44715 / 1000000) * 15957691216 / 10000000000

/-- x times a fixed-point value and a power of two. -/
def mulFx (s : Bool) (m : Nat) (e : Int) (v : Int × Int) : Num := Num.mul (.fin s m e) (fxNum v.1 v.2)

/-- GELU and SiLU of R119 on a finite value; beyond 2^11 they are x, or zero of x's sign. -/
def geluVal (s : Bool) (m : Nat) (e : Int) : Num :=
  if 11 ≤ numExp m e ∧ m ≠ 0 then (if s then .fin true 0 0 else .fin false m e)
  else mulFx s m e (fxSigm (fxGeluArg (fxOf s m e)))

def siluVal (s : Bool) (m : Nat) (e : Int) : Num :=
  if 11 ≤ numExp m e ∧ m ≠ 0 then (if s then .fin true 0 0 else .fin false m e)
  else mulFx s m e (fxSigm (fxOf s m e))

/-- The erf form of GELU (R151). -/
def geluErfVal (s : Bool) (m : Nat) (e : Int) : Num :=
  if 11 ≤ numExp m e ∧ m ≠ 0 then (if s then .fin true 0 0 else .fin false m e)
  else
    let z := fxDiv (fxOf s m e) (fxSqrt (2 * fxOne))
    let c := fxErfc (z.natAbs : Int)
    mulFx s m e (if z < 0 then c else 2 * fxOne - c, -1)

/-- The exact function of a transcendental opcode (R151) on a finite operand, but for an error far below its bound; exponents too large to write out stand at 2^2048 or 0. -/
def transVal (op : Nat) (s : Bool) (m : Nat) (e : Int) : Num :=
  let big := decide (11 ≤ numExp m e) && decide (m ≠ 0)
  let x := fxOf s m e
  match op with
  | 0x20 => if big then (if s then .fin false 0 0 else .fin false 1 2048) else let (f, k) := fxExp x; fxNum f k
  | 0x21 =>
    if big then (if s then .fin false 0 0 else .fin false 1 2048)
    else let k := x / fxOne; let (f, j) := fxExp (fxMul (x - k * fxOne) fxLn2); fxNum f (k + j)
  | 0x22 => fxNum (fxLn m e) 0
  | 0x23 => fxNum (fxDiv (fxLn m e) fxLn2) 0
  | 0x25 =>
    let m' := if e % 2 = 0 then m else 2 * m
    let e' := if e % 2 = 0 then e else e - 1
    .fin false (isqrt (4 ^ 400 / m')) (-400 - e' / 2)
  | 0x26 => if big then .fin s 1 0 else fxNum (fxTanh x) 0
  | 0x27 => if big then (if s then .fin false 0 0 else .fin false 1 0) else let (f, k) := fxSigm x; fxNum f k
  | 0x28 => fxNum (fxSin 0 x) 0
  | 0x29 => fxNum (fxSin 1 x) 0
  | 0x2A => if big then .fin s 1 0 else fxNum (fxErf x) 0
  | 0x2B => geluVal s m e
  | 0x2C => geluErfVal s m e
  | _ => siluVal s m e

/-- The bound of a transcendental opcode in units of the last place (R151). -/
def transUlps (op : Nat) : Nat :=
  match op with
  | 0x20 | 0x21 | 0x22 | 0x23 | 0x25 => 1
  | 0x26 | 0x27 | 0x28 | 0x29 | 0x2A => 2
  | 0x2D => 3
  | _ => 4

/-- Whether two finite values lie no further apart than m 2^e, less a 2^-40th part of it. -/
def within (a b : Num) (m : Nat) (e : Int) : Bool :=
  Num.le (Num.abs (Num.sub a b)) (.fin false (m * (2 ^ 40 - 1)) (e - 40))

/-- The result of a function whose value is `w`: the candidate pattern where it lies within `ulps` units of the last place, else the nearest pattern; an infinity stands for 2^128 (R151). -/
def boundedFp32 (ulps : Nat) (w : Num) (cand : Nat) : Nat :=
  let near := fmtFP32.rne w
  let q := match w with | .fin _ m e => fmtFP32.quantum m e | _ => 0
  let v := match fmtFP32.dec cand with | .inf s => Num.fin s 1 128 | v => v
  if Num.le (.fin false 1 128) w.abs then near
  else if v.isFin && within v w ulps q then cand else near

/-- The result of a W48 activation whose value is `w` (R119): the candidate within 2^-32 relative, or 2^-540 where the value lies below 2^-508, else the nearest pattern. -/
def boundedW48 (w : Num) (cand : Nat) : Nat :=
  let v := fmtW48.dec cand
  let ok := match w with
    | .fin _ m e => if magLt m e 1 (-508) then within v w 1 (-540) else within v w m (e - 32)
    | _ => false
  if v.isFin && ok then cand else fmtW48.rne w

end Sys2Proof.Machine
end

