-- ==== Sys2Proof/Machine/Matrix.lean ====
section
/-! DEFINITION. The matrix engine (R76-R104): configuration, loading, swapping, streaming, the checksum column. The rows of the command table start the head of the command queue (log entry 12). -/

namespace Sys2Proof.Machine

/-! ### The configuration block (R81, R118) -/

/-- A scratchpad extent in use: 64 B aligned and ending within the scratchpad (R118). -/
def extentOk (off len : Nat) : Bool := off % 64 = 0 && off + len ≤ 0x200000

/-- The illegal encodings and fields of a configuration block given as a 1,024-bit number (R81, R93, R118). -/
def cfgLegal (w : Nat) : Bool :=
  let bit := fun (o b : Nat) => 8 * o + b
  let fld := fun (o hi lo : Nat) => bitsOf w (bit o hi) (bit o lo)
  let act := fld 32 10 8
  let sm := fld 32 12 11
  let biasEn := fld 32 13 13 = 1
  let outF := fld 32 3 0
  fld 0 63 2 = 0 && fld 0 1 0 ≠ 0 && fld 8 191 0 = 0
  && fld 32 31 21 = 0 && sm ≠ 3 && act ≤ 5 && fld 32 5 4 ≠ 3 && outF < 8
  && fld 40 63 53 = 0 && fld 40 31 21 = 0
  && fld 56 63 40 = 0 && fld 56 31 21 = 0 && fld 64 63 32 = 0 && fld 72 63 21 = 0 && fld 104 191 0 = 0
  && (!biasEn || extentOk (fld 40 52 32) (if fld 32 14 14 = 1 then 128 else 256))
  && (sm ≠ 2 || extentOk (fld 40 20 0) 256)
  && (act ≠ 5 || extentOk (fld 56 20 0) 1024)
  && (fld 32 20 20 ≠ 1 || extentOk (fld 72 20 0) 64)
  && (fld 32 15 15 ≠ 1 || !isMX outF)
  && (act ≠ 2 ||
      (let lo := fmtFP32.dec (fld 48 31 0)
       let hi := fmtFP32.dec (fld 48 63 32)
       !lo.isNan && !hi.isNan && !Num.lt hi lo))
  && (act ≠ 5 || (fmtFP32.dec (fld 64 31 0)).isFin)

/-- The configuration a legal block spells, with the vectors and the table it uses read from core `n`'s scratchpad (R118). -/
def State.readCfg (s : State) (n w : Nat) : OutCfg :=
  let fld := fun (o hi lo : Nat) => bitsOf w (8 * o + hi) (8 * o + lo)
  let vec := fun (off len cnt : Nat) => (List.range cnt).map fun i => s.spmLE n (off + i * len) len
  let bf := fld 32 14 14
  { passes := fld 0 1 0, scale := fld 32 63 32, statEn := fld 32 20 20 = 1, remT := fld 32 19 16, remEn := fld 32 15 15 = 1
    biasFmt := bf, biasEn := fld 32 13 13 = 1, scaleMode := fld 32 12 11, act := fld 32 10 8, nanTrap := fld 32 7 7 = 1
    ftz := fld 32 6 6 = 1, round := fld 32 5 4, outFmt := fld 32 3 0, clampHi := fld 48 63 32, clampLo := fld 48 31 0
    hexp := sextN 8 (fld 56 39 32), x0 := fld 64 31 0, statBase := fld 72 20 0, ctrBase := fld 80 63 0, srKey := fld 88 127 0
    bias := if fld 32 13 13 = 1 then vec (fld 40 52 32) (if bf = 1 then 2 else 4) 64 else []
    scales := if fld 32 12 11 = 2 then vec (fld 40 20 0) 4 64 else []
    table := if fld 32 10 8 = 5 then (List.range 192).map fun i => s.spmLE n (fld 56 20 0 + i / 3 * 16 + i % 3 * 4) 4 else [] }

/-- The head of the command queue, when it is opcode `op` and the engine may start commands. -/
def State.mxHead (s : State) (n op : Nat) : Option QCmd :=
  let c := s.core n
  match c.mq with
  | q :: _ => if mxOp q.slot = op ∧ c.inst.isSome = true ∧ c.fault.isNone = true ∧ s.unitsRun n = true then some q else none
  | [] => none

/-- Take the head off the command queue. -/
def State.mxPop (s : State) (n : Nat) : State := s.modCore n fun c => { c with mq := c.mq.tail }

/-- MCFG: the block at tTA.BASE becomes the configuration of every later command (R80, R81). -/
def State.mcfg (s : State) (n : Nat) : State :=
  match s.mxHead n 1 with
  | none => s
  | some q =>
    let s := s.mxPop n
    let base := (Tile.ofBits (((s.core n).seenBy q).tile (mxTa q.slot)).toNat).base
    if base % 64 ≠ 0 ∨ 0x200000 < base + 128 then s.progError n 3
    else
      let w := s.spmLE n base 128
      if cfgLegal w then
        let cfg := s.readCfg n w
        s.modCore n fun c => { c with mcfg := cfg, cfgSeen := true }
      else s.progError n 1

/-! ### Loading (R83-R85) -/

/-- Products per cell (R77). -/
def prodPerCell (f : Nat) : Nat := if f ≤ 2 then 1 else if f = 7 then 4 else 2

/-- Formats that MLOAD and MSTREAM take, an MX format only with scales (R77). -/
def loadFmtOk (t : Tile) : Bool := t.fmt ≤ 7 && (!isMX t.fmt || t.scaled)

/-- The program error of an MLOAD's tile (R77, R83, R84). -/
def mloadError (t : Tile) : Option Nat :=
  if !loadFmtOk t then some 1
  else if 128 * prodPerCell t.fmt < t.rows ∨ 64 < t.cols ∨ (isMX t.fmt = true ∧ t.rows % 32 ≠ 0) then some 1
  else if isMX t.fmt = true ∧ 0x200000 < t.scaleBase + t.scaleLen true then some 3
  else none

/-- The value of stationary element (p, n) of a buffer, its scale included; +0 beyond the tile (R83, R91). -/
def StatBuf.val (b : StatBuf) (p n : Nat) : Num :=
  let v := (fmtOf b.fmt).dec (Sparse.getD (fun _ => 0) b.elems (p * 64 + n))
  if isMX b.fmt then scaledVal v (Sparse.getD (fun _ => 0x7F) b.scales (p / 32 * 64 + n)) else v

/-- The piece `j` of a value that enters a sum or pass: the value itself outside FP32; of an FP32 value that is not finite, the value in piece 0 and +0 in the others (R92, R94). -/
def pieceOf (fp32 : Bool) (v : Num) (j : Nat) : Num :=
  if fp32 then (if v.isFin then splitPiece v j else if j = 0 then v else .fin false 0 0) else v

/-- The checksum value of K position `p` and piece `j` (R85): the exact sum over the 64 columns, rounded once to A38. -/
def StatBuf.chkVal (b : StatBuf) (p j : Nat) : Nat :=
  fmtA38.rne (Num.sum (.fin true 0 0) ((List.range 64).map fun n => pieceOf (b.fmt = 2) (b.val p n) j))

/-- The stationary buffer that a tile of core `n` fills (R83-R85). -/
def State.loadTile (s : State) (n : Nat) (t : Tile) : StatBuf :=
  let es := (List.range (t.rows * t.cols)).foldl (fun m i =>
    Sparse.setD (fun _ => 0) m (i / t.cols * 64 + i % t.cols) (s.tileElem n t (i / t.cols) (i % t.cols))) ([] : Sparse Nat)
  let sc := if isMX t.fmt then
      (List.range (t.scaleLen true)).foldl (fun m i =>
        Sparse.setD (fun _ => 0x7F) m (i / t.cols * 64 + i % t.cols) (s.spmLE n (t.scaleBase + i) 1)) ([] : Sparse Nat)
    else []
  let b : StatBuf := { st := 1, fmt := t.fmt, kx := t.rows, elems := es, scales := sc, chk := [], nf := [] }
  let ps := if t.fmt = 2 then 3 else 1
  let chk := (List.range (t.rows * ps)).foldl (fun m i =>
    Sparse.setD (fun _ => 0) m (3 * (i / ps) + i % ps) (b.chkVal (i / ps) (i % ps))) ([] : Sparse Nat)
  let nf := (List.range (t.rows * ps)).foldl (fun m i =>
    if (fmtA38.dec (Sparse.getD (fun _ => 0) chk (3 * (i / ps) + i % ps))).isFin then m
    else Sparse.setD (fun _ => false) m (i / ps / prodPerCell t.fmt) true) ([] : Sparse Bool)
  { b with chk := chk, nf := nf }

/-- MLOAD: starts when the loader is free, and loads tTB into the inactive buffer (R80, R82, R83). -/
def State.mload (s : State) (n : Nat) : State :=
  match s.mxHead n 2 with
  | none => s
  | some q =>
    let c := s.core n
    if c.ldBusy then s
    else
      let s := s.mxPop n
      let t := Tile.ofBits ((c.seenBy q).tile (mxTb q.slot)).toNat
      if !c.cfgSeen then s.progError n 1
      else match mloadError t with
        | some e => s.progError n e
        | none =>
          let b := s.loadTile n t
          let s := (List.range t.rows).foldl (fun s i => s.bankLines n 1 (t.rowOff i) t.rowBytes) s
          let s := if isMX t.fmt then s.bankLines n 1 t.scaleBase (t.scaleLen true) else s
          s.modCore n fun c => { c with inact := b, ldBusy := true }

/-- The MLOAD's last row has been loaded: ev63 (R57, R102). -/
def State.mloadDone (s : State) (n : Nat) : State :=
  if (s.core n).ldBusy then s.modCore n fun c => { c.incEv 63 1 with ldBusy := false, inact := { c.inact with st := 2 } } else s

/-- MSWAP: starts when the preceding MLOAD and every earlier A row are done; an EMPTY inactive buffer is ILLEGAL_OP (R80). -/
def State.mswap (s : State) (n : Nat) : State :=
  match s.mxHead n 3 with
  | none => s
  | some _ =>
    let c := s.core n
    if c.ldBusy || c.stBusy then s
    else
      let s := s.mxPop n
      if c.inact.st = 0 then s.progError n 1
      else s.modCore n fun c => { c with act := c.inact, inact := .empty }

/-! ### Streaming (R86-R95, R108-R110) -/

/-- A and stationary formats that form a pair (R77). -/
def pairOk (a b : Nat) : Bool := (a ≤ 2 && a = b) || (3 ≤ a && a ≤ 6 && 3 ≤ b && b ≤ 6) || (a = 7 && b = 7)

/-- The value of element `p` of A row `i`, its scale included (R84, R90, R91). -/
def State.aVal (s : State) (n : Nat) (t : Tile) (i p : Nat) : Num :=
  let v := (fmtOf t.fmt).dec (s.tileElem n t i p)
  if isMX t.fmt then scaledVal v (s.spmLE n (t.scaleBase + i * t.rowScales + p / 32) 1) else v

/-- One product of a pass (R93, R94): for an FP32 pair with an operand that is not finite, pass (0, 0) takes the unsplit product and every other pass +0. -/
def passProduct (fp32 : Bool) (ij : Nat × Nat) (x y : Num) : Num :=
  if fp32 then
    if x.isFin && y.isFin then Num.mul (splitPiece x ij.1) (splitPiece y ij.2)
    else if ij = (0, 0) then Num.mul x y else .fin false 0 0
  else Num.mul x y

/-- The product of an A element with a checksum value in pass (i, j) (R95). -/
def chkProduct (fp32 : Bool) (ij : Nat × Nat) (x c : Num) : Num :=
  if fp32 then
    if x.isFin then Num.mul (splitPiece x ij.1) c else if ij = (0, 0) then Num.mul x c else .fin false 0 0
  else Num.mul x c

/-- The products of K positions `lo` to `hi - 1` of A row values `a` with column `col` (64 is the checksum column); positions beyond Kb are +0 (R86, R90, R95). -/
def StatBuf.products (b : StatBuf) (a : List Num) (ij : Nat × Nat) (col lo hi : Nat) : List Num :=
  (List.range (hi - lo)).map fun i =>
    let p := lo + i
    if b.kx ≤ p then .fin false 0 0
    else
      let x := a.getD p (.fin false 0 0)
      if col = 64 then chkProduct (b.fmt = 2) ij x (fmtA38.dec (Sparse.getD (fun _ => 0) b.chk (3 * p + ij.2)))
      else passProduct (b.fmt = 2) ij x (b.val p col)

/-- The exponent of a non-zero finite A38 value. -/
def a38Exp (n : Nat) : Option Int :=
  match fmtA38.dec n with | .fin _ m e => if m = 0 then none else some (numExp m e) | _ => none

/-- The larger of two optional exponents. -/
def maxExp : Option Int → Option Int → Option Int
  | none, b => b
  | a, none => a
  | some a, some b => some (max a b)

/-- The accumulator cell after one pass of one row in one column, with the largest exponent it met (R108-R110). -/
def accCell (b : StatBuf) (a : List Num) (ij : Nat × Nat) (col : Nat) (fresh : Bool) (old : Nat) : Nat × Option Int :=
  let c := prodPerCell b.fmt
  (List.range 4).foldl (fun (st : Nat × Option Int) k =>
    let (sg, em) := segmentSum (b.products a ij col (32 * c * k) (32 * c * (k + 1)))
    let v := if fresh && k = 0 then sg else a38Add st.1 sg
    (v, maxExp st.2 (maxExp em (maxExp (a38Exp sg) (a38Exp v))))) (old, none)

/-- One A row of one pass into accumulator row `r` (R87, R109, R110). -/
def CoreS.accRow (c : CoreS) (a : List Num) (ij : Nat × Nat) (r : Nat) (fresh : Bool) : CoreS :=
  let (acc, h) := (List.range 65).foldl (fun (st : Sparse Nat × Option Int) col =>
    let (v, h) := accCell c.act a ij col fresh (Sparse.getD (fun _ => 0) c.acc (r * 65 + col))
    (Sparse.setD (fun _ => 0) st.1 (r * 65 + col) v, maxExp st.2 h)) (c.acc, none)
  let h0 := if fresh then none else Sparse.getD (fun _ => none) c.accH r
  let n0 := if fresh then 0 else Sparse.getD (fun _ => 0) c.accN r
  let f0 := if fresh then false else Sparse.getD (fun _ => false) c.accF r
  { c with acc := acc
           accH := Sparse.setD (fun _ => none) c.accH r (maxExp h0 h)
           accN := Sparse.setD (fun _ => 0) c.accN r (n0 + 4)
           accF := Sparse.setD (fun _ => false) c.accF r (f0 || !c.act.nf.isEmpty) }

/-- The program error of an MSTREAM when it starts (R77, R80, R84, R86). -/
def CoreS.mstreamError (c : CoreS) (x : Nat) (t : Tile) : Option Nat :=
  let rs := (c.reg (mxRs x)).toNat
  if !c.cfgSeen ∨ c.act.st ≠ 2 then some 1
  else if !loadFmtOk t || !pairOk t.fmt c.act.fmt then some 1
  else if t.cols < c.act.kx then some 1
  else if t.rows < rs + mxRows x then some 3
  else if 511 < mxRow x + mxRows x - 1 then some 1
  else if isMX t.fmt = true ∧ 0x200000 < t.scaleBase + t.scaleLen false then some 3
  else none

/-- The banks that A row `i` needs: those of the lines with the K positions in use, and for an MX format with its scales (R86, R171). -/
def rowBanks (n : Nat) (t : Tile) (kx i : Nat) : List Nat :=
  let lines := fun (off len : Nat) => (List.range (ceilDiv (off % 64 + len) 64)).map fun j => bankOf n (off + 64 * j)
  (lines (t.rowOff i) (ceilDiv (kx * fmtWidth t.fmt) 8) ++ (if isMX t.fmt then lines (t.scaleBase + i * t.rowScales) (ceilDiv kx 32) else [])).eraseDups

/-- Units of core `n` that may ask for a bank beside the A feeder: the loader, the drain and the vector unit while they are at work, the move slot and the network port. -/
def CoreS.bankUsers (c : CoreS) : List Nat :=
  (if c.ldBusy then [1] else []) ++ (if c.drBusy then [2] else []) ++ (if c.vrun.isEmpty then [] else [3, 4]) ++ [5, 6]

/-- Bubbles before row `r` of the accumulator store issues in cycle `t` at the earliest: R88 keeps 5 cycles between its updates; `last` holds the cycle of each row's latest. -/
def spacing (last : List (Nat × Nat)) (r t : Nat) : Nat :=
  match last.find? (·.1 = r) with
  | some e => e.2 + 5 - t
  | none => 0

/-- The feeder issues the rows of an MSTREAM, given as accumulator row and tile row: the bubbles of R88 and R339 (log entry 154). -/
def State.feed (s : State) (n : Nat) (t : Tile) (rows : List (Nat × Nat)) : Nat × State :=
  let c := s.core n
  let r := rows.foldl (fun (a : Nat × Nat × List (Nat × Nat) × State) x =>
    let gap := spacing a.2.2.1 x.1 a.1
    let q := a.2.2.2.rowIssue n (rowBanks n t c.act.kx x.2) c.bankUsers
    let t' := a.1 + gap + q.1
    (t' + 1, a.2.1 + gap + q.1, (x.1, t') :: a.2.2.1.filter (·.1 ≠ x.1), q.2)) (0, 0, [], s)
  (r.2.1, r.2.2.2)

/-- Bubbles before the first rows of an MSTREAM because of what ran before it (R88): none on rows not yet updated, at most 4 where an earlier MSTREAM has updated one of the first 4, and while a drain is at work as many as its reads take: a free value (log entry 154). -/
def State.firstBubbles (s : State) (n : Nat) (rows : List (Nat × Nat)) : Nat × State :=
  let c := s.core n
  let d := s.draw
  if c.drBusy then (d.1.toNat % 2 ^ 32, d.2)
  else if (rows.take 4).any fun x => Sparse.getD (fun _ => 0) c.accN x.1 ≠ 0 then (d.1.toNat % 5, d.2)
  else (0, s)

/-- MSTREAM: starts when the streamer is free, and streams its rows pass by pass (R80, R86, R93). -/
def State.mstream (s : State) (n : Nat) : State :=
  match s.mxHead n 4 with
  | none => s
  | some q =>
    let c := s.core n
    if c.stBusy then s
    else
      let x := q.slot
      let s := s.mxPop n
      let c := c.seenBy q
      let t := Tile.ofBits (c.tile (mxTa x)).toNat
      match c.mstreamError x t with
      | some e => s.progError n e
      | none =>
        let rs := (c.reg (mxRs x)).toNat
        let passes := if t.fmt = 2 then passPairs c.mcfg.passes else [(0, 0)]
        let row := fun i => (List.range c.act.kx).map fun p => s.aVal n t (rs + i) p
        let c' := passes.zipIdx.foldl (fun (c : CoreS) ij =>
          (List.range (mxRows x)).foldl (fun (c : CoreS) i =>
            c.accRow (row i) ij.1 (mxRow x + i) (mxKind x = 1 && ij.2 = 0)) c) (s.core n)
        let rows := passes.flatMap fun _ => (List.range (mxRows x)).map fun i => (mxRow x + i, rs + i)
        let b := s.firstBubbles n rows
        let f := b.2.feed n t rows
        let s := f.2.fsat (F.mxePerf_BUBBLES n) (b.1 + f.1)
        let s := (s.setCore n { c' with stBusy := true }).fset (F.mxeCtl_PASSES n) c.mcfg.passes
        let s := s.finc (F.cntCrows_N n) (mxRows x * passes.length)
        s.tailCore n 1 0x10 (t.tid + bitsOf x 12 4 * 4096 + t.fmt * 2 ^ 24)

/-- The MSTREAM's last A row has issued: ev62 (R57, R102). -/
def State.mstreamDone (s : State) (n : Nat) : State :=
  if (s.core n).stBusy then s.modCore n fun c => { c.incEv 62 1 with stBusy := false } else s

/-! ### The rows of the command table -/

def execMatrixNop (core : Fin 384) (s : State) : Out := .next (s.issue core { Bundle.empty with mx := some 0 })
def execMcfg (core : Fin 384) (s : State) : Out := .next (s.mcfg core)
def execMload (core : Fin 384) (s : State) : Out := .next (s.mload core)
def execMswap (core : Fin 384) (s : State) : Out := .next (s.mswap core)
def execMstream (core : Fin 384) (s : State) : Out := .next (s.mstream core)
def execMloadDone (core : Fin 384) (s : State) : Out := .next (s.mloadDone core)
def execMstreamDone (core : Fin 384) (s : State) : Out := .next (s.mstreamDone core)

end Sys2Proof.Machine
end

