-- ==== Sys2Proof/Machine/Drain.lean ====
section
/-! DEFINITION. The drain unit and the output path (R64-R66, R96, R97, R112-R124, R135-R137): MDRAIN, MPADD and their completion. -/

namespace Sys2Proof.Machine

/-! ### The output path (R117-R122) -/

/-- The rounding mode of element `c` of the random counter (R118, R123, R131). -/
def OutCfg.mode (o : OutCfg) (ctr : Nat) : RMode :=
  match o.round with
  | 0 => .rne
  | 1 => .rtz
  | _ => .stoch (genWord o.srKey ((o.ctrBase + ctr) % 2 ^ 64) 0)

/-- Round to W48, nearest-even, as a value. -/
def w48r (v : Num) : Num := fmtW48.dec (fmtW48.rne v)

/-- The activation table (R119): each operation rounded to W48. -/
def OutCfg.tableAct (o : OutCfg) (x : Num) : Num :=
  let f := fun (i : Nat) => fmtFP32.dec (o.table.getD i 0)
  let x0 := fmtFP32.dec o.x0
  let u := w48r ((w48r (Num.sub x x0)).scale (-o.hexp))
  let i : Nat := match u with
    | .inf s => if s then 0 else 63
    | u => (min (max u.floor 0) 63).toNat
  let t := w48r (Num.sub x (w48r (Num.add x0 (w48r ((Num.ofInt i).scale o.hexp)))))
  let inner := w48r (Num.add (f (3 * i + 1)) (w48r (Num.mul t (f (3 * i + 2)))))
  w48r (Num.add (f (3 * i)) (w48r (Num.mul t inner)))

/-- The activation of R119; GELU and SiLU of a finite value are free values of the operand within R119's bound (log entry 14). -/
def OutCfg.activate (o : OutCfg) (x : Num) : Num :=
  if x.isNan then .nan
  else match o.act with
    | 1 => if Num.lt (.fin false 0 0) x then x else .fin false 0 0
    | 2 => w48r (numMin (numMax x (fmtFP32.dec o.clampLo)) (fmtFP32.dec o.clampHi))
    | 3 => if x.isInf then (if x.sign then .fin true 0 0 else x)
           else match x with
             | .fin s m e => fmtW48.dec (boundedW48 (geluVal s m e) (Config.gelu48 (BitVec.ofNat 48 (fmtW48.rne x))).toNat)
             | _ => x
    | 4 => if x.isInf then (if x.sign then .fin true 0 0 else x)
           else match x with
             | .fin s m e => fmtW48.dec (boundedW48 (siluVal s m e) (Config.silu48 (BitVec.ofNat 48 (fmtW48.rne x))).toNat)
             | _ => x
    | 5 => o.tableAct x
    | _ => x

/-- The value entering conversion of column `n`, with the first stage whose result was NaN (R117, R136). -/
def OutCfg.stages (o : OutCfg) (n : Nat) (x : Num) : Num × Nat :=
  let sg := if o.scaleMode = 1 then some (fmtFP32.dec o.scale) else if o.scaleMode = 2 then some (fmtFP32.dec (o.scales.getD n 0)) else none
  let x1 := match sg with | some g => w48r (Num.mul x g) | none => x
  let bf := if o.biasFmt = 1 then fmtBF16 else fmtFP32
  let x2 := if o.biasEn then w48r (Num.add x1 (bf.dec (o.bias.getD n 0))) else x1
  let x3 := o.activate x2
  (x3, if x.isNan then 0 else if x1.isNan then 1 else if x2.isNan then 2 else 3)

/-- One element of an output row: its pattern, its category, its remainder (R122). -/
structure OutElem where
  bits : Nat
  cat : Cat
  rem : Nat
  deriving DecidableEq, Repr

/-- The remainder of a stored value (R122): v - o in W48, then BF16, nearest-even; +0 when the output is not finite or saturated. -/
def remainderOf (f : FFmt) (v : Num) (bits : Nat) (cat : Cat) : Nat :=
  let o := f.dec bits
  if !o.isFin || cat = .sat then 0 else (convert fmtBF16 .rne false (w48r (Num.sub v o))).1

/-- The block exponent X of R121. -/
def mxExponent (fmt : Nat) (vs : List Num) : Int :=
  let em : Int := match fmt with | 3 => 8 | 4 => 15 | 5 => 2 | 6 => 4 | _ => 2
  let l := vs.foldl (fun (a : Option Int) v => match v with
    | .fin _ m e => if m = 0 then a else maxExp a (some (numExp m e)) | _ => a) none
  min (max (l.getD 0 - em) (-127)) 127

/-- An output block of an MX format: its scale byte and elements (R121). `ctr` is the random counter of its first column. -/
def OutCfg.mxBlock (o : OutCfg) (ctr : Nat) (vs : List Num) : Nat × List OutElem :=
  if vs.any fun v => !v.isFin then (0xFF, vs.map fun v => ⟨0, if v.isInf then .inf else .nan, 0⟩)
  else if vs.all Num.isZero then (0x7F, vs.map fun v => ⟨(fmtOf o.outFmt).signBit v.sign, .zero, 0⟩)
  else
    let x := mxExponent o.outFmt vs
    ((x + 127).toNat, vs.zipIdx.map fun p =>
      let r := convert (fmtOf o.outFmt) (o.mode (ctr + p.2)) o.ftz (p.1.scale (-x))
      ⟨r.1, r.2, 0⟩)

/-- The output of drain row `i`: scale bytes of its blocks (MX) and its elements. -/
def OutCfg.outRow (o : OutCfg) (i : Nat) (vs : List Num) : List Nat × List OutElem :=
  if isMX o.outFmt then
    let bs := (chunksOf 32 3 vs).zipIdx.map fun p => o.mxBlock (64 * i + 32 * p.2) p.1
    (bs.map (·.1), (bs.map (·.2)).flatten)
  else
    let f := fmtOf o.outFmt
    ([], vs.zipIdx.map fun p =>
      let r := convert f (o.mode (64 * i + p.2)) o.ftz p.1
      ⟨r.1, r.2, remainderOf f p.1 r.1 r.2⟩)

/-! ### What a drain command reads and writes -/

/-- A drain command resolved to its tiles: output, partial or spill, spilled source, remainder. -/
structure DrainCmd where
  pad : Bool
  kind : Nat
  row : Nat
  rows : Nat
  idx : Nat
  tb : Tile
  tc : Tile
  ta : Tile
  tr : Tile
  pc : Nat
  deriving DecidableEq, Repr

/-- The command of a slot word, its tiles and index read when it starts (R46, R66). -/
def State.drainCmd (s : State) (n : Nat) (q : QCmd) : DrainCmd :=
  let c := (s.core n).seenBy q
  let x := q.slot
  let t := fun (i : Nat) => Tile.ofBits (c.tile i).toNat
  let ta := t (mxTa x)
  let pad := mxOp x = 6
  { pad := pad, kind := mxKind x, row := mxRow x, rows := mxRows x
    idx := if pad then s.spmLE n (ta.base + 8) 2 else (c.reg (mxRs x)).toNat
    tb := t (mxTb x), tc := t (mxTc x), ta := ta, tr := t c.mcfg.remT, pc := q.pc }

/-- The command writes an output tile: DIRECT, FINAL or MPADD FINAL (R114). -/
def DrainCmd.outputs (d : DrainCmd) : Bool := d.kind = 3 || (d.kind = 0 && !d.pad)
/-- The command uses a partial or spill buffer. -/
def DrainCmd.partial' (d : DrainCmd) : Bool := d.pad || d.kind ≠ 0
/-- Columns drained: those of the tile the command writes (R112). -/
def DrainCmd.nd (d : DrainCmd) : Nat := if d.partial' then d.tc.cols else d.tb.cols

/-- NEXT_CHUNK and CLOSED of the partial buffer's header (R65). -/
def State.hdrNext (s : State) (n : Nat) (t : Tile) : Nat := s.spmLE n t.base 2
def State.hdrClosed (s : State) (n : Nat) (t : Tile) : Bool := s.spmLE n (t.base + 2) 1 % 2 = 1

/-- The chunk-order check of R66. -/
def State.chunkOk (s : State) (n : Nat) (d : DrainCmd) : Bool :=
  if d.kind = 0 ∧ d.pad = false then true
  else if 65535 ≤ d.idx then false
  else if !d.pad && d.kind = 1 then d.idx = 0
  else if !d.pad && d.kind = 4 then true
  else !s.hdrClosed n d.tc && d.idx = s.hdrNext n d.tc

/-- The byte ranges, as (first, length), of each part that the command writes, and of the whole tTA tile for MPADD (R113). -/
def DrainCmd.parts (d : DrainCmd) (o : OutCfg) : List (List (Nat × Nat)) :=
  let rowsOf := fun (t : Tile) => (List.range d.rows).map fun i => (t.rowOff i, t.rowBytes)
  (if d.partial' then [rowsOf d.tc, [(d.tc.base, 64)]] else [])
  ++ (if d.outputs then [rowsOf d.tb] else [])
  ++ (if d.outputs && isMX o.outFmt then [[(d.tb.scaleBase, d.rows * d.tb.rowScales)]] else [])
  ++ (if d.outputs && o.remEn then [rowsOf d.tr] else [])
  ++ (if d.outputs && o.statEn then [[(o.statBase, 64)]] else [])
  ++ (if d.pad then [(d.ta.base, 64) :: (List.range d.ta.rows).map fun i => (d.ta.rowOff i, d.ta.rowBytes)] else [])

/-- No two parts share a byte. -/
def partsApart : List (List (Nat × Nat)) → Bool
  | [] => true
  | p :: ps => ps.all (fun q => p.all fun a => q.all fun b => !rangesMeet a b) && partsApart ps

/-- The program error of a drain command when it starts (R66, R82, R113, R122). The chunk order comes before the checks of R113; where no MCFG has started either, ILLEGAL_OP of R82 comes before it, the spec giving no order of the two (DESIGN CHOICE, log entry 140). -/
def State.drainError (s : State) (n : Nat) (d : DrainCmd) : Option Nat :=
  let c := s.core n
  let o := c.mcfg
  let tiles := (if d.partial' then [d.tc] else []) ++ (if d.outputs then [d.tb] else []) ++ (if d.pad then [d.ta] else [])
  if !c.cfgSeen then some 1
  else if !s.chunkOk n d then some 7
  else if (d.partial' && d.tc.fmt ≠ 8) || (d.pad && d.ta.fmt ≠ 8) then some 1
  else if d.outputs && d.tb.fmt ≠ o.outFmt then some 1
  else if tiles.any fun t => t.cols ≠ d.nd then some 1
  else if 64 < d.nd || (d.outputs && isMX o.outFmt && ((d.nd ≠ 32 && d.nd ≠ 64) || !d.tb.scaled)) then some 1
  else if !d.pad && 511 < d.row + d.rows - 1 then some 1
  else if tiles.any fun t => t.rows < d.rows then some 3
  else if tiles.any fun t => t.fmt = 8 && t.stride < 8 * d.nd then some 3
  else if d.outputs && isMX o.outFmt && 0x200000 < d.tb.scaleBase + d.rows * d.tb.rowScales then some 3
  else if d.outputs && o.remEn && (d.tr.fmt ≠ 0 || d.tr.cols ≠ d.nd) then some 1
  else if d.outputs && o.remEn && (d.tr.rows < d.rows || !d.tr.addrOk) then some 3
  else if !partsApart (d.parts o) then some 1
  else none

/-! ### The checksum comparison (R96, R124) -/

/-- The exponent L = ⌈log2 NSEG⌉ of R124. -/
def ceilLog2 (n : Nat) : Nat := if n ≤ 1 then 0 else Nat.log2 (n - 1) + 1

/-- The outcome of the comparison of an accumulator row: `none` when it is skipped, else whether it passes. -/
def CoreS.rowCheck (c : CoreS) (r : Nat) : Option Bool :=
  let v := fun (k : Nat) => Sparse.getD (fun _ => 0) c.acc (r * 65 + k)
  let q := fmtA38.dec (v 64)
  if (List.range 64).any (fun k => !(fmtA38.dec (v k)).isFin) || !q.isFin || Sparse.getD (fun _ => false) c.accF r then none
  else
    let sum := (List.range 63).foldl (fun a k => w48Add a (w48OfA38 (v (k + 1)))) (w48OfA38 (v 0))
    let d := w48r (Num.sub (fmtW48.dec sum) q)
    match Sparse.getD (fun _ => none) c.accH r with
    | none => some d.isZero
    | some h => some (Num.le d.abs (.fin false 1 (h + ceilLog2 (Sparse.getD (fun _ => 0) c.accN r) - 18)))

/-! ### Rows -/

/-- Where a drain stands between rows. -/
inductive DrainStop where
  | run
  | checksum
  | trap
  deriving DecidableEq, Repr

/-- Write the trap record of R136 into the core's slot, or count it lost (R137, R464). -/
def State.trapRecord (s : State) (n : Nat) (d : DrainCmd) (row col stage : Nat) (src : Num) : State :=
  if s.fbit (F.cntTrapst_VALID n) then s.fsat (F.cntTrapst_LOSS n) 1
  else
    match (s.core n).inst with
    | none => s
    | some i =>
      let chunk := if d.partial' then s.hdrNext n d.tc else 0
      let b := mkRec 64 [(0, 2, i.stream), (2, 2, d.tb.tid), (4, 4, i.seq), (8, 2, i.vcore), (10, 2, n), (12, 2, d.pc),
        (14, 1, (if d.pad then 6 else 5) * 16 + d.kind), (15, 1, stage), (16, 2, row), (18, 1, col), (20, 2, chunk),
        (24, 8, s.now (dieOfCore n)), (32, 8, fmtW48.rne src)]
      let s := (List.range 8).foldl (fun s w => s.setReg (.cntTrap n w) (recField b (8 * w) 8)) s
      s.fset (F.cntTrapst_VALID n) 1

/-- MXE_CKLAST keeps the first failure (R97, R104). -/
def State.ckLast (s : State) (n r pc : Nat) : State :=
  if s.fbit (F.mxeCklast_VALID n) then s
  else
    let str := match (s.core n).inst with | some i => i.stream | none => 0
    s.setReg (.mxeCklast n) (2 ^ 63 + r * 2 ^ 48 + str * 2 ^ 32 + pc)

/-- NANTRAP in force: only in a partition of exactly one cluster (R134). -/
def State.trapOn (s : State) (n : Nat) : Bool :=
  let c := s.core n
  match c.inst with
  | some i => c.mcfg.nanTrap && popCount 32 (s.fget (F.prtCfg_CLUSTERS i.part)) = 1
  | none => false

/-- The source values of drain row `i` (R114): the accumulator row, added into the partial row where the KIND says so, or the sum of partial and spilled row. -/
def State.drainSource (s : State) (n : Nat) (d : DrainCmd) (i : Nat) : List Nat :=
  let c := s.core n
  (List.range d.nd).map fun k =>
    let part := fun (t : Tile) => s.spmLE n (t.rowOff i + 8 * k) 8 % 2 ^ 48
    if d.pad then w48Add (part d.tc) (part d.ta)
    else
      let w := w48OfA38 (Sparse.getD (fun _ => 0) c.acc ((d.row + i) * 65 + k))
      if d.kind = 2 ∨ d.kind = 3 then w48Add (part d.tc) w else w

/-- Store one output row: elements, scales, remainders (R114, R121, R122). -/
def State.storeRow (s : State) (n : Nat) (d : DrainCmd) (o : OutCfg) (i : Nat) (r : List Nat × List OutElem) : State :=
  let s := s.spmPut n (d.tb.rowOff i) (packRow (fmtWidth d.tb.fmt) (r.2.map (·.bits)))
  let s := if r.1.isEmpty then s else s.spmPut n (d.tb.scaleBase + i * d.tb.rowScales) (r.1.map (BitVec.ofNat 8 ·))
  if o.remEn then s.spmPut n (d.tr.rowOff i) (packRow 16 (r.2.map (·.rem))) else s

/-- The device state, counts and stop of a drain in progress. -/
structure DrainAcc where
  st : State
  cnt : Counts
  stop : DrainStop

/-- Drain row `i` (R96, R97, R112-R117, R135, R137). -/
def drainRow (n : Nat) (d : DrainCmd) (cken trap : Bool) (a : DrainAcc) (i : Nat) : DrainAcc :=
  match a.stop with
  | .run =>
    let s := a.st
    let c := s.core n
    let o := c.mcfg
    let chk := if cken && !d.pad then c.rowCheck (d.row + i) else none
    let s := if cken && !d.pad then
        (match chk with | none => s.fsat (F.mxeCkcnt_SKIPPED n) 1 | some _ => s.fsat (F.mxeCkcnt_COMPARED n) 1) else s
    if chk = some false then
      { a with st := (s.ckLast n (d.row + i) d.pc).modCore n fun c => { c with fault := some 0x20 }, stop := .checksum }
    else
      let src := s.drainSource n d i
      let vs := src.zipIdx.map fun p => o.stages p.2 (fmtW48.dec p.1)
      match (if d.outputs && trap then (vs.zipIdx.find? fun p => p.1.1.isNan) else none) with
      | some p =>
        { a with st := s.trapRecord n d i p.2 p.1.2 (fmtW48.dec (src.getD p.2 0)), stop := .trap }
      | none =>
        let s := if d.partial' then s.spmPut n (d.tc.rowOff i) ((src.map (leBytes 8)).flatten) else s
        if d.outputs then
          let r := o.outRow i (vs.map (·.1))
          { a with st := s.storeRow n d o i r, cnt := r.2.foldl (fun k e => k.add e.cat) a.cnt }
        else { a with st := s }
  | _ => a

/-- The header at completion (R65, R114). -/
def State.drainHeader (s : State) (n : Nat) (d : DrainCmd) : State :=
  let b := d.tc.base
  let put := fun (s : State) (nx cl : Nat) => (s.spmPut n b (leBytes 2 nx)).spmPut n (b + 2) (leBytes 1 cl)
  if !d.partial' then s
  else if !d.pad && d.kind = 1 then s.spmPut n b (mkRec 64 [(0, 2, 1)])
  else if !d.pad && d.kind = 4 then s.spmPut n b (mkRec 64 [(8, 2, d.idx)])
  else put s (s.hdrNext n d.tc + 1) (if d.kind = 3 then 1 else s.spmLE n (b + 2) 1)

/-- A drain command of the queue's head runs whole when the drain unit is free (R80, R112-R124); until its last result is readable a store to the bytes it writes meets it (R115). -/
def State.drain (s : State) (n op : Nat) : State :=
  match s.mxHead n op with
  | none => s
  | some q =>
    let c := s.core n
    if c.drBusy then s
    else
      let s := s.mxPop n
      let d := s.drainCmd n q
      match s.drainError n d with
      | some e => s.progError n e
      | none =>
        let o := c.mcfg
        let s := s.tailCore n 1 0x11 (d.kind + (d.idx % 65536) * 16 + d.tb.tid * 2 ^ 20)
        let a := (List.range d.rows).foldl (drainRow n d (s.fbit (F.mxeCkctl_CKEN n)) (s.trapOn n)) ⟨s, .zero, .run⟩
        match a.stop with
        | .checksum => a.st
        | .trap => a.st.progError n 8
        | .run =>
          let s := a.st.drainHeader n d
          let s := match c.inst with
            | some i => if d.outputs then s.watchAdd i.part d.tb.tid a.cnt i.stream i.seq (dieOfCore n) else s
            | none => s
          let s := if d.outputs && o.statEn then s.statAdd n o.statBase a.cnt else s
          let s := (d.parts o).flatten.foldl (fun (s : State) p => s.bankLines n 2 p.1 p.2) s
          s.modCore n fun c => { c with drBusy := true, drParts := (d.parts o).flatten }

/-- The last result of an MDRAIN or MPADD is readable: ev61 (R57, R102). -/
def State.drainDone (s : State) (n : Nat) : State :=
  if (s.core n).drBusy then s.modCore n fun c => { c.incEv 61 1 with drBusy := false, drParts := [] } else s

def execMdrain (core : Fin 384) (s : State) : Out := .next (s.drain core 5)
def execMpadd (core : Fin 384) (s : State) : Out := .next (s.drain core 6)
def execDrainDone (core : Fin 384) (s : State) : Out := .next (s.drainDone core)

end Sys2Proof.Machine
end

