-- ==== Sys2Proof/Machine/RegRows.lean ====
section
/-! DEFINITION. The commands that are a write of one register (R490, R493): each writes its register through the checks and the effect of every register write, with the bits that its name says. -/

namespace Sys2Proof.Machine

/-- A register word with these fields and zeros elsewhere. -/
def fields (fs : List (Fld × Nat)) : Nat := fs.foldl (fun n f => setBits n f.1.hi f.1.lo f.2) 0

/-- A word with these bits 1. -/
def with1 (fs : List Fld) (v : Nat) : Nat := fs.foldl (fun n f => setBits n f.hi f.lo 1) v

/-- A word with these bits 0. -/
def with0 (fs : List Fld) (v : Nat) : Nat := fs.foldl (fun n f => setBits n f.hi f.lo 0) v

/-- CORE_DBG as a debugger writes it: the breakpoint enables stay as they are. -/
def dbgWord (s : State) (core : Nat) (fs : List (Fld × Nat)) : Nat :=
  fields ((F.coreDbg_BKEN core, s.fget (F.coreDbg_BKEN core)) :: fs)

/-! ### Memory (R166, R176, R207, R212, R213) -/

def execMemRetrainGo (req : Req) (v : BitVec 64) (s : State) : Out := s.put req .memRetrain (with1 [F.memRetrain_GO] v.toNat)
def execMemRetireGo (req : Req) (v : BitVec 64) (s : State) : Out := s.put req .memRetire (with1 [F.memRetire_GO] v.toNat)
def execMemMapCommit (req : Req) (v : BitVec 64) (s : State) : Out := s.put req .memMap (with1 [F.memMap_COMMIT] v.toNat)
def execPrtRgnAWrite (req : Req) (p : Fin 8) (i : Fin 4096) (v : BitVec 64) (s : State) : Out := s.put req (.prtRgnA p i) v.toNat
def execLlcCommit (req : Req) (v : BitVec 64) (s : State) : Out := s.put req .llcCommit (with1 [F.llcCommit_GO] v.toNat)

/-! ### Streams and functions (R223, R236, R239, R242) -/

def execStreamEnable (req : Req) (k : Fin 65536) (v : BitVec 64) (s : State) : Out := s.put req (.strCtl k) (with1 [F.strCtl_EN k] v.toNat)
def execStreamDisable (req : Req) (k : Fin 65536) (v : BitVec 64) (s : State) : Out := s.put req (.strCtl k) (with0 [F.strCtl_EN k, F.strCtl_RESUME k] v.toNat)
def execStreamResume (req : Req) (k : Fin 65536) (v : BitVec 64) (s : State) : Out := s.put req (.strCtl k) (with1 [F.strCtl_EN k, F.strCtl_RESUME k] v.toNat)
def execStreamHalt (req : Req) (k : Fin 65536) (v : BitVec 64) (s : State) : Out := s.put req (.strCtl k) (with1 [F.strCtl_EN k, F.strCtl_HALT k] (with0 [F.strCtl_RESUME k] v.toNat))
def execStrCqWrite (req : Req) (k : Fin 65536) (v : BitVec 64) (s : State) : Out := s.put req (.strCq k) v.toNat
def execStrHeadWrite (req : Req) (k : Fin 65536) (v : BitVec 64) (s : State) : Out := s.put req (.strHead k) v.toNat
def execHeartbeat (req : Req) (f : Fin 9) (v : BitVec 64) (s : State) : Out := s.put req (.hstHb f) v.toNat
def execDetach (req : Req) (f : Fin 9) (s : State) : Out := s.put req (.hstAttach f) (fields [(F.hstAttach_DETACH f, 1)])
def execAttach (req : Req) (f : Fin 9) (s : State) : Out := s.put req (.hstAttach f) (fields [(F.hstAttach_ATTACH f, 1)])

/-! ### Links and routes (R257, R261, R262, R265, R271) -/

def execLnkCfgWrite (req : Req) (l : Fin 64) (v : BitVec 64) (s : State) : Out := s.put req (.lnkCfg l) v.toNat
def execLnkExpectWrite (req : Req) (l : Fin 64) (v : BitVec 64) (s : State) : Out := s.put req (.lnkExpect l) v.toNat
def execLnkMapWrite (req : Req) (l : Fin 64) (v : BitVec 64) (s : State) : Out := s.put req (.lnkMap l) v.toNat
def execRteEntcWrite (req : Req) (d : BitVec 15) (v : BitVec 64) (s : State) : Out := s.put req (.rteEntc d.toNat) v.toNat
def execRteCfgWrite (req : Req) (v : BitVec 64) (s : State) : Out := s.put req .rteCfg v.toNat
def execEclipseForce (req : Req) (pair : Fin 30) (v : BitVec 64) (s : State) : Out := s.put req (.lnkEcl pair) (with1 [F.lnkEcl_FORCE pair] v.toNat)

/-! ### Groups (R306) -/

def execColGcmdRead (req : Req) (g : Fin 4096) (s : State) : Out := s.put req .colGcmd (fields [(F.colGcmd_GO, 1), (F.colGcmd_CMD, 0), (F.colGcmd_GROUP, g)])
def execColGcmdWrite (req : Req) (g : Fin 4096) (s : State) : Out := s.put req .colGcmd (fields [(F.colGcmd_GO, 1), (F.colGcmd_CMD, 1), (F.colGcmd_GROUP, g)])
def execActivate (req : Req) (g : Fin 4096) (s : State) : Out := s.put req .colGcmd (fields [(F.colGcmd_GO, 1), (F.colGcmd_CMD, 2), (F.colGcmd_GROUP, g)])
def execDeactivate (req : Req) (g : Fin 4096) (s : State) : Out := s.put req .colGcmd (fields [(F.colGcmd_GO, 1), (F.colGcmd_CMD, 3), (F.colGcmd_GROUP, g)])
def execReform (req : Req) (g : Fin 4096) (s : State) : Out := s.put req .colGcmd (fields [(F.colGcmd_GO, 1), (F.colGcmd_CMD, 4), (F.colGcmd_GROUP, g)])

/-! ### Error rings, the Umbra service, arbitration (R319, R327, R330, R331, R343) -/

def execErrorRingEnable (req : Req) (r : Fin 9) (v : BitVec 64) (s : State) : Out := s.put req (.mgtErrbase r) v.toNat
def execUmbApply (req : Req) (p : Fin 8) (s : State) : Out := s.put req (.umbCmd p) (fields [(F.umbCmd_GO p, 1), (F.umbCmd_CMD p, 0)])
def execUmbDiscard (req : Req) (p : Fin 8) (s : State) : Out := s.put req (.umbCmd p) (fields [(F.umbCmd_GO p, 1), (F.umbCmd_CMD p, 1)])
def execUmbRebuild (req : Req) (p : Fin 8) (idx : BitVec 4) (s : State) : Out := s.put req (.umbCmd p) (fields [(F.umbCmd_GO p, 1), (F.umbCmd_CMD p, 2), (F.umbCmd_IDX p, idx.toNat)])
def execUmbResume (req : Req) (p : Fin 8) (s : State) : Out := s.put req (.umbCmd p) (fields [(F.umbCmd_GO p, 1), (F.umbCmd_CMD p, 3)])
def execUmbSetWrite (req : Req) (p : Fin 8) (v : BitVec 64) (s : State) : Out := s.put req (.umbSet p) v.toNat
def execArbCommit (req : Req) (d : Fin 10) (s : State) : Out := s.put req (.arbCommit d) (fields [(F.arbCommit_GO d, 1)])

/-! ### Partitions and the security module (R347, R352, R364-R366, R373, R374) -/

def execPrtCreate (req : Req) (p : Fin 8) (s : State) : Out := s.put req .prtCmd (fields [(F.prtCmd_GO, 1), (F.prtCmd_CMD, 0), (F.prtCmd_PART, p)])
def execPrtSeal (req : Req) (p : Fin 8) (s : State) : Out := s.put req .prtCmd (fields [(F.prtCmd_GO, 1), (F.prtCmd_CMD, 1), (F.prtCmd_PART, p)])
def execPrtDestroy (req : Req) (p : Fin 8) (s : State) : Out := s.put req .prtCmd (fields [(F.prtCmd_GO, 1), (F.prtCmd_CMD, 2), (F.prtCmd_PART, p)])
def execPrtZero (req : Req) (p : Fin 8) (s : State) : Out := s.put req .prtCmd (fields [(F.prtCmd_GO, 1), (F.prtCmd_CMD, 3), (F.prtCmd_PART, p)])
def execSecZeroize (req : Req) (s : State) : Out := s.put req .secZeroize (fields [(F.secZeroize_GO, 1)])
def execAttest (req : Req) (f : Fin 9) (p : Fin 8) (s : State) : Out := s.put req (.mbxCmd f) (fields [(F.mbxCmd_GO f, 1), (F.mbxCmd_CMD f, 0), (F.mbxCmd_PART f, p)])
def execGetcert (req : Req) (f : Fin 9) (s : State) : Out := s.put req (.mbxCmd f) (fields [(F.mbxCmd_GO f, 1), (F.mbxCmd_CMD f, 1)])
def execUnseal (req : Req) (f : Fin 9) (p : Fin 8) (s : State) : Out := s.put req (.mbxCmd f) (fields [(F.mbxCmd_GO f, 1), (F.mbxCmd_CMD f, 2), (F.mbxCmd_PART f, p)])

/-! ### Firmware (R382, R391-R396, R401) -/

def execFwStage (req : Req) (s : State) : Out := s.put req .mgtFwcmd (fields [(F.mgtFwcmd_GO, 1)])
def execFwTransit (req : Req) (allow : Bool) (s : State) : Out := s.put req .mgtFwcmd (fields [(F.mgtFwcmd_GO, 1), (F.mgtFwcmd_CMD, 1), (F.mgtFwcmd_ALLOW_SEALED, if allow then 1 else 0)])
def execFwAbort (req : Req) (s : State) : Out := s.put req .mgtFwcmd (fields [(F.mgtFwcmd_GO, 1), (F.mgtFwcmd_CMD, 2)])
def execFlashWrite (req : Req) (s : State) : Out := s.put req .mgtFwcmd (fields [(F.mgtFwcmd_GO, 1), (F.mgtFwcmd_CMD, 3)])
/-- A write of 8 or 64 bytes to the window (R401, R490). -/
def execFwWindowWrite (req : Req) (off : BitVec 16) (data : Bytes) (s : State) : Out :=
  .next (State.sendAnswer (s.regWriteBytes req (0x1C10000 + off.toNat) data))
def execBeginImage (req : Req) (s : State) : Out := s.put req .mgtRcmd (fields [(F.mgtRcmd_GO, 1), (F.mgtRcmd_CMD, 0)])
def execBeginConfig (req : Req) (s : State) : Out := s.put req .mgtRcmd (fields [(F.mgtRcmd_GO, 1), (F.mgtRcmd_CMD, 1)])
def execRecoveryWrite (req : Req) (s : State) : Out := s.put req .mgtRcmd (fields [(F.mgtRcmd_GO, 1), (F.mgtRcmd_CMD, 2)])
def execRecoveryEnd (req : Req) (s : State) : Out := s.put req .mgtRcmd (fields [(F.mgtRcmd_GO, 1), (F.mgtRcmd_CMD, 3)])
def execRecoveryReboot (req : Req) (s : State) : Out := s.put req .mgtRcmd (fields [(F.mgtRcmd_GO, 1), (F.mgtRcmd_CMD, 4)])
def execRecoveryEnter (req : Req) (s : State) : Out := s.put req .mgtRcmd (fields [(F.mgtRcmd_GO, 1), (F.mgtRcmd_CMD, 5)])
def execRollbackIncrement (req : Req) (v : BitVec 64) (s : State) : Out := s.put req .mgtRollback v.toNat
def execSealpolChange (req : Req) (v : BitVec 64) (s : State) : Out := s.put req .secSealpol v.toNat

/-! ### Resets (R414, R420) -/

def execResetCore (req : Req) (target : Fin 384) (s : State) : Out := s.put req .rstCmd (fields [(F.rstCmd_GO, 1), (F.rstCmd_LEVEL, 0), (F.rstCmd_TARGET, target)])
def execResetCluster (req : Req) (target : Fin 32) (s : State) : Out := s.put req .rstCmd (fields [(F.rstCmd_GO, 1), (F.rstCmd_LEVEL, 1), (F.rstCmd_TARGET, target)])
def execResetPartition (req : Req) (target : Fin 8) (s : State) : Out := s.put req .rstCmd (fields [(F.rstCmd_GO, 1), (F.rstCmd_LEVEL, 2), (F.rstCmd_TARGET, target)])
def execResetDevice (req : Req) (s : State) : Out := s.put req .rstCmd (fields [(F.rstCmd_GO, 1), (F.rstCmd_LEVEL, 3)])

/-! ### Power and Halo (R421, R437) -/

def execSetpointWrite (req : Req) (src : Fin 3) (v : BitVec 64) (s : State) : Out := s.put req (.pwrSp src) v.toNat
def execSafReq (req : Req) (s : State) : Out := s.put req .safReq (fields [(F.safReq_GO, 1)])

/-! ### Observation and debug (R448, R450, R454, R458, R463, R466) -/

def execTrcEnable (req : Req) (b : Fin 9) (v : BitVec 64) (s : State) : Out := s.put req (.trcBcfg b) (with1 [F.trcBcfg_EN b] v.toNat)
def execTrcStop (req : Req) (b : Fin 9) (v : BitVec 64) (s : State) : Out := s.put req (.trcBcfg b) (with0 [F.trcBcfg_EN b] v.toNat)
def execTrcRearm (req : Req) (b : Fin 9) (s : State) : Out := s.put req (.trcBctl b) (fields [(F.trcBctl_REARM b, 1)])
def execTrcTrigger (req : Req) (b : Fin 9) (s : State) : Out := s.put req (.trcBctl b) (fields [(F.trcBctl_TRIGGER b, 1)])
def execSamplerEnable (req : Req) (r : Fin 9) (v : BitVec 64) (s : State) : Out := s.put req (.cntScfg r) (with1 [F.cntScfg_EN r] v.toNat)
def execNumericWatchClear (req : Req) (v : BitVec 64) (s : State) : Out := s.put req .cntNwclr (with1 [F.cntNwclr_GO] v.toNat)
def execDebugHalt (req : Req) (core : Fin 384) (s : State) : Out := s.put req (.coreDbg core) (dbgWord s core [(F.coreDbg_HALT core, 1)])
def execDebugResume (req : Req) (core : Fin 384) (s : State) : Out := s.put req (.coreDbg core) (dbgWord s core [])
def execDebugStep (req : Req) (core : Fin 384) (s : State) : Out := s.put req (.coreDbg core) (dbgWord s core [(F.coreDbg_HALT core, 1), (F.coreDbg_STEP core, 1)])
def execCoreDregWrite (req : Req) (core : Fin 384) (i : Fin 145) (v : BitVec 64) (s : State) : Out := s.put req (.coreDreg core i) v.toNat

end Sys2Proof.Machine
end

