-- ==== Sys2Proof/Machine/Sessions.lean ====
section
/-! DEFINITION. Management sessions (R354-R359): their messages, opening, the window of sequence numbers, requests through the operator relay, relaying, closing. -/

namespace Sys2Proof.Machine

/-! ### Messages (R355) -/

def msgKind (m : Bytes) : Nat := recField m 1 1
def msgDst (m : Bytes) : Nat := recField m 2 2
def msgSession (m : Bytes) : Nat := recField m 4 2
def msgSeq (m : Bytes) : Nat := recField m 8 4
def msgLen (m : Bytes) : Nat := recField m 12 4
def msgBody (m : Bytes) : Bytes := (m.drop 32).take (msgLen m)
def msgTag (m : Bytes) : Nat := recField m (32 + msgLen m) 16

/-- The kinds of R355. -/
def kinds : List Nat := [0x01, 0x02, 0x10, 0x11, 0x20]

/-- The header's fixed parts and the length hold. -/
def msgFormed (m : Bytes) : Bool :=
  decide (recField m 0 1 = 1) && kinds.contains (msgKind m) && decide (msgDst m < 32768) && decide (msgLen m ≤ 8192)
  && decide (48 + msgLen m ≤ m.length)

/-- A session header. -/
def sessHeader (kind dst session seq len : Nat) : Bytes :=
  mkRec 32 [(0, 1, 1), (1, 1, kind), (2, 2, dst), (4, 2, session), (8, 4, seq), (12, 4, len)]

/-- Management firmware runs (R383): the kernel was started in S5. -/
def State.mgmtUp (s : State) : Bool := bitAt s.fw.comps 4 && !s.recovering

/-- A discarded message is counted (R359). -/
def State.sessDiscard (s : State) : State := s.fsat F.secMsess_DISCARDED 1

/-- A rejected OPEN: counted, and recorded at most once a second (R356, R359). -/
def State.openReject (s : State) (reason : Nat) : State :=
  s.sessDiscard.error { unit := unitSec, code := 0xC5, cls := 1, addr := reason, every := oneSecond }

/-- An ELP message that carries a session message to device `d` (R354, R387). -/
def State.sessFabric (s : State) (d : Nat) (m : Bytes) : State :=
  s.sendMsg { mgtMsg s.devid d 4 m with hdr := mkRec 16 [(0, 1, 12), (2, 2, msgSession m), (4, 4, msgSeq m)] }

/-- The Ethernet frame that carries `n` bytes in one UDP datagram to or from an address: IPv4 where it is an IPv4-mapped one (R354; log entry 161). -/
def ethFrame (ip : BitVec 128) (n : Nat) : Nat := 14 + (if ip.toNat / 2 ^ 32 = 0xFFFF then 20 else 40) + 8 + n + 4

/-- Port `p` carries a session message of `n` bytes: enabled, up, and in one frame within its MTU (R354). -/
def State.ethCarries (s : State) (p : Nat) (ip : BitVec 128) (n : Nat) : Bool :=
  s.fbit (F.ethCfg_EN p) && s.fbit (F.ethStat_UP p) && decide (ethFrame ip n ≤ s.fget (F.ethCfg_MTU p))

/-- A session message leaves for an endpoint. -/
def State.sessSend (s : State) (ep : Endpoint) (m : Bytes) : State :=
  match ep with
  | .eth p ip _ => if s.ethCarries p ip m.length then s.emit (.session ep m) else s
  | .fabric d => s.sessFabric d.toNat m

/-- The arrived message is taken from the link that received it. -/
def State.takeSession (s : State) (ep : Endpoint) (m : Bytes) : State :=
  match ep with
  | .eth _ _ _ => s
  | .fabric d =>
    match (List.range 64).findSome? (fun l =>
        ((s.link l).rx.find? fun (x : Msg) => x.cls = 3 && x.typ = 4 && x.src = d && decide (x.data.take m.length = m)).map fun x => (l, x)) with
    | some (l, x) => s.takeRx l x
    | none => s

/-! ### Relaying (R354) -/

/-- An endpoint beyond an Ethernet port. -/
def isEth : Endpoint → Bool
  | .eth _ _ _ => true
  | .fabric _ => false

/-- A relay record is added; the oldest of 257 is dropped. -/
def State.relayAdd (s : State) (dst session : Nat) (ep : Endpoint) : State :=
  let l := (s.relays.filter fun e => !(e.1 = dst && e.2.1 = session)) ++ [(dst, session, ep)]
  { s with relays := l.drop (l.length - 256) }

/-- An ACCEPT answers this OPEN: its signature covers it (R356). -/
def answersOpen (o a : Bytes) : Bool :=
  let b := msgBody a
  let cert := b.drop 1722
  Config.ed448Verify (Config.certKey cert) (a.take 32 ++ (o.take 32 ++ msgBody o) ++ b.take 1608 ++ cert) ((b.drop 1608).take 114)

/-- A message for another device: towards DST, or back to the Ethernet endpoint recorded for its session. An OPEN that arrives over Ethernet is kept until the ACCEPT that answers it names the session (log entry 162). -/
def State.relay (s : State) (ep : Endpoint) (m : Bytes) : State :=
  let dst := msgDst m
  let k := msgKind m
  if isEth ep then
    let l := s.opens ++ [(dst, m, ep)]
    let s := if k = 1 then { s with opens := l.drop (l.length - 256) } else s
    s.sessFabric dst m
  else if k = 2 then
    match s.opens.find? fun e => e.1 = dst && answersOpen e.2.1 m with
    | some e => ({ s with opens := s.opens.erase e }.relayAdd dst (msgSession m) e.2.2).sessSend e.2.2 m
    | none => s.sessFabric dst m
  else if k = 0x11 ∨ k = 0x20 then
    match s.relays.find? fun e => e.1 = dst && e.2.1 = msgSession m with
    | some e => s.sessSend e.2.2 m
    | none => s.sessFabric dst m
  else s.sessFabric dst m

/-! ### Keys and the window (R356, R357) -/

/-- Parts of KS, given as the number its 72 bytes spell: the keys from and to the endpoint, and the IV of a message with the salt of its direction (R356, R357). -/
def sessKeyIn (ks : Nat) : Nat := ks % 2 ^ 256
def sessKeyOut (ks : Nat) : Nat := ks / 2 ^ 256 % 2 ^ 256
def sessIv (ks dir seq : Nat) : Bytes := leBytes 4 (ks / 2 ^ (512 + 32 * dir)) ++ zeroBytes 4 ++ leBytes 4 seq

/-- KS: the first 72 bytes of SHAKE256 of the shared secret and H (R356). -/
def sessKs (ss h : Bytes) : Nat := leVal (leBytes 64 (shake (ss ++ h)) ++ leBytes 8 (Config.shakeTail (ss ++ h)).toNat)

/-- The plaintext of a protected message, where its tag is good. -/
def sessOpen (x : Sess) (m : Bytes) : Option Bytes :=
  let k := sessKeyIn x.ks
  let iv := sessIv x.ks 0 (msgSeq m)
  let clear := Config.gcmOpen k iv (m.take 32) (msgBody m)
  if (Config.gcmTag k iv (m.take 32) clear).toNat = msgTag m then some clear else none

/-- A sequence number a receiver accepts: above the highest, or within the 64 below it and not accepted yet. -/
def seqFresh (x : Sess) (n : Nat) : Bool :=
  decide (0 < n) && decide (n < 2 ^ 31) && (decide (x.top < n) || (decide (x.top ≤ n + 64) && decide (n ≠ x.top) && !x.seen.contains n))

/-- The session after accepting sequence number `n` at time `t`. -/
def seqTake (x : Sess) (n t : Nat) : Sess :=
  let top := max x.top n
  { x with top := top, seen := (n :: x.seen).filter (fun k => decide (top ≤ k + 64)), last := t }

/-- Replace a session by its number. -/
def State.setSess (s : State) (x : Sess) : State :=
  { s with sessions := s.sessions.map fun (y : Sess) => if y.num = x.num then x else y }

/-- A session closes: its keys go. -/
def State.sessClose (s : State) (n : Nat) : State := { s with sessions := s.sessions.filter (·.num ≠ n) }

/-! ### Opening (R356) -/

/-- The operator authority digest (R353). -/
def State.opAuth (s : State) : Nat := leVal ((List.range 8).map fun i => leBytes 8 (s.reg (.secOpauth i))).flatten

/-- The lowest unused session number. -/
def State.freeSession (s : State) : Nat :=
  (((List.range 17).map (· + 1)).find? fun n => !s.sessions.any (·.num = n)).getD 17

/-- An OPEN for this device. -/
def State.sessOpenMsg (s : State) (ep : Endpoint) (m : Bytes) : State :=
  let body := msgBody m
  let opk := body.take 57
  if msgLen m ≠ 1778 ∨ msgSession m ≠ 0 ∨ msgSeq m ≠ 0 then s.openReject 4
  else if shake opk ≠ s.opAuth then s.openReject 1
  else if !Config.ed448Verify opk (m.take 32 ++ body.take 1664) ((body.drop 1664).take 114) then s.openReject 2
  else if 16 ≤ s.sessions.length then s.openReject 3
  else
    let n := s.freeSession
    let (w, s) := s.draw
    let (ct, ss) := Config.kemEncaps ((body.drop 96).take 1568) w.toNat
    let (dn, s) := s.randBytes 4
    let cert := s.flashGet Config.mgmtCert.1 Config.mgmtCert.2
    let h := sessHeader 2 s.devid n 0 (1722 + cert.length)
    let b := ct ++ dn ++ leBytes 6 (s.fget F.hstId0_SERIAL) ++ leBytes 2 cert.length
    let openMsg := m.take 32 ++ body
    let sig := leBytes 114 (Config.ed448Sign keyMgmt (h ++ openMsg ++ b ++ cert)).toNat
    let accept := h ++ b ++ sig ++ cert
    let ks := sessKs ss (leBytes 64 (shake (openMsg ++ accept)))
    let x : Sess := ⟨n, ks, 0, [], 1, [], [], s.now 8, s.now 8, ep⟩
    ({ s with sessions := s.sessions ++ [x] }).sessSend ep (accept ++ zeroBytes 16)

/-! ### Requests (R358) -/

/-- The statuses and values of a request's accesses, run in order through the operator relay. -/
def State.sessRun (s : State) (body : Bytes) : List Nat × List Nat × State :=
  let op := recField body 0 1
  let n := recField body 1 1
  let st := fun (r : Nat) => if r = stPending then stOK else r
  let relay : Req := .cap 12
  let refuse := ([stDenied], ([] : List Nat), s)
  match op with
  | 1 =>
    if n = 0 ∨ body.length < 8 + 8 * n then refuse
    else (List.range n).foldl (fun (a : List Nat × List Nat × State) i =>
      let r := a.2.2.regRead relay (recField body (8 + 8 * i) 8 % 2 ^ 28) 8
      (a.1 ++ [r.1], a.2.1 ++ [leVal r.2.1], r.2.2)) ([], [], s)
  | 2 =>
    if n = 0 ∨ body.length < 8 + 16 * n then refuse
    else (List.range n).foldl (fun (a : List Nat × List Nat × State) i =>
      let r := a.2.2.regWrite relay (recField body (8 + 16 * i) 8 % 2 ^ 28) (recField body (16 + 16 * i) 8)
      (a.1 ++ [st r.1], a.2.1, r.2)) ([], [], s)
  | 3 =>
    let off := recField body 8 4
    let data := body.drop 16
    if off % 64 ≠ 0 ∨ data.length = 0 ∨ 8128 < data.length ∨ data.length % 64 ≠ 0 ∨ 65536 < off + data.length then refuse
    else
      let r := (chunksOf 64 128 data).foldl (fun (a : Nat × Nat × State) c =>
        let w := a.2.2.regWriteBytes relay (0x1C10000 + a.2.1) c
        (if a.1 = stOK then w.1 else a.1, a.2.1 + 64, w.2)) (stOK, off, s)
      ([r.1], [], r.2.2)
  | 4 => ([stOK], [], s)
  | _ => refuse

/-- The body of a RESPONSE. -/
def responseBody (op n seq : Nat) (sts vals : List Nat) : Bytes :=
  let b := sts.map (BitVec.ofNat 8)
  mkRec 8 [(0, 1, op), (1, 1, n), (4, 4, seq)] ++ b ++ zeroBytes ((8 - b.length % 8) % 8) ++ (vals.map (leBytes 8)).flatten

/-- Protect and send a message of session `x`; its sequence number is the next one, and the session closes before it would reach 2^31. -/
def State.sessReply (s : State) (x : Sess) (req : Nat) (body : Bytes) : State :=
  let h := sessHeader 0x11 s.devid x.num x.tx body.length
  let k := sessKeyOut x.ks
  let iv := sessIv x.ks 1 x.tx
  let m := h ++ gcmCipher k iv h body ++ leBytes 16 (Config.gcmTag k iv h body).toNat
  let x' := { x with tx := x.tx + 1, kept := ((req, m) :: x.kept).take 16 }
  let s := (s.setSess x').sessSend x.ep m
  if 2 ^ 31 ≤ x'.tx ∨ 2 ^ 31 ≤ x'.top + 1 then s.sessClose x.num else s

/-- A protected message for this device (R357): its session, a good tag and a fresh number; then `f` with its plaintext. A repeated REQUEST is answered again with its kept RESPONSE. -/
def State.sessProtected (s : State) (m : Bytes) (f : State → Sess → Bytes → State) : State :=
  match s.sessions.find? (·.num = msgSession m) with
  | none => s.sessDiscard
  | some x =>
    match sessOpen x m with
    | none => s.sessDiscard
    | some body =>
      let n := msgSeq m
      if seqFresh x n then
        let x' := seqTake x n (s.now 8)
        f (s.setSess x') x' body
      else match x.kept.find? (·.1 = n) with
        | some k => if msgKind m = 0x10 then s.sessSend x.ep k.2 else s.sessDiscard
        | none => if x.seen.contains n then s else s.sessDiscard

/-- Every message before `n` that the window still takes has been accepted: the RESPONSE to `n` is next in MSEQ order. -/
def seqTurn (x : Sess) (n : Nat) : Bool := (List.range 65).all fun i => decide (n ≤ i + 1) || decide (n < x.top - 64 + (i + 1)) || x.seen.contains (n - (i + 1))

/-- The answer whose turn it is. -/
def Sess.turn (x : Sess) : Option (Nat × Bytes) := x.pend.find? fun e => seqTurn x e.1 && x.pend.all fun f => decide (e.1 ≤ f.1)

/-- RESPONSEs leave in MSEQ order (R358): those whose turn has come. -/
def State.sessFlush (s : State) (num : Nat) : Nat → State
  | 0 => s
  | k + 1 =>
    match s.sessions.find? (·.num = num) with
    | none => s
    | some x =>
      match x.turn with
      | none => s
      | some e =>
        let x' := { x with pend := x.pend.erase e }
        State.sessFlush ((s.setSess x').sessReply x' e.1 e.2) num k

/-- A REQUEST numbered `n`: its accesses run, and its RESPONSE leaves when its turn comes, where the session still stands (log entry 163). -/
def State.sessRequest (s : State) (n : Nat) (x : Sess) (body : Bytes) : State :=
  let r := s.sessRun body
  match r.2.2.sessions.find? (·.num = x.num) with
  | none => r.2.2
  | some y =>
    let y' := { y with pend := y.pend ++ [(n, responseBody (recField body 0 1) (recField body 1 1) n r.1 r.2.1)] }
    (r.2.2.setSess y').sessFlush x.num y'.pend.length

/-- A session message arrives (R354-R358). An OPEN of this device with a bad LEN or DST is rejected as one (R356). -/
def State.sessArrive (s : State) (ep : Endpoint) (m : Bytes) : State :=
  let s := s.takeSession ep m
  let heard := match ep with | .eth p ip _ => s.ethCarries p ip m.length | .fabric _ => true
  if !s.mgmtUp || !heard then s
  else if !msgFormed m then
    if recField m 0 1 = 1 ∧ msgKind m = 1 ∧ msgDst m % 32768 = s.devid ∧ s.fget F.secStat_MSTATE = 1 then s.openReject 4 else s.sessDiscard
  else if msgDst m ≠ s.devid then s.relay ep m
  else if s.fget F.secStat_MSTATE ≠ 1 then s.sessDiscard
  else match msgKind m with
    | 0x01 => s.sessOpenMsg ep m
    | 0x10 => s.sessProtected m fun s x body => s.sessRequest (msgSeq m) x body
    | 0x20 => s.sessProtected m fun s x _ => s.sessClose x.num
    | _ => s.sessDiscard

/-- 60 s have passed without a valid message of the session. -/
def State.sessIdle (s : State) (n : Nat) : State :=
  match s.sessions.find? (·.num = n) with
  | some x => if x.last + 60 * oneSecond ≤ s.now 8 then s.sessClose n else s
  | none => s

/-- 24 hours have passed since ACCEPT. -/
def State.sessExpire (s : State) (n : Nat) : State :=
  match s.sessions.find? (·.num = n) with
  | some x => if x.opened + 86400 * oneSecond ≤ s.now 8 then s.sessClose n else s
  | none => s

/-! ### The rows -/

def execOpenSession (ep : Endpoint) (msg : Bytes) (s : State) : Out := .next (s.sessArrive ep msg)
def execAcceptMsg (ep : Endpoint) (msg : Bytes) (s : State) : Out := .next (s.sessArrive ep msg)
def execResponseMsg (ep : Endpoint) (msg : Bytes) (s : State) : Out := .next (s.sessArrive ep msg)
def execSessionRead (ep : Endpoint) (msg : Bytes) (s : State) : Out := .next (s.sessArrive ep msg)
def execSessionWrite (ep : Endpoint) (msg : Bytes) (s : State) : Out := .next (s.sessArrive ep msg)
def execSessionWindow (ep : Endpoint) (msg : Bytes) (s : State) : Out := .next (s.sessArrive ep msg)
def execSessionNop (ep : Endpoint) (msg : Bytes) (s : State) : Out := .next (s.sessArrive ep msg)
def execCloseSession (ep : Endpoint) (msg : Bytes) (s : State) : Out := .next (s.sessArrive ep msg)
def execSessionIdleTimeout (sess : BitVec 16) (s : State) : Out := .next (s.sessIdle sess.toNat)
def execSessionLifetimeExpiry (sess : BitVec 16) (s : State) : Out := .next (s.sessExpire sess.toNat)

end Sys2Proof.Machine
end

