-- ==== Sys2Proof/Machine/Slots.lean ====
section
/-! DEFINITION. The rows of the bundle and of its scalar, move and sync slots (R39-R60, R67): each issues a bundle that holds that one operation (log entry 7). -/

namespace Sys2Proof.Machine

/-! ### Tile boundaries -/

/-- The program error of a checkpoint slot (R67): outside every STACK or LLC region with WR, or leaving its region. -/
def State.slotError (s : State) (p a : Nat) : Option Nat :=
  match s.regionAt p a with
  | some r => if (r.ty = 0 ∨ r.ty = 1) ∧ r.wr = true then (if a + 2047 ≤ r.limit then none else some 5) else some 4
  | none => some 4

/-- Complete a TB whose wait is over (R67): check the slot, write the checkpoint once nothing holds its lines (R188, R210), count the boundary, park when Park is being entered (R427). -/
def State.tbComplete (s : State) (n : Nat) : State :=
  let c := s.core n
  match c.tb, c.inst with
  | some (imm, pc), some i =>
    if !c.fenceDone 7 || c.fault.isSome || !s.unitsRun n then s
    else
      let a := (c.reg 4).toNat + 4096 * (i.nTB % 2)
      match s.slotError i.part a with
      | some code => s.progError n code
      | none =>
        match s.blocked a 2048 true with
        | some s => s
        | none =>
        let w := s.store a (c.checkpoint imm pc i.nTB)
        if w.1 ≠ stOK then w.2.requestRefused n w.1
        else
          let s := w.2.tailCore n 0 0x03 (imm + i.nTB * 2 ^ 32)
          let i' := { i with nTB := i.nTB + 1, faultsTB := 0, replaying := false, valid := some a }
          let park := s.fget F.pwrStat_PARK = 1 && !i.noReplay
          s.modCore n fun c => { c with tb := none, waiting := false, inst := some i', parked := park, barCnt := 0, barRep := 0, barFin := 0, remCnt := 0, remRep := 0 }
  | _, _ => s

/-! ### The next bundle -/

/-- The bundle at the PC issues (R39, R42, R466); a TB that waits is tried again (R67). -/
def State.bundleIssue (s : State) (n : Nat) : State :=
  let c := s.core n
  if c.tb.isSome then s.tbComplete n
  else
    let s := s.issue n (Bundle.ofWord (c.bundle c.pc).toNat)
    if (s.core n).tb.isSome then s.tbComplete n else s

/-- The instance ends with OK once what END waits for has drained (R43). -/
def State.instanceEnd (s : State) (n : Nat) : State :=
  let c := s.core n
  if c.ending && c.fenceDone 7 && c.fault.isNone && s.unitsRun n then s.endInstance n stOK 0 else s

/-! ### Signals between cores -/

/-- The oldest EVREM for core `n` arrives (R59): its counter rises, unless the core is under reset, which absorbs it (R416). -/
def State.evremArrival (s : State) (n : Nat) : State :=
  match s.evrem.find? fun e => s.vmap e.part e.vcore = some n with
  | none => s
  | some e =>
    let s := { s with evrem := s.evrem.erase e }
    if s.resetting.contains n then s else s.modCore n (·.incEv e.ec e.imm)

/-- Virtual cores of the virtual cluster of `v` in partition `p` (R60). -/
def State.vclusterMembers (s : State) (p v : Nat) : List Nat :=
  (List.range 12).filterMap fun i => let w := v / 12 * 12 + i; if w < s.vcount p then some w else none

/-- The arrival that core `n` sent reaches its barrier unit; the last one completes the generation for every member (R60). -/
def State.barArrival (s : State) (n : Nat) : State :=
  let c := s.core n
  match c.inst with
  | none => s
  | some i =>
    if c.bar ≠ 1 || s.resetting.contains n then s
    else
      let key := i.part * 32 + i.vcore / 12
      let m := setBit (Sparse.getD (fun _ => 0) s.bars key) (i.vcore % 12) true
      let mem := s.vclusterMembers i.part i.vcore
      if mem.all fun v => bitAt m (v % 12) then
        let s := { s with bars := s.bars.erase key }
        mem.foldl (fun s v => match s.vmap i.part v with
          | some k => (s.tailCore k 0 0x04 1).modCore k fun c => { c with bar := if c.bar = 1 then 2 else c.bar, barFin := c.barFin + 1 }
          | none => s) s
      else { s with bars := Sparse.setD (fun _ => 0) s.bars key m }

/-! ### The rows of the command table -/

def execBundleIssue (core : Fin 384) (s : State) : Out := .next (s.bundleIssue core)
def execScalarNop (core : Fin 384) (s : State) : Out := .next (s.issueSc core 0)
def execAdd (core : Fin 384) (rd rs1 rs2 : Fin 64) (s : State) : Out := .next (s.issueSc core (scWord 0x1 rd rs1 rs2 0))
def execSub (core : Fin 384) (rd rs1 rs2 : Fin 64) (s : State) : Out := .next (s.issueSc core (scWord 0x2 rd rs1 rs2 0))
def execAnd (core : Fin 384) (rd rs1 rs2 : Fin 64) (s : State) : Out := .next (s.issueSc core (scWord 0x3 rd rs1 rs2 0))
def execOr (core : Fin 384) (rd rs1 rs2 : Fin 64) (s : State) : Out := .next (s.issueSc core (scWord 0x4 rd rs1 rs2 0))
def execXor (core : Fin 384) (rd rs1 rs2 : Fin 64) (s : State) : Out := .next (s.issueSc core (scWord 0x5 rd rs1 rs2 0))
def execShl (core : Fin 384) (rd rs1 rs2 : Fin 64) (s : State) : Out := .next (s.issueSc core (scWord 0x6 rd rs1 rs2 0))
def execShr (core : Fin 384) (rd rs1 rs2 : Fin 64) (s : State) : Out := .next (s.issueSc core (scWord 0x7 rd rs1 rs2 0))
def execSra (core : Fin 384) (rd rs1 rs2 : Fin 64) (s : State) : Out := .next (s.issueSc core (scWord 0x8 rd rs1 rs2 0))
def execMul (core : Fin 384) (rd rs1 rs2 : Fin 64) (s : State) : Out := .next (s.issueSc core (scWord 0x9 rd rs1 rs2 0))
def execMin (core : Fin 384) (rd rs1 rs2 : Fin 64) (s : State) : Out := .next (s.issueSc core (scWord 0xa rd rs1 rs2 0))
def execMax (core : Fin 384) (rd rs1 rs2 : Fin 64) (s : State) : Out := .next (s.issueSc core (scWord 0xb rd rs1 rs2 0))
def execSlt (core : Fin 384) (rd rs1 rs2 : Fin 64) (s : State) : Out := .next (s.issueSc core (scWord 0xc rd rs1 rs2 0))
def execSltu (core : Fin 384) (rd rs1 rs2 : Fin 64) (s : State) : Out := .next (s.issueSc core (scWord 0xd rd rs1 rs2 0))
def execAddImm (core : Fin 384) (rd rs1 : Fin 64) (imm : BitVec 28) (s : State) : Out := .next (s.issueSc core (scWord 0x11 rd rs1 0 imm.toNat))
def execSubImm (core : Fin 384) (rd rs1 : Fin 64) (imm : BitVec 28) (s : State) : Out := .next (s.issueSc core (scWord 0x12 rd rs1 0 imm.toNat))
def execAndImm (core : Fin 384) (rd rs1 : Fin 64) (imm : BitVec 28) (s : State) : Out := .next (s.issueSc core (scWord 0x13 rd rs1 0 imm.toNat))
def execOrImm (core : Fin 384) (rd rs1 : Fin 64) (imm : BitVec 28) (s : State) : Out := .next (s.issueSc core (scWord 0x14 rd rs1 0 imm.toNat))
def execXorImm (core : Fin 384) (rd rs1 : Fin 64) (imm : BitVec 28) (s : State) : Out := .next (s.issueSc core (scWord 0x15 rd rs1 0 imm.toNat))
def execShlImm (core : Fin 384) (rd rs1 : Fin 64) (imm : BitVec 28) (s : State) : Out := .next (s.issueSc core (scWord 0x16 rd rs1 0 imm.toNat))
def execShrImm (core : Fin 384) (rd rs1 : Fin 64) (imm : BitVec 28) (s : State) : Out := .next (s.issueSc core (scWord 0x17 rd rs1 0 imm.toNat))
def execSraImm (core : Fin 384) (rd rs1 : Fin 64) (imm : BitVec 28) (s : State) : Out := .next (s.issueSc core (scWord 0x18 rd rs1 0 imm.toNat))
def execMulImm (core : Fin 384) (rd rs1 : Fin 64) (imm : BitVec 28) (s : State) : Out := .next (s.issueSc core (scWord 0x19 rd rs1 0 imm.toNat))
def execMinImm (core : Fin 384) (rd rs1 : Fin 64) (imm : BitVec 28) (s : State) : Out := .next (s.issueSc core (scWord 0x1a rd rs1 0 imm.toNat))
def execMaxImm (core : Fin 384) (rd rs1 : Fin 64) (imm : BitVec 28) (s : State) : Out := .next (s.issueSc core (scWord 0x1b rd rs1 0 imm.toNat))
def execSltImm (core : Fin 384) (rd rs1 : Fin 64) (imm : BitVec 28) (s : State) : Out := .next (s.issueSc core (scWord 0x1c rd rs1 0 imm.toNat))
def execSltuImm (core : Fin 384) (rd rs1 : Fin 64) (imm : BitVec 28) (s : State) : Out := .next (s.issueSc core (scWord 0x1d rd rs1 0 imm.toNat))
def execLi (core : Fin 384) (rd : Fin 64) (imm : BitVec 28) (s : State) : Out := .next (s.issueSc core (scWord 0x20 rd 0 0 imm.toNat))
def execLih (core : Fin 384) (rd : Fin 64) (imm : BitVec 28) (s : State) : Out := .next (s.issueSc core (scWord 0x21 rd 0 0 imm.toNat))
def execBr (core : Fin 384) (imm : BitVec 28) (s : State) : Out := .next (s.issueSc core (scWord 0x30 0 0 0 imm.toNat))
def execBeqz (core : Fin 384) (rs1 : Fin 64) (imm : BitVec 28) (s : State) : Out := .next (s.issueSc core (scWord 0x31 0 rs1 0 imm.toNat))
def execBnez (core : Fin 384) (rs1 : Fin 64) (imm : BitVec 28) (s : State) : Out := .next (s.issueSc core (scWord 0x32 0 rs1 0 imm.toNat))
def execBltz (core : Fin 384) (rs1 : Fin 64) (imm : BitVec 28) (s : State) : Out := .next (s.issueSc core (scWord 0x33 0 rs1 0 imm.toNat))
def execBgez (core : Fin 384) (rs1 : Fin 64) (imm : BitVec 28) (s : State) : Out := .next (s.issueSc core (scWord 0x34 0 rs1 0 imm.toNat))
def execJr (core : Fin 384) (rs1 : Fin 64) (s : State) : Out := .next (s.issueSc core (scWord 0x35 0 rs1 0 0))
def execCall (core : Fin 384) (imm : BitVec 28) (s : State) : Out := .next (s.issueSc core (scWord 0x36 0 0 0 imm.toNat))
def execCsrr (core : Fin 384) (rd : Fin 64) (num : BitVec 8) (s : State) : Out := .next (s.issueSc core (scWord 0x3E rd 0 0 num.toNat))
def execScalarEnd (core : Fin 384) (s : State) : Out := .next (s.issueSc core (scWord 0x3F 0 0 0 0))
def execInstanceEnd (core : Fin 384) (s : State) : Out := .next (s.instanceEnd core)
def execMoveNop (core : Fin 384) (s : State) : Out := .next (s.issueMv core 0)
def execDma (core : Fin 384) (ab : Fin 16) (q : Fin 8) (imm : BitVec 32) (s : State) : Out := .next (s.issueMv core (mvWord 1 ab 0 0 0 q imm.toNat))
def execVld (core : Fin 384) (ab : Fin 16) (v : Fin 32) (imm : BitVec 32) (s : State) : Out := .next (s.issueMv core (mvWord 2 ab 0 v 0 0 imm.toNat))
def execVst (core : Fin 384) (ab : Fin 16) (v : Fin 32) (imm : BitVec 32) (s : State) : Out := .next (s.issueMv core (mvWord 3 ab 0 v 0 0 imm.toNat))
def execTld (core : Fin 384) (ab : Fin 16) (t : Fin 16) (imm : BitVec 32) (s : State) : Out := .next (s.issueMv core (mvWord 4 ab 0 0 t 0 imm.toNat))
def execTst (core : Fin 384) (ab : Fin 16) (t : Fin 16) (imm : BitVec 32) (s : State) : Out := .next (s.issueMv core (mvWord 5 ab 0 0 t 0 imm.toNat))
def execTsetb (core : Fin 384) (ab : Fin 16) (t : Fin 16) (imm : BitVec 32) (s : State) : Out := .next (s.issueMv core (mvWord 6 ab 0 0 t 0 imm.toNat))
def execLd (core : Fin 384) (ab : Fin 16) (r : Fin 64) (imm : BitVec 32) (s : State) : Out := .next (s.issueMv core (mvWord 8 ab r 0 0 0 imm.toNat))
def execSt (core : Fin 384) (ab : Fin 16) (r : Fin 64) (imm : BitVec 32) (s : State) : Out := .next (s.issueMv core (mvWord 9 ab r 0 0 0 imm.toNat))
def execSyncNop (core : Fin 384) (s : State) : Out := .next (s.issueSy core 0)
def execEvinc (core : Fin 384) (ec rs : Fin 64) (imm : BitVec 8) (s : State) : Out := .next (s.issueSy core (syWord 1 ec rs imm.toNat))
def execEvset (core : Fin 384) (ec rs : Fin 64) (imm : BitVec 8) (s : State) : Out := .next (s.issueSy core (syWord 2 ec rs imm.toNat))
def execEvwait (core : Fin 384) (ec rs : Fin 64) (imm : BitVec 8) (s : State) : Out := .next (s.issueSy core (syWord 3 ec rs imm.toNat))
def execEvrem (core : Fin 384) (ec rs : Fin 64) (imm : BitVec 8) (s : State) : Out := .next (s.issueSy core (syWord 4 ec rs imm.toNat))
def execEvremArrival (core : Fin 384) (s : State) : Out := .next (s.evremArrival core)
def execBar (core : Fin 384) (s : State) : Out := .next (s.issueSy core (syWord 5 0 0 0))
def execBarArrival (core : Fin 384) (s : State) : Out := .next (s.barArrival core)
def execFence (core : Fin 384) (imm : BitVec 8) (s : State) : Out := .next (s.issueSy core (syWord 6 0 0 imm.toNat))
/-- A TB issues, and completes at once when nothing is left to wait for (R67). -/
def execTb (core : Fin 384) (imm : BitVec 8) (s : State) : Out := .next ((s.issueSy core (syWord 7 0 0 imm.toNat)).tbComplete core)

end Sys2Proof.Machine
end

