-- ==== Sys2Proof/Machine/Ucode.lean ====
section
/-! DEFINITION. The microcode broadcast (R388, R389) of S5 and of the exit from Park (R429). -/

namespace Sys2Proof.Machine

/-- Packet `p` of the image reaches core `n`: taken unless the core already holds it. -/
def State.ucPacket (s : State) (img : Bytes) (n p : Nat) : State :=
  if bitAt (s.core n).ucMap p then s
  else s.modCore n fun c =>
    { c with ucMap := setBit c.ucMap p true
             imem := if p < 64 then (List.range 16).foldl (fun m i => Sparse.setD (fun _ => 0) m (16 * p + i) (bundleAt img (16 * p + i))) c.imem else c.imem }

/-- The load is under way and nothing keeps its next round back: a Park exit waits for the commit of a Transit (R430). -/
def State.ucMay (s : State) : Bool := !s.fw.ucLoad.isEmpty && !(s.fw.ucPark && s.fw.transit) && !s.failed

/-- A round is sent (R389 steps 1 and 4): round 0 to every target, a later one to the cores that sent NACK. -/
def State.ucRoundSend (s : State) (lost : LostPackets) : State :=
  let cores := if s.fw.ucRound = 0 then s.fw.ucLoad else s.fw.ucNack
  if !s.ucMay || s.fw.ucDue || cores.isEmpty then s
  else
    let pkts := onesOf 65 s.fw.ucSend
    let s := match s.ucodeImage with
      | some (img, _) => cores.foldl (fun (s : State) n => pkts.foldl (fun (s : State) p =>
          if lost.any fun q => q.1.val = n && q.2.val = p then s else s.ucPacket img n p) s) s
      | none => s
    { s with fw := { s.fw with ucRound := s.fw.ucRound + 1, ucDue := true, ucSend := 0, ucNack := [] } }

/-- The load has ended: so does S5, or the exit from Park goes on. -/
def State.ucEnd (s : State) : State :=
  if s.fw.ucPark then s.parkDone
  else match s.boot.s5 with
    | some (t, used) => s.s5End used t
    | none => s

/-- A core that fails the load is fenced with UCODE_LOAD (R389 step 5); an instance parked on it is replayed (R429). -/
def State.ucFence (s : State) (n : Nat) : State :=
  let old := s.core n
  match old.inst with
  | none => s.coreFault n 0x28
  | some i =>
    let s := s.error { unit := unitCore n, code := 0x28, cls := 2, stream := i.stream, seq := i.seq }
    let s := (s.coreErr n 0x28).fenceCore n 0x28
    match (if i.noReplay then none else s.pickReserve i.part n) with
    | none => (s.endInstance n stCheckFail 0x28).stopCore n
    | some r => (s.stopCore n).replayOn r i old false

/-- The digest check after a round (R389 steps 2, 3 and 5): cores that hold all packets match, or clear their bitmap; after round 8 the rest are fenced. -/
def State.ucCheck (s : State) (bad : CoreList) : State :=
  if !s.ucMay || !s.fw.ucDue then s
  else
    let good := match s.ucodeImage with | some (b, dig) => decide (shake b = dig) | none => false
    let full := fun (n : Nat) => (s.core n).ucMap = 2 ^ 65 - 1
    let ok := fun (n : Nat) => full n && good && !bad.any (·.val = n)
    let fails := s.fw.ucLoad.filter fun n => !ok n
    let s' : State := (s.fw.ucLoad.filter full).foldl (fun (s' : State) n =>
      if ok n then s'.modCore n fun c => { c with ucOk := true } else s'.modCore n fun c => { c with ucMap := 0 }) s
    let last := decide (9 ≤ s.fw.ucRound)
    let s' : State := { s' with fw := { s'.fw with ucDue := false, ucLoad := if last then [] else fails } }
    if fails.isEmpty then s'.ucEnd
    else if last then (fails.foldl (fun (s' : State) n => s'.ucFence n) s').ucEnd
    else s'

/-- A core that is incomplete or mismatched sends NACK with its bitmap (R389 step 3). -/
def State.ucSendNack (s : State) (n : Nat) : State :=
  if !s.ucMay || s.fw.ucDue || s.fw.ucRound = 0 || !s.fw.ucLoad.contains n || s.fw.ucNack.contains n then s
  else
    let missing := (onesOf 65 (2 ^ 65 - 1)).filter fun p => !bitAt (s.core n).ucMap p
    { s with fw := { s.fw with ucNack := s.fw.ucNack ++ [n], ucSend := missing.foldl (fun m p => setBit m p true) s.fw.ucSend } }

/-! ### The rows -/

def execUcodeRound (lost : LostPackets) (s : State) : Out := .next (s.ucRoundSend lost)
def execUcodeDigestCheck (bad : CoreList) (s : State) : Out := .next (s.ucCheck bad)
def execUcodeNack (core : Fin 384) (s : State) : Out := .next (s.ucSendNack core)

end Sys2Proof.Machine
end

