-- ==== Sys2Proof/Machine/Vector.lean ====
section
/-! DEFINITION. The vector engine (R144-R160): the operation at the head of the queue starts and takes its whole effect, and finishes later (log entry 12). -/

namespace Sys2Proof.Machine

/-! ### Operands -/

/-- Bytes of an element of a TYPE (R144). -/
def tyBytes (ty : Nat) : Nat := if ty = 1 ∨ ty = 4 then 2 else 4

/-- The layout of a floating-point TYPE (R145). -/
def tyFmt (ty : Nat) : FFmt := if ty = 1 then fmtBF16 else if ty = 4 then fmtFP16 else fmtFP32

/-- TYPE is a floating-point type. -/
def tyIsFp (ty : Nat) : Bool := ty = 0 || ty = 1 || ty = 4

/-- A pattern read as a value: under FTZ a subnormal reads as zero with its sign (R132). -/
def ftzDec (f : FFmt) (ftz : Bool) (b : Nat) : Num :=
  if ftz && f.isSub b then .fin (f.dec b).sign 0 0 else f.dec b

/-- Element `i` of width `w` bytes of vector register `v` (R144). -/
def CoreS.velem (c : CoreS) (v w i : Nat) : Nat := leVal (c.vbytes v (i * w) w)

/-- The mark of a flag that IEEE 754-2019 leaves to the implementation (log entry 15): VFMA of zero and infinity with a NaN addend may raise NV. -/
def fOpen : Nat := 128

/-- An operation as it starts: the core and the slot. -/
structure VOp where
  c : CoreS
  x : Nat

def VOp.ty (o : VOp) : Nat := vcTy o.x
def VOp.w (o : VOp) : Nat := tyBytes o.ty
def VOp.ftz (o : VOp) : Bool := vcFtz o.x
def VOp.s (o : VOp) (k : Nat) : Nat := (o.c.reg (vcRs o.x + k)).toNat
/-- The pattern of VA[i] in the TYPE. -/
def VOp.a (o : VOp) (i : Nat) : Nat := o.c.velem (vcVa o.x) o.w i
/-- The pattern of VB[i], or the scalar under SB (R145). -/
def VOp.b (o : VOp) (i : Nat) : Nat := if vcSb o.x then o.s 0 % 2 ^ (8 * o.w) else o.c.velem (vcVb o.x) o.w i
def VOp.cc (o : VOp) (i : Nat) : Nat := o.c.velem (vcVc o.x) o.w i
/-- Values of the operands. -/
def VOp.fa (o : VOp) (i : Nat) : Num := ftzDec (tyFmt o.ty) o.ftz (o.a i)
def VOp.fb (o : VOp) (i : Nat) : Num := ftzDec (tyFmt o.ty) o.ftz (o.b i)
def VOp.fc (o : VOp) (i : Nat) : Num := ftzDec (tyFmt o.ty) o.ftz (o.cc i)
/-- An FP32 scalar half (R155). -/
def VOp.fs (o : VOp) (k hi lo : Nat) : Num := ftzDec fmtFP32 o.ftz (bitsOf (o.s k) hi lo)
/-- The key of the generator (R147). -/
def VOp.key (o : VOp) : Nat := o.s 2 * 2 ^ 64 + o.s 1
/-- Word `j` of the generator for element `i` (R147). -/
def VOp.rand (o : VOp) (i j : Nat) : Nat := genWord o.key ((o.s 0 + i) % 2 ^ 64) j
/-- The rounding mode of element `i`. -/
def VOp.mode (o : VOp) (i : Nat) : RMode :=
  match vcRnd o.x with | 0 => .rne | 1 => .rtz | _ => .stoch (o.rand i 0)

/-! ### Arithmetic (R149) -/

/-- NV of an operation whose result is NaN although no operand is. -/
def nvOf (r : Num) (ops : List Num) : Nat := if r.isNan && !ops.any Num.isNan then fNV else 0

/-- NV of a signalling NaN among patterns of a format (R149). -/
def nvSig (f : FFmt) (l : List Nat) : Nat := if l.any f.isSnan then fNV else 0

/-- A result with more flags. -/
def FRes.also (r : FRes) (fl : Nat) : FRes := ⟨r.bits, r.fl ||| fl⟩

/-- NV of a signalling NaN operand of element `i` (R149): arithmetic, minimum and maximum, comparisons and conversions raise it; VABS and VNEG change a sign only and raise none (log entry 48). -/
def VOp.sig (o : VOp) (i : Nat) : Nat :=
  if !tyIsFp o.ty then 0
  else match vcOp o.x with
    | 0x01 | 0x02 | 0x03 | 0x05 | 0x06 | 0x09 | 0x0B => nvSig (tyFmt o.ty) [o.a i, o.b i]
    | 0x04 => nvSig (tyFmt o.ty) [o.a i, o.b i, o.cc i]
    | 0x0A | 0x13 => nvSig (tyFmt o.ty) [o.a i]
    | _ => 0

/-- Round a result to the TYPE, with its own flags added. -/
def VOp.out (o : VOp) (i : Nat) (r : Num) (fl : Nat) : FRes :=
  let n := narrow o.ty (o.mode i) o.ftz r
  ⟨n.bits, n.fl ||| fl⟩

/-- An exact result in the TYPE. -/
def VOp.exactOut (o : VOp) (r : Num) (fl : Nat) : FRes := ⟨(tyFmt o.ty).rne r, fl⟩

/-- RN of R155: FP32 under ROUND and FTZ. -/
def VOp.rn (o : VOp) (i : Nat) (r : Num) (ops : List Num) : FRes :=
  let n := fp32Res (o.mode i) o.ftz r
  ⟨n.bits, n.fl ||| nvOf r ops⟩

/-- A result as the value it stands for. -/
def FRes.val (r : FRes) : Num := fmtFP32.dec r.bits

/-- Integer operations on 32-bit patterns (R149). -/
def vint (op ty a b c : Nat) : Nat :=
  let m := 2 ^ 32
  let lt := if ty = 2 then decide (sextN 32 a < sextN 32 b) else decide (a < b)
  match op with
  | 0x01 => (a + b) % m
  | 0x02 => (a + m - b) % m
  | 0x03 => a * b % m
  | 0x04 => (a * b + c) % m
  | 0x05 => if lt then a else b
  | 0x06 => if lt then b else a
  | 0x07 => if 2 ^ 31 ≤ a then (m - a) % m else a
  | 0x08 => (m - a) % m
  | 0x10 => a * 2 ^ (b % 32) % m
  | _ => if ty = 2 then wrapI 32 (sextN 32 a / 2 ^ (b % 32)) else a / 2 ^ (b % 32)

/-- Floating-point results of VADD to VSQRT (R148, R149). -/
def VOp.fparith (o : VOp) (i : Nat) : FRes :=
  let a := o.fa i
  let b := o.fb i
  match vcOp o.x with
  | 0x01 => let r := Num.add a b; o.out i r (nvOf r [a, b])
  | 0x02 => let r := Num.sub a b; o.out i r (nvOf r [a, b])
  | 0x03 => let r := Num.mul a b; o.out i r (nvOf r [a, b])
  | 0x04 =>
    let c := o.fc i
    let p := Num.mul a b
    let r := Num.add p c
    o.out i r (nvOf r [a, b, c] ||| (if c.isNan && p.isNan && !a.isNan && !b.isNan then fOpen else 0))
  | 0x05 => o.exactOut (numMin a b) 0
  | 0x06 => o.exactOut (numMax a b) 0
  | 0x07 => o.exactOut a.abs 0
  | 0x08 => o.exactOut a.neg 0
  | 0x09 =>
    let r := Num.div a b
    o.out i r (nvOf r [a, b] ||| (if b.isZero && a.isFin && !a.isZero then fDZ else 0))
  | _ => let r := Num.sqrt a; o.out i r (nvOf r [a])

/-- The predicates of VCMP on floating-point values (R149). -/
def fpPred (fn : Nat) (a b : Num) : Bool :=
  let un := a.isNan || b.isNan
  match fn with
  | 0 => Num.eqv a b
  | 1 => !Num.eqv a b
  | 2 => Num.lt a b
  | 3 => !un && Num.le a b
  | 4 => Num.lt b a
  | 5 => !un && Num.le b a
  | 6 => un
  | _ => !un

/-- The predicates on integers. -/
def intPred (fn : Nat) (a b : Int) : Bool :=
  match fn with
  | 0 => a = b | 1 => a ≠ b | 2 => a < b | 3 => a ≤ b | 4 => b < a | 5 => b ≤ a | 6 => false | _ => true

/-- VCMP (R148, R149). -/
def VOp.vcmp (o : VOp) (i : Nat) : FRes :=
  let fn := vcFn o.x % 8
  if tyIsFp o.ty then
    let a := o.fa i
    let b := o.fb i
    ⟨if fpPred fn a b then 2 ^ 32 - 1 else 0, if 2 ≤ fn ∧ fn ≤ 5 ∧ (a.isNan || b.isNan) = true then fNV else 0⟩
  else
    let v := fun (n : Nat) => if o.ty = 2 then sextN 32 n else (n : Int)
    ⟨if intPred fn (v (o.a i)) (v (o.b i)) then 2 ^ 32 - 1 else 0, 0⟩

/-- VCVT (R150). -/
def VOp.vcvt (o : VOp) (i : Nat) : FRes :=
  let tgt := vcFn o.x % 8
  match o.ty with
  | 0 =>
    let v := o.fa i
    if tgt = 3 then
      match v with
      | .nan => ⟨0, fNV⟩
      | .inf s => ⟨if s then 2 ^ 31 else 2 ^ 31 - 1, fNV⟩
      | .fin _ _ _ =>
        let k := if vcRnd o.x = 1 then v.trunc else v.rint
        if k < -(2 ^ 31 : Int) then ⟨2 ^ 31, fNV⟩
        else if (2 ^ 31 : Int) ≤ k then ⟨2 ^ 31 - 1, fNV⟩
        else ⟨wrapI 32 k, if Num.eqv (Num.ofInt k) v then 0 else fNX⟩
    else cvt16Res (if tgt = 1 then fmtBF16 else fmtFP16) (o.mode i) o.ftz v
  | 1 | 4 => ⟨fmtFP32.rne (o.fa i), 0⟩
  | 2 => fp32Res (o.mode i) false (Num.ofInt (sextN 32 (o.a i)))
  | _ => fp32Res (o.mode i) false (Num.ofInt (o.a i))

/-! ### Transcendental functions (R151) -/

/-- The FP32 result of a function outside its stated special cases: a free value of the operand within R151's bound (log entry 14). -/
def freeFn (op : Nat) (x : Num) : Nat :=
  match x with
  | .fin s m e => boundedFp32 (transUlps op) (transVal op s m e) (Config.transcend (BitVec.ofNat 8 op) (BitVec.ofNat 32 (fmtFP32.rne x))).toNat
  | _ => fmtFP32.canonNan

/-- A finite result, or +infinity with OF. -/
def ovf (b : Nat) : FRes := ⟨b, if b = fmtFP32.infBits false then fOF else 0⟩

/-- A power of two: its exponent. -/
def pow2Exp (m : Nat) (e : Int) : Option Int := if m = 2 ^ Nat.log2 m then some (numExp m e) else none

/-- The FP32 result of a transcendental opcode (R151): the stated special and exact cases, else the free value of the operand. -/
def transFn (op : Nat) (x : Num) : FRes :=
  let inf := fmtFP32.infBits
  let zero := fmtFP32.signBit
  let one := fun (s : Bool) => fmtFP32.rne (.fin s 1 0)
  let nv : FRes := ⟨fmtFP32.canonNan, fNV⟩
  match x with
  | .nan => ⟨fmtFP32.canonNan, 0⟩
  | .inf s =>
    match op with
    | 0x20 | 0x21 => ⟨if s then 0 else inf false, 0⟩
    | 0x22 | 0x23 => if s then nv else ⟨inf false, 0⟩
    | 0x24 => ⟨zero s, 0⟩
    | 0x25 => if s then nv else ⟨0, 0⟩
    | 0x26 | 0x2A => ⟨one s, 0⟩
    | 0x27 => ⟨if s then 0 else one false, 0⟩
    | 0x28 | 0x29 => nv
    | _ => ⟨if s then zero true else inf false, 0⟩
  | .fin s m e =>
    match op with
    | 0x20 => if Num.lt (Num.ofInt 89) x then ⟨inf false, fOF⟩ else ovf (freeFn op x)
    | 0x21 =>
      if Num.le (Num.ofInt 128) x then ⟨inf false, fOF⟩
      else if Num.eqv (Num.ofInt x.trunc) x && decide (-149 ≤ x.trunc) then ⟨fmtFP32.rne (.fin false 1 x.trunc), 0⟩
      else ovf (freeFn op x)
    | 0x22 => if m = 0 then ⟨inf true, fDZ⟩ else if s then nv else if Num.eqv x (Num.ofInt 1) then ⟨0, 0⟩ else ⟨freeFn op x, 0⟩
    | 0x23 =>
      if m = 0 then ⟨inf true, fDZ⟩ else if s then nv
      else match pow2Exp m e with | some k => ⟨fmtFP32.rne (Num.ofInt k), 0⟩ | none => ⟨freeFn op x, 0⟩
    | 0x24 => if m = 0 then ⟨inf s, fDZ⟩ else ⟨fmtFP32.rne (Num.div (Num.ofInt 1) x), 0⟩
    | 0x25 => if m = 0 then ⟨inf s, fDZ⟩ else if s then nv else ⟨freeFn op x, 0⟩
    | 0x26 | 0x28 | 0x2A => if m = 0 then ⟨zero s, 0⟩ else ⟨freeFn op x, 0⟩
    | _ => ⟨freeFn op x, 0⟩

/-- A transcendental element in its TYPE (R149, R151): BF16 converts the FP32 result by R130 and records SAT and FLUSH. -/
def VOp.trans (o : VOp) (i : Nat) : FRes :=
  let r := transFn (vcOp o.x) (o.fa i)
  if o.ty = 1 then
    let (b, cat) := convert fmtBF16 (o.mode i) o.ftz r.val
    ⟨b, r.fl ||| (if cat = .sat then fSAT else 0) ||| (if cat = .flush then fFLUSH else 0)⟩
  else if o.ftz && fmtFP32.isSub r.bits then ⟨fmtFP32.signBit r.val.sign, r.fl⟩
  else r

/-! ### Random numbers and the optimizer (R154, R155) -/

/-- VNRAND (R154). -/
def VOp.vnrand (o : VOp) (i : Nat) : FRes :=
  let rn := fun (v : Num) => fp32Res .rne false v
  let u1 : Num := .fin false (o.rand i 0 / 256 + 1) (-24)
  let u2 : Num := .fin false (o.rand i 1 / 256) (-24)
  let a := transFn 0x22 u1
  let b := rn (Num.mul (Num.ofInt (-2)) a.val)
  let c0 := Num.sqrt b.val
  let c := rn c0
  let d := rn (Num.mul (fmtFP32.dec 0x40C90FDB) u2)
  let k := transFn 0x29 d.val
  let z0 := Num.mul c.val k.val
  let z := rn z0
  ⟨z.bits, a.fl ||| b.fl ||| c.fl ||| nvOf c0 [b.val] ||| d.fl ||| k.fl ||| z.fl ||| nvOf z0 [c.val, k.val]⟩

/-- The optimizer primitives (R155). -/
def VOp.optim (o : VOp) (i : Nat) : FRes :=
  let g := o.fa i
  let d := ftzDec fmtFP32 o.ftz (o.c.velem (vcVd o.x) 4 i)
  let beta := o.fs 0 31 0
  let rn := fun (v : Num) (ops : List Num) => o.rn i v ops
  let mom := fun (y : FRes) =>
    let one := Num.ofInt 1
    let c := rn (Num.sub one beta) [one, beta]
    let t := rn (Num.mul c.val y.val) [c.val, y.val]
    let r := rn (Num.add (Num.mul beta d) t.val) [beta, d, t.val]
    (⟨r.bits, y.fl ||| c.fl ||| t.fl ||| r.fl ||| (if t.val.isNan && (Num.mul beta d).isNan && !beta.isNan && !d.isNan then fOpen else 0)⟩ : FRes)
  let od := o.c.velem (vcVd o.x) 4 i
  let sc := fun (k hi lo : Nat) => bitsOf (o.s k) hi lo
  match vcOp o.x with
  | 0x50 => (mom ⟨fmtFP32.rne g, 0⟩).also (nvSig fmtFP32 [o.a i, od, sc 0 31 0])
  | 0x51 => (mom (rn (Num.mul g g) [g])).also (nvSig fmtFP32 [o.a i, od, sc 0 31 0])
  | 0x52 =>
    let m := g
    let v := o.fb i
    let alpha := o.fs 0 31 0
    let gamma := o.fs 0 63 32
    let eps := o.fs 1 31 0
    let q := rn (Num.mul gamma v) [gamma, v]
    let r := rn (Num.sqrt q.val) [q.val]
    let dd := rn (Num.add r.val eps) [r.val, eps]
    let t := rn (Num.div m dd.val) [m, dd.val]
    let u := rn (Num.mul alpha.neg t.val) [alpha, t.val]
    ⟨u.bits, q.fl ||| r.fl ||| dd.fl ||| t.fl ||| u.fl ||| (if dd.val.isZero && m.isFin && !m.isZero then fDZ else 0)
      ||| nvSig fmtFP32 [o.a i, o.b i, sc 0 31 0, sc 0 63 32, sc 1 31 0]⟩
  | _ =>
    let w := ftzDec fmtBF16 o.ftz (o.c.velem (vcVa o.x) 2 i)
    let p := Num.mul beta w
    let r := rn (Num.sub d p) [d, beta, w]
    ⟨r.bits, r.fl ||| (if d.isNan && p.isNan && !beta.isNan && !w.isNan then fOpen else 0)
      ||| nvSig fmtFP32 [od, sc 0 31 0] ||| nvSig fmtBF16 [o.c.velem (vcVa o.x) 2 i]⟩

/-- A compensated update (R139): the new weight, the new remainder, the flags. -/
def VOp.cupd (o : VOp) (i : Nat) : FRes × Nat :=
  let w' := o.c.velem (vcVd o.x) 2 i
  let p' := o.c.velem (vcVc o.x) 2 i
  let u' := o.c.velem (vcVa o.x) 4 i
  let w := ftzDec fmtBF16 o.ftz w'
  let p := ftzDec fmtBF16 o.ftz p'
  let u := ftzDec fmtFP32 o.ftz u'
  if w.isNan || p.isNan || u.isNan then (⟨fmtBF16.canonNan, nvSig fmtBF16 [w', p'] ||| nvSig fmtFP32 [u']⟩, 0)
  else
    let e := Num.add (Num.add w p) u
    let x := fp32Res .rne false e
    let w' := cvt16Res fmtBF16 (o.mode i) o.ftz x.val
    let v := fmtBF16.dec w'.bits
    let sat := w'.fl / fSAT % 2 = 1
    let p' := if !v.isFin || sat then 0 else fmtBF16.rne (Num.sub x.val v)
    (⟨w'.bits, nvOf e [w, p, u] ||| x.fl ||| w'.fl⟩, p')

/-! ### Moves, reductions -/

/-- Element `i` of the operations that move bits (R148). -/
def VOp.moveBits (o : VOp) (i : Nat) : Nat :=
  let n := vcN o.x
  let sv := (o.c.reg (vcRs o.x)).toInt
  match vcOp o.x with
  | 0x0C => if o.c.velem (vcVc o.x) 4 i ≠ 0 then o.a i else o.b i
  | 0x0D => o.a i &&& o.b i
  | 0x0E => o.a i ||| o.b i
  | 0x0F => o.a i ^^^ o.b i
  | 0x12 => (o.s 0 + i) % 2 ^ 32
  | 0x38 => let k := o.c.velem (vcVb o.x) 4 i; if n ≤ k then 0 else o.a k
  | 0x39 => o.a ((sv + vcFn o.x) % ((8192 / o.w : Nat) : Int)).toNat
  | _ => o.a (((i : Int) + sv) % (n : Int)).toNat

/-- The result of a reduction (R152). -/
def VOp.reduce (o : VOp) : FRes :=
  let l := (List.range (vcN o.x)).map o.fa
  let sg := nvSig (tyFmt o.ty) ((List.range (vcN o.x)).map o.a)
  match vcOp o.x with
  | 0x30 =>
    let r := Num.sum (.fin true 0 0) l
    o.out 0 r (if r.isNan then fNV else 0)
  | 0x31 =>
    let r := Num.sum (.fin true 0 0) (l.map fun v => Num.mul v v)
    o.out 0 r (if r.isNan then fNV else 0)
  | 0x32 => o.exactOut (l.tail.foldl numMax (l.headD .nan)) sg
  | _ => o.exactOut (l.tail.foldl numMin (l.headD .nan)) sg

/-! ### Gather and scatter (R153) -/

/-- The scratchpad offset of element `i`, computed without wrap. -/
def VOp.gaddr (o : VOp) (w i : Nat) : Nat := o.s 0 + o.c.velem (vcVa o.x) 4 i * w

/-- Every address is aligned and ends within the scratchpad. -/
def VOp.gok (o : VOp) (w : Nat) : Bool :=
  (List.range (vcN o.x)).all fun i => o.gaddr w i % w = 0 && o.gaddr w i + w ≤ 0x200000

/-- The distinct lines of a group of 64 elements (R157, R170). -/
def VOp.groupLines (o : VOp) (w g : Nat) : List Nat :=
  ((List.range (min 64 (vcN o.x - 64 * g))).map fun i => o.gaddr w (64 * g + i) / 64).eraseDups

/-- Conflict cycles: for each group of 64 elements, the distinct lines of the most used bank beyond the first (R157, R170). -/
def VOp.conflicts (o : VOp) (w : Nat) : Nat :=
  ((List.range (ceilDiv (vcN o.x) 64)).map fun g =>
    let ls := o.groupLines w g
    (List.range 64).foldl (fun m b => max m ((ls.filter (· % 64 = b)).length - 1)) 0).sum

/-! ### An operation as a whole -/

/-- What an operation writes: vector registers (register, element width, elements from 0) and flags. -/
structure VOut where
  regs : List (Nat × Nat × List Nat)
  fl : Nat

/-- Elements 0 to N - 1 of one destination. -/
def VOp.each (o : VOp) (w : Nat) (f : Nat → FRes) : VOut :=
  let l := (List.range (vcN o.x)).map f
  ⟨[(vcVd o.x, w, l.map (·.bits))], l.foldl (fun m r => m ||| r.fl) 0⟩

/-- The vector-register results of the operations that touch no scratchpad (R148). -/
def VOp.run (o : VOp) : VOut :=
  let op := vcOp o.x
  let bits := fun (f : Nat → Nat) => o.each o.w fun i => ⟨f i, 0⟩
  if 0x20 ≤ op ∧ op ≤ 0x2D then o.each o.w o.trans
  else match op with
  | 0x01 | 0x02 | 0x03 | 0x04 | 0x05 | 0x06 | 0x07 | 0x08 | 0x09 | 0x0A | 0x10 | 0x11 =>
    if tyIsFp o.ty then o.each o.w fun i => (o.fparith i).also (o.sig i) else bits fun i => vint op o.ty (o.a i) (o.b i) (o.cc i)
  | 0x0B => o.each 4 fun i => (o.vcmp i).also (o.sig i)
  | 0x13 => o.each (if vcFn o.x % 8 = 1 ∨ vcFn o.x % 8 = 2 then 2 else 4) fun i => (o.vcvt i).also (o.sig i)
  | 0x0C | 0x0D | 0x0E | 0x0F | 0x12 | 0x38 | 0x39 | 0x3A => bits o.moveBits
  | 0x30 | 0x31 | 0x32 | 0x33 =>
    let r := o.reduce
    ⟨[(vcVd o.x, o.w, List.replicate (if vcFn o.x % 2 = 1 then vcN o.x else 1) r.bits)], r.fl⟩
  | 0x48 => bits fun i => o.rand i 0
  | 0x49 => o.each 4 fun i => ⟨fmtFP32.rne (.fin false (o.rand i 0 / 256) (-24)), 0⟩
  | 0x4A => o.each 4 o.vnrand
  | 0x50 | 0x51 | 0x52 | 0x53 => o.each 4 o.optim
  | 0x54 =>
    let l := (List.range (vcN o.x)).map o.cupd
    ⟨[(vcVd o.x, 2, l.map (·.1.bits)), (vcVc o.x, 2, l.map (·.2))], l.foldl (fun m r => m ||| r.1.fl) 0⟩
  | _ => ⟨[], 0⟩

/-- Raise the flags of an operation; a flag that IEEE 754-2019 leaves open is drawn (log entry 15). -/
def State.raiseOpen (s : State) (n fl : Nat) : State :=
  if fl / fOpen % 2 = 1 then
    let (w, s) := s.draw
    s.raise n (fl % fOpen ||| w.toNat % 2 * fNV)
  else s.raise n fl

/-- Write the results of an operation. -/
def State.vwrite (s : State) (n : Nat) (v : VOut) : State :=
  let s := v.regs.foldl (fun s r => s.modCore n (·.setVbytes r.1 0 ((r.2.2.map (leBytes r.2.1)).flatten))) s
  s.raiseOpen n v.fl

/-- VGATHER, VSCATTER, VSCADD (R153): ADDR before anything moves, then the elements in ascending order. -/
def State.vmem (s : State) (n : Nat) (o : VOp) : State :=
  let w := o.w
  if !o.gok w then s.progError n 3
  else
    let s := s.fsat (F.vxePerf_CONFLICT n) (o.conflicts w)
    let s := (List.range (ceilDiv (vcN o.x) 64)).foldl (fun s g => (o.groupLines w g).foldl (fun s l => s.bankLines n 4 (64 * l) 1) s) s
    let is := List.range (vcN o.x)
    match vcOp o.x with
    | 0x40 =>
      let l := is.map fun i => s.spmLE n (o.gaddr w i) w
      s.vwrite n ⟨[(vcVd o.x, w, l)], 0⟩
    | 0x41 => is.foldl (fun s i => s.spmPut n (o.gaddr w i) (leBytes w (o.b i))) s
    | _ =>
      let r := is.foldl (fun (a : State × Nat) i =>
        let b := a.1.spmLE n (o.gaddr 4 i) 4
        let m := ftzDec fmtFP32 o.ftz b
        let v := Num.add m (o.fb i)
        let q := o.out i v (nvOf v [m, o.fb i] ||| nvSig fmtFP32 [b, o.b i])
        (a.1.spmPut n (o.gaddr 4 i) (leBytes 4 q.bits), a.2 ||| q.fl)) (s, 0)
      r.1.raise n r.2

/-- Start the head of the vector queue when it is opcode `op` (R156). -/
def State.vector (s : State) (n op : Nat) : State :=
  let c := s.core n
  match c.vq with
  | q :: rest =>
    if vcOp q.slot = op ∧ c.inst.isSome = true ∧ c.fault.isNone = true ∧ s.unitsRun n = true then
      let s := s.tailCore n 2 0x20 (op + (vcN q.slot - 1) * 256)
      let s := s.modCore n fun c => { c with vq := rest, vrun := c.vrun ++ [⟨vcWrites q.slot, vcSig q.slot, op⟩] }
      let o : VOp := ⟨c.seenBy q, q.slot⟩
      if op = 0x40 ∨ op = 0x41 ∨ op = 0x42 then s.vmem n o else s.vwrite n o.run
    else s
  | [] => s

/-- The oldest running operation finishes: it is counted, and ev60 steps under SIG (R156, R161). -/
def State.vfinish (s : State) (n : Nat) : State :=
  let c := s.core n
  match c.vrun with
  | [] => s
  | v :: rest =>
    let s := s.fsat (F.vxePerf_OPS n) 1
    let c := { c with vrun := rest }
    s.setCore n (if v.sig then c.incEv 60 1 else c)

/-! ### The rows of the command table -/

/-- A bundle that holds only a vector NOP issues (R146). -/
def execVectorNop (core : Fin 384) (s : State) : Out := .next (s.issue core { Bundle.empty with vc := some 0 })
def execVadd (core : Fin 384) (s : State) : Out := .next (s.vector core 0x01)
def execVsub (core : Fin 384) (s : State) : Out := .next (s.vector core 0x02)
def execVmul (core : Fin 384) (s : State) : Out := .next (s.vector core 0x03)
def execVfma (core : Fin 384) (s : State) : Out := .next (s.vector core 0x04)
def execVmin (core : Fin 384) (s : State) : Out := .next (s.vector core 0x05)
def execVmax (core : Fin 384) (s : State) : Out := .next (s.vector core 0x06)
def execVabs (core : Fin 384) (s : State) : Out := .next (s.vector core 0x07)
def execVneg (core : Fin 384) (s : State) : Out := .next (s.vector core 0x08)
def execVdiv (core : Fin 384) (s : State) : Out := .next (s.vector core 0x09)
def execVsqrt (core : Fin 384) (s : State) : Out := .next (s.vector core 0x0A)
def execVcmp (core : Fin 384) (s : State) : Out := .next (s.vector core 0x0B)
def execVsel (core : Fin 384) (s : State) : Out := .next (s.vector core 0x0C)
def execVand (core : Fin 384) (s : State) : Out := .next (s.vector core 0x0D)
def execVor (core : Fin 384) (s : State) : Out := .next (s.vector core 0x0E)
def execVxor (core : Fin 384) (s : State) : Out := .next (s.vector core 0x0F)
def execVshl (core : Fin 384) (s : State) : Out := .next (s.vector core 0x10)
def execVshr (core : Fin 384) (s : State) : Out := .next (s.vector core 0x11)
def execViota (core : Fin 384) (s : State) : Out := .next (s.vector core 0x12)
def execVcvt (core : Fin 384) (s : State) : Out := .next (s.vector core 0x13)
def execVexp (core : Fin 384) (s : State) : Out := .next (s.vector core 0x20)
def execVexp2 (core : Fin 384) (s : State) : Out := .next (s.vector core 0x21)
def execVlog (core : Fin 384) (s : State) : Out := .next (s.vector core 0x22)
def execVlog2 (core : Fin 384) (s : State) : Out := .next (s.vector core 0x23)
def execVrcp (core : Fin 384) (s : State) : Out := .next (s.vector core 0x24)
def execVrsqrt (core : Fin 384) (s : State) : Out := .next (s.vector core 0x25)
def execVtanh (core : Fin 384) (s : State) : Out := .next (s.vector core 0x26)
def execVsigm (core : Fin 384) (s : State) : Out := .next (s.vector core 0x27)
def execVsin (core : Fin 384) (s : State) : Out := .next (s.vector core 0x28)
def execVcos (core : Fin 384) (s : State) : Out := .next (s.vector core 0x29)
def execVerf (core : Fin 384) (s : State) : Out := .next (s.vector core 0x2A)
def execVgelut (core : Fin 384) (s : State) : Out := .next (s.vector core 0x2B)
def execVgelue (core : Fin 384) (s : State) : Out := .next (s.vector core 0x2C)
def execVsilu (core : Fin 384) (s : State) : Out := .next (s.vector core 0x2D)
def execVrsum (core : Fin 384) (s : State) : Out := .next (s.vector core 0x30)
def execVrssq (core : Fin 384) (s : State) : Out := .next (s.vector core 0x31)
def execVrmax (core : Fin 384) (s : State) : Out := .next (s.vector core 0x32)
def execVrmin (core : Fin 384) (s : State) : Out := .next (s.vector core 0x33)
def execVperm (core : Fin 384) (s : State) : Out := .next (s.vector core 0x38)
def execVbcast (core : Fin 384) (s : State) : Out := .next (s.vector core 0x39)
def execVslide (core : Fin 384) (s : State) : Out := .next (s.vector core 0x3A)
def execVgather (core : Fin 384) (s : State) : Out := .next (s.vector core 0x40)
def execVscatter (core : Fin 384) (s : State) : Out := .next (s.vector core 0x41)
def execVscadd (core : Fin 384) (s : State) : Out := .next (s.vector core 0x42)
def execVrbits (core : Fin 384) (s : State) : Out := .next (s.vector core 0x48)
def execVurand (core : Fin 384) (s : State) : Out := .next (s.vector core 0x49)
def execVnrand (core : Fin 384) (s : State) : Out := .next (s.vector core 0x4A)
def execVmom1 (core : Fin 384) (s : State) : Out := .next (s.vector core 0x50)
def execVmom2 (core : Fin 384) (s : State) : Out := .next (s.vector core 0x51)
def execVadamu (core : Fin 384) (s : State) : Out := .next (s.vector core 0x52)
def execVwdec (core : Fin 384) (s : State) : Out := .next (s.vector core 0x53)
def execVcupd (core : Fin 384) (s : State) : Out := .next (s.vector core 0x54)
def execVectorOpFinish (core : Fin 384) (s : State) : Out := .next (s.vfinish core)

end Sys2Proof.Machine
end

