-- ==== Sys2Proof/Machine/Dispatch.lean ====
section
/-! DEFINITION. The meaning of every command: one arm per constructor. -/

namespace Sys2Proof.Machine

def exec (i : Instr) (s : State) : Host.Outcome State Fault Refusal :=
  match i with
  | .bundleIssue core => Sys2Proof.Machine.execBundleIssue core s
  | .scalarNop core => Sys2Proof.Machine.execScalarNop core s
  | .add core rd rs1 rs2 => Sys2Proof.Machine.execAdd core rd rs1 rs2 s
  | .sub core rd rs1 rs2 => Sys2Proof.Machine.execSub core rd rs1 rs2 s
  | .and core rd rs1 rs2 => Sys2Proof.Machine.execAnd core rd rs1 rs2 s
  | .or core rd rs1 rs2 => Sys2Proof.Machine.execOr core rd rs1 rs2 s
  | .xor core rd rs1 rs2 => Sys2Proof.Machine.execXor core rd rs1 rs2 s
  | .shl core rd rs1 rs2 => Sys2Proof.Machine.execShl core rd rs1 rs2 s
  | .shr core rd rs1 rs2 => Sys2Proof.Machine.execShr core rd rs1 rs2 s
  | .sra core rd rs1 rs2 => Sys2Proof.Machine.execSra core rd rs1 rs2 s
  | .mul core rd rs1 rs2 => Sys2Proof.Machine.execMul core rd rs1 rs2 s
  | .min core rd rs1 rs2 => Sys2Proof.Machine.execMin core rd rs1 rs2 s
  | .max core rd rs1 rs2 => Sys2Proof.Machine.execMax core rd rs1 rs2 s
  | .slt core rd rs1 rs2 => Sys2Proof.Machine.execSlt core rd rs1 rs2 s
  | .sltu core rd rs1 rs2 => Sys2Proof.Machine.execSltu core rd rs1 rs2 s
  | .addImm core rd rs1 imm => Sys2Proof.Machine.execAddImm core rd rs1 imm s
  | .subImm core rd rs1 imm => Sys2Proof.Machine.execSubImm core rd rs1 imm s
  | .andImm core rd rs1 imm => Sys2Proof.Machine.execAndImm core rd rs1 imm s
  | .orImm core rd rs1 imm => Sys2Proof.Machine.execOrImm core rd rs1 imm s
  | .xorImm core rd rs1 imm => Sys2Proof.Machine.execXorImm core rd rs1 imm s
  | .shlImm core rd rs1 imm => Sys2Proof.Machine.execShlImm core rd rs1 imm s
  | .shrImm core rd rs1 imm => Sys2Proof.Machine.execShrImm core rd rs1 imm s
  | .sraImm core rd rs1 imm => Sys2Proof.Machine.execSraImm core rd rs1 imm s
  | .mulImm core rd rs1 imm => Sys2Proof.Machine.execMulImm core rd rs1 imm s
  | .minImm core rd rs1 imm => Sys2Proof.Machine.execMinImm core rd rs1 imm s
  | .maxImm core rd rs1 imm => Sys2Proof.Machine.execMaxImm core rd rs1 imm s
  | .sltImm core rd rs1 imm => Sys2Proof.Machine.execSltImm core rd rs1 imm s
  | .sltuImm core rd rs1 imm => Sys2Proof.Machine.execSltuImm core rd rs1 imm s
  | .li core rd imm => Sys2Proof.Machine.execLi core rd imm s
  | .lih core rd imm => Sys2Proof.Machine.execLih core rd imm s
  | .br core imm => Sys2Proof.Machine.execBr core imm s
  | .beqz core rs1 imm => Sys2Proof.Machine.execBeqz core rs1 imm s
  | .bnez core rs1 imm => Sys2Proof.Machine.execBnez core rs1 imm s
  | .bltz core rs1 imm => Sys2Proof.Machine.execBltz core rs1 imm s
  | .bgez core rs1 imm => Sys2Proof.Machine.execBgez core rs1 imm s
  | .jr core rs1 => Sys2Proof.Machine.execJr core rs1 s
  | .call core imm => Sys2Proof.Machine.execCall core imm s
  | .csrr core rd num => Sys2Proof.Machine.execCsrr core rd num s
  | .scalarEnd core => Sys2Proof.Machine.execScalarEnd core s
  | .instanceEnd core => Sys2Proof.Machine.execInstanceEnd core s
  | .moveNop core => Sys2Proof.Machine.execMoveNop core s
  | .dma core ab q imm => Sys2Proof.Machine.execDma core ab q imm s
  | .vld core ab v imm => Sys2Proof.Machine.execVld core ab v imm s
  | .vst core ab v imm => Sys2Proof.Machine.execVst core ab v imm s
  | .tld core ab t imm => Sys2Proof.Machine.execTld core ab t imm s
  | .tst core ab t imm => Sys2Proof.Machine.execTst core ab t imm s
  | .tsetb core ab t imm => Sys2Proof.Machine.execTsetb core ab t imm s
  | .ld core ab r imm => Sys2Proof.Machine.execLd core ab r imm s
  | .st core ab r imm => Sys2Proof.Machine.execSt core ab r imm s
  | .matrixNop core => Sys2Proof.Machine.execMatrixNop core s
  | .mcfg core => Sys2Proof.Machine.execMcfg core s
  | .mload core => Sys2Proof.Machine.execMload core s
  | .mswap core => Sys2Proof.Machine.execMswap core s
  | .mstream core => Sys2Proof.Machine.execMstream core s
  | .mdrain core => Sys2Proof.Machine.execMdrain core s
  | .mpadd core => Sys2Proof.Machine.execMpadd core s
  | .mloadDone core => Sys2Proof.Machine.execMloadDone core s
  | .mstreamDone core => Sys2Proof.Machine.execMstreamDone core s
  | .drainDone core => Sys2Proof.Machine.execDrainDone core s
  | .vectorNop core => Sys2Proof.Machine.execVectorNop core s
  | .vadd core => Sys2Proof.Machine.execVadd core s
  | .vsub core => Sys2Proof.Machine.execVsub core s
  | .vmul core => Sys2Proof.Machine.execVmul core s
  | .vfma core => Sys2Proof.Machine.execVfma core s
  | .vmin core => Sys2Proof.Machine.execVmin core s
  | .vmax core => Sys2Proof.Machine.execVmax core s
  | .vabs core => Sys2Proof.Machine.execVabs core s
  | .vneg core => Sys2Proof.Machine.execVneg core s
  | .vdiv core => Sys2Proof.Machine.execVdiv core s
  | .vsqrt core => Sys2Proof.Machine.execVsqrt core s
  | .vcmp core => Sys2Proof.Machine.execVcmp core s
  | .vsel core => Sys2Proof.Machine.execVsel core s
  | .vand core => Sys2Proof.Machine.execVand core s
  | .vor core => Sys2Proof.Machine.execVor core s
  | .vxor core => Sys2Proof.Machine.execVxor core s
  | .vshl core => Sys2Proof.Machine.execVshl core s
  | .vshr core => Sys2Proof.Machine.execVshr core s
  | .viota core => Sys2Proof.Machine.execViota core s
  | .vcvt core => Sys2Proof.Machine.execVcvt core s
  | .vexp core => Sys2Proof.Machine.execVexp core s
  | .vexp2 core => Sys2Proof.Machine.execVexp2 core s
  | .vlog core => Sys2Proof.Machine.execVlog core s
  | .vlog2 core => Sys2Proof.Machine.execVlog2 core s
  | .vrcp core => Sys2Proof.Machine.execVrcp core s
  | .vrsqrt core => Sys2Proof.Machine.execVrsqrt core s
  | .vtanh core => Sys2Proof.Machine.execVtanh core s
  | .vsigm core => Sys2Proof.Machine.execVsigm core s
  | .vsin core => Sys2Proof.Machine.execVsin core s
  | .vcos core => Sys2Proof.Machine.execVcos core s
  | .verf core => Sys2Proof.Machine.execVerf core s
  | .vgelut core => Sys2Proof.Machine.execVgelut core s
  | .vgelue core => Sys2Proof.Machine.execVgelue core s
  | .vsilu core => Sys2Proof.Machine.execVsilu core s
  | .vrsum core => Sys2Proof.Machine.execVrsum core s
  | .vrssq core => Sys2Proof.Machine.execVrssq core s
  | .vrmax core => Sys2Proof.Machine.execVrmax core s
  | .vrmin core => Sys2Proof.Machine.execVrmin core s
  | .vperm core => Sys2Proof.Machine.execVperm core s
  | .vbcast core => Sys2Proof.Machine.execVbcast core s
  | .vslide core => Sys2Proof.Machine.execVslide core s
  | .vgather core => Sys2Proof.Machine.execVgather core s
  | .vscatter core => Sys2Proof.Machine.execVscatter core s
  | .vscadd core => Sys2Proof.Machine.execVscadd core s
  | .vrbits core => Sys2Proof.Machine.execVrbits core s
  | .vurand core => Sys2Proof.Machine.execVurand core s
  | .vnrand core => Sys2Proof.Machine.execVnrand core s
  | .vmom1 core => Sys2Proof.Machine.execVmom1 core s
  | .vmom2 core => Sys2Proof.Machine.execVmom2 core s
  | .vadamu core => Sys2Proof.Machine.execVadamu core s
  | .vwdec core => Sys2Proof.Machine.execVwdec core s
  | .vcupd core => Sys2Proof.Machine.execVcupd core s
  | .vectorOpFinish core => Sys2Proof.Machine.execVectorOpFinish core s
  | .syncNop core => Sys2Proof.Machine.execSyncNop core s
  | .evinc core ec rs imm => Sys2Proof.Machine.execEvinc core ec rs imm s
  | .evset core ec rs imm => Sys2Proof.Machine.execEvset core ec rs imm s
  | .evwait core ec rs imm => Sys2Proof.Machine.execEvwait core ec rs imm s
  | .evrem core ec rs imm => Sys2Proof.Machine.execEvrem core ec rs imm s
  | .evremArrival core => Sys2Proof.Machine.execEvremArrival core s
  | .bar core => Sys2Proof.Machine.execBar core s
  | .barArrival core => Sys2Proof.Machine.execBarArrival core s
  | .fence core imm => Sys2Proof.Machine.execFence core imm s
  | .tb core imm => Sys2Proof.Machine.execTb core imm s
  | .dmaCopy core q => Sys2Proof.Machine.execDmaCopy core q s
  | .dmaGather core q => Sys2Proof.Machine.execDmaGather core q s
  | .dmaScatter core q => Sys2Proof.Machine.execDmaScatter core q s
  | .dmaFill core q => Sys2Proof.Machine.execDmaFill core q s
  | .dmaPreemptionPoint core q => Sys2Proof.Machine.execDmaPreemptionPoint core q s
  | .dmaRequestRefused core q status => Sys2Proof.Machine.execDmaRequestRefused core q status s
  | .dmaComplete core q => Sys2Proof.Machine.execDmaComplete core q s
  | .fadd32 addr x => Sys2Proof.Machine.execFadd32 addr x s
  | .bfadd16 addr x => Sys2Proof.Machine.execBfadd16 addr x s
  | .fmin32 addr x => Sys2Proof.Machine.execFmin32 addr x s
  | .fmax32 addr x => Sys2Proof.Machine.execFmax32 addr x s
  | .umin32 addr x => Sys2Proof.Machine.execUmin32 addr x s
  | .umax32 addr x => Sys2Proof.Machine.execUmax32 addr x s
  | .cas32 addr x => Sys2Proof.Machine.execCas32 addr x s
  | .replay core code word => Sys2Proof.Machine.execReplay core code word s
  | .llcRequest addr req => Sys2Proof.Machine.execLlcRequest addr req s
  | .narrowRequest addr req => Sys2Proof.Machine.execNarrowRequest addr req s
  | .mchBurstRead mch burst rd => Sys2Proof.Machine.execMchBurstRead mch burst rd s
  | .mchBurstWrite mch burst data poison => Sys2Proof.Machine.execMchBurstWrite mch burst data poison s
  | .refresh mch => Sys2Proof.Machine.execRefresh mch s
  | .stackTempRead stack temp => Sys2Proof.Machine.execStackTempRead stack temp s
  | .scrubRead mch errs => Sys2Proof.Machine.execScrubRead mch errs s
  | .pinThresholdReached mch pin => Sys2Proof.Machine.execPinThresholdReached mch pin s
  | .retrainPeriodExpiry mch => Sys2Proof.Machine.execRetrainPeriodExpiry mch s
  | .memRetrainGo req v => Sys2Proof.Machine.execMemRetrainGo req v s
  | .retrainStart => Sys2Proof.Machine.execRetrainStart s
  | .retrainEnd bad bad2 => Sys2Proof.Machine.execRetrainEnd bad bad2 s
  | .autoRetire mch => Sys2Proof.Machine.execAutoRetire mch s
  | .memRetireGo req v => Sys2Proof.Machine.execMemRetireGo req v s
  | .memMapCommit req v => Sys2Proof.Machine.execMemMapCommit req v s
  | .mapSwitchDone => Sys2Proof.Machine.execMapSwitchDone s
  | .prtRgnAWrite req p ix v => Sys2Proof.Machine.execPrtRgnAWrite req p ix v s
  | .regionWriteComplete p ix => Sys2Proof.Machine.execRegionWriteComplete p ix s
  | .llcCommit req v => Sys2Proof.Machine.execLlcCommit req v s
  | .llcCommitDone => Sys2Proof.Machine.execLlcCommitDone s
  | .crossingFlitCrcFail x => Sys2Proof.Machine.execCrossingFlitCrcFail x s
  | .moduleRemoved x => Sys2Proof.Machine.execModuleRemoved x s
  | .cxlMemRead k off len => Sys2Proof.Machine.execCxlMemRead k off len s
  | .cxlMemWrite k off data poison => Sys2Proof.Machine.execCxlMemWrite k off data poison s
  | .bisnpResponse line dirty data => Sys2Proof.Machine.execBisnpResponse line dirty data s
  | .snpdata line => Sys2Proof.Machine.execSnpdata line s
  | .snpinv line => Sys2Proof.Machine.execSnpinv line s
  | .snpcur line => Sys2Proof.Machine.execSnpcur line s
  | .hostWindowTimeout who => Sys2Proof.Machine.execHostWindowTimeout who s
  | .cxlLinkTrained gen width rate => Sys2Proof.Machine.execCxlLinkTrained gen width rate s
  | .cxlLinkDown => Sys2Proof.Machine.execCxlLinkDown s
  | .cxlUncorrectable => Sys2Proof.Machine.execCxlUncorrectable s
  | .cxlPerstNAssert => Sys2Proof.Machine.execCxlPerstNAssert s
  | .cxlPerstNDeassert => Sys2Proof.Machine.execCxlPerstNDeassert s
  | .doorbell f v => Sys2Proof.Machine.execDoorbell f v s
  | .descriptorFetch k => Sys2Proof.Machine.execDescriptorFetch k s
  | .descriptorCheck k => Sys2Proof.Machine.execDescriptorCheck k s
  | .streamNop k => Sys2Proof.Machine.execStreamNop k s
  | .streamLaunch k => Sys2Proof.Machine.execStreamLaunch k s
  | .launchComplete k seq => Sys2Proof.Machine.execLaunchComplete k seq s
  | .streamCopy k => Sys2Proof.Machine.execStreamCopy k s
  | .copyComplete k seq => Sys2Proof.Machine.execCopyComplete k seq s
  | .streamFence k => Sys2Proof.Machine.execStreamFence k s
  | .streamCommit k => Sys2Proof.Machine.execStreamCommit k s
  | .streamSignal k => Sys2Proof.Machine.execStreamSignal k s
  | .waitSignal k => Sys2Proof.Machine.execWaitSignal k s
  | .waitTimeout k => Sys2Proof.Machine.execWaitTimeout k s
  | .streamNetwrite k => Sys2Proof.Machine.execStreamNetwrite k s
  | .netwriteAck k seq => Sys2Proof.Machine.execNetwriteAck k seq s
  | .netwriteTimeout k seq => Sys2Proof.Machine.execNetwriteTimeout k seq s
  | .streamEnable req k v => Sys2Proof.Machine.execStreamEnable req k v s
  | .streamDisable req k v => Sys2Proof.Machine.execStreamDisable req k v s
  | .streamResume req k v => Sys2Proof.Machine.execStreamResume req k v s
  | .streamHalt req k v => Sys2Proof.Machine.execStreamHalt req k v s
  | .strCqWrite req k v => Sys2Proof.Machine.execStrCqWrite req k v s
  | .strHeadWrite req k v => Sys2Proof.Machine.execStrHeadWrite req k v s
  | .heartbeat req f v => Sys2Proof.Machine.execHeartbeat req f v s
  | .hostLost f => Sys2Proof.Machine.execHostLost f s
  | .detach req f => Sys2Proof.Machine.execDetach req f s
  | .attach req f => Sys2Proof.Machine.execAttach req f s
  | .hostLossGate p => Sys2Proof.Machine.execHostLossGate p s
  | .ethLinkDown e => Sys2Proof.Machine.execEthLinkDown e s
  | .flitReceive link flit => Sys2Proof.Machine.execFlitReceive link flit s
  | .linkReplay link => Sys2Proof.Machine.execLinkReplay link s
  | .frameReceive link frame => Sys2Proof.Machine.execFrameReceive link frame s
  | .messageRoute link m => Sys2Proof.Machine.execMessageRoute link m s
  | .fabricRead link m => Sys2Proof.Machine.execFabricRead link m s
  | .fabricWrite link m => Sys2Proof.Machine.execFabricWrite link m s
  | .fabricResponse link m => Sys2Proof.Machine.execFabricResponse link m s
  | .fabricRequestTimeout tag => Sys2Proof.Machine.execFabricRequestTimeout tag s
  | .escWaitExpiry link => Sys2Proof.Machine.execEscWaitExpiry link s
  | .wavelengthLoss link w => Sys2Proof.Machine.execWavelengthLoss link w s
  | .wavelengthRetrainEnd link w recovered => Sys2Proof.Machine.execWavelengthRetrainEnd link w recovered s
  | .linkDown link => Sys2Proof.Machine.execLinkDown link s
  | .helloMsg link hello => Sys2Proof.Machine.execHelloMsg link hello s
  | .helloRetry link => Sys2Proof.Machine.execHelloRetry link s
  | .helloRepeat link => Sys2Proof.Machine.execHelloRepeat link s
  | .certMsg link cert => Sys2Proof.Machine.execCertMsg link cert s
  | .linkKem link kem => Sys2Proof.Machine.execLinkKem link kem s
  | .rekey link => Sys2Proof.Machine.execRekey link s
  | .lnkMapSwap => Sys2Proof.Machine.execLnkMapSwap s
  | .lnkCfgWrite req l v => Sys2Proof.Machine.execLnkCfgWrite req l v s
  | .lnkExpectWrite req l v => Sys2Proof.Machine.execLnkExpectWrite req l v s
  | .lnkMapWrite req l v => Sys2Proof.Machine.execLnkMapWrite req l v s
  | .rteEntcWrite req d v => Sys2Proof.Machine.execRteEntcWrite req d v s
  | .rteCfgWrite req v => Sys2Proof.Machine.execRteCfgWrite req v s
  | .eclipseForce req pair v => Sys2Proof.Machine.execEclipseForce req pair v s
  | .eclipseSwitchSettled pair => Sys2Proof.Machine.execEclipseSwitchSettled pair s
  | .markerSend link => Sys2Proof.Machine.execMarkerSend link s
  | .allReduce k => Sys2Proof.Machine.execAllReduce k s
  | .reduceScatter k => Sys2Proof.Machine.execReduceScatter k s
  | .allGather k => Sys2Proof.Machine.execAllGather k s
  | .allToAll k => Sys2Proof.Machine.execAllToAll k s
  | .allToAllv k => Sys2Proof.Machine.execAllToAllv k s
  | .broadcastOp k => Sys2Proof.Machine.execBroadcastOp k s
  | .reduceOp k => Sys2Proof.Machine.execReduceOp k s
  | .barrierOp k => Sys2Proof.Machine.execBarrierOp k s
  | .sendOp k => Sys2Proof.Machine.execSendOp k s
  | .recvOp k => Sys2Proof.Machine.execRecvOp k s
  | .collectiveOpStart g => Sys2Proof.Machine.execCollectiveOpStart g s
  | .chunkGrant => Sys2Proof.Machine.execChunkGrant s
  | .partialMsg link m => Sys2Proof.Machine.execPartialMsg link m s
  | .finalMsg link m => Sys2Proof.Machine.execFinalMsg link m s
  | .dataMsg link m => Sys2Proof.Machine.execDataMsg link m s
  | .creditReqMsg link m => Sys2Proof.Machine.execCreditReqMsg link m s
  | .creditMsg link m => Sys2Proof.Machine.execCreditMsg link m s
  | .ackMsg link m => Sys2Proof.Machine.execAckMsg link m s
  | .nackMsg link m => Sys2Proof.Machine.execNackMsg link m s
  | .countsMsg link m => Sys2Proof.Machine.execCountsMsg link m s
  | .statusMsg link m => Sys2Proof.Machine.execStatusMsg link m s
  | .decisionMsg link m => Sys2Proof.Machine.execDecisionMsg link m s
  | .abortMsg link m => Sys2Proof.Machine.execAbortMsg link m s
  | .collectiveLocalComplete op => Sys2Proof.Machine.execCollectiveLocalComplete op s
  | .chunkResendTimeout op chunk rank => Sys2Proof.Machine.execChunkResendTimeout op chunk rank s
  | .creditRetry op chunk rank => Sys2Proof.Machine.execCreditRetry op chunk rank s
  | .agreementResend op => Sys2Proof.Machine.execAgreementResend op s
  | .agreeTimeout op => Sys2Proof.Machine.execAgreeTimeout op s
  | .collectiveStall op => Sys2Proof.Machine.execCollectiveStall op s
  | .stallAbort op => Sys2Proof.Machine.execStallAbort op s
  | .colGcmdRead req g => Sys2Proof.Machine.execColGcmdRead req g s
  | .colGcmdWrite req g => Sys2Proof.Machine.execColGcmdWrite req g s
  | .activate req g => Sys2Proof.Machine.execActivate req g s
  | .deactivate req g => Sys2Proof.Machine.execDeactivate req g s
  | .reform req g => Sys2Proof.Machine.execReform req g s
  | .fatalToPartition p unit code addr => Sys2Proof.Machine.execFatalToPartition p unit code addr s
  | .fatalToDevice unit code addr => Sys2Proof.Machine.execFatalToDevice unit code addr s
  | .errorRingEnable req r v => Sys2Proof.Machine.execErrorRingEnable req r v s
  | .umbraFoldWindow p => Sys2Proof.Machine.execUmbraFoldWindow p s
  | .umbraWindowApply p => Sys2Proof.Machine.execUmbraWindowApply p s
  | .umbApply req p => Sys2Proof.Machine.execUmbApply req p s
  | .umbDiscard req p => Sys2Proof.Machine.execUmbDiscard req p s
  | .umbRebuild req p idx => Sys2Proof.Machine.execUmbRebuild req p idx s
  | .umbResume req p => Sys2Proof.Machine.execUmbResume req p s
  | .umbSetWrite req p v => Sys2Proof.Machine.execUmbSetWrite req p v s
  | .arbCommit req d => Sys2Proof.Machine.execArbCommit req d s
  | .prtCreate req p => Sys2Proof.Machine.execPrtCreate req p s
  | .prtSeal req p => Sys2Proof.Machine.execPrtSeal req p s
  | .prtDestroy req p => Sys2Proof.Machine.execPrtDestroy req p s
  | .prtZero req p => Sys2Proof.Machine.execPrtZero req p s
  | .zeroComplete => Sys2Proof.Machine.execZeroComplete s
  | .secZeroize req => Sys2Proof.Machine.execSecZeroize req s
  | .secFail test => Sys2Proof.Machine.execSecFail test s
  | .attest req f p => Sys2Proof.Machine.execAttest req f p s
  | .getcert req f => Sys2Proof.Machine.execGetcert req f s
  | .unseal req f p => Sys2Proof.Machine.execUnseal req f p s
  | .openSession ep msg => Sys2Proof.Machine.execOpenSession ep msg s
  | .acceptMsg ep msg => Sys2Proof.Machine.execAcceptMsg ep msg s
  | .sessionRead ep msg => Sys2Proof.Machine.execSessionRead ep msg s
  | .sessionWrite ep msg => Sys2Proof.Machine.execSessionWrite ep msg s
  | .sessionWindow ep msg => Sys2Proof.Machine.execSessionWindow ep msg s
  | .sessionNop ep msg => Sys2Proof.Machine.execSessionNop ep msg s
  | .closeSession ep msg => Sys2Proof.Machine.execCloseSession ep msg s
  | .sessionIdleTimeout sess => Sys2Proof.Machine.execSessionIdleTimeout sess s
  | .sessionLifetimeExpiry sess => Sys2Proof.Machine.execSessionLifetimeExpiry sess s
  | .fwStage req => Sys2Proof.Machine.execFwStage req s
  | .fwTransit req allow => Sys2Proof.Machine.execFwTransit req allow s
  | .transitCommit fail => Sys2Proof.Machine.execTransitCommit fail s
  | .fwAbort req => Sys2Proof.Machine.execFwAbort req s
  | .flashWrite req => Sys2Proof.Machine.execFlashWrite req s
  | .flashRewrite fails => Sys2Proof.Machine.execFlashRewrite fails s
  | .ucodeSwap core bad => Sys2Proof.Machine.execUcodeSwap core bad s
  | .fwWindowWrite req off data => Sys2Proof.Machine.execFwWindowWrite req off data s
  | .beginImage req => Sys2Proof.Machine.execBeginImage req s
  | .beginConfig req => Sys2Proof.Machine.execBeginConfig req s
  | .recoveryWrite req => Sys2Proof.Machine.execRecoveryWrite req s
  | .recoveryEnd req => Sys2Proof.Machine.execRecoveryEnd req s
  | .recoveryReboot req => Sys2Proof.Machine.execRecoveryReboot req s
  | .recoveryEnter req => Sys2Proof.Machine.execRecoveryEnter req s
  | .rollbackIncrement req v => Sys2Proof.Machine.execRollbackIncrement req v s
  | .sealpolChange req v => Sys2Proof.Machine.execSealpolChange req v s
  | .fwComponentFault cap => Sys2Proof.Machine.execFwComponentFault cap s
  | .fwKernelRestart => Sys2Proof.Machine.execFwKernelRestart s
  | .handoverRecord cap body => Sys2Proof.Machine.execHandoverRecord cap body s
  | .ucodeRound lost => Sys2Proof.Machine.execUcodeRound lost s
  | .ucodeDigestCheck bad => Sys2Proof.Machine.execUcodeDigestCheck bad s
  | .ucodeNack core => Sys2Proof.Machine.execUcodeNack core s
  | .stageS0 env t => Sys2Proof.Machine.execStageS0 env t s
  | .stageS1 env t => Sys2Proof.Machine.execStageS1 env t s
  | .stageS2 env t => Sys2Proof.Machine.execStageS2 env t s
  | .stageS3 env t => Sys2Proof.Machine.execStageS3 env t s
  | .stageS4 env t => Sys2Proof.Machine.execStageS4 env t s
  | .stageS5 env t => Sys2Proof.Machine.execStageS5 env t s
  | .stageS6 env t => Sys2Proof.Machine.execStageS6 env t s
  | .stageS7 t => Sys2Proof.Machine.execStageS7 t s
  | .stageS8 t => Sys2Proof.Machine.execStageS8 t s
  | .resetCore req target => Sys2Proof.Machine.execResetCore req target s
  | .resetCluster req target => Sys2Proof.Machine.execResetCluster req target s
  | .resetPartition req target => Sys2Proof.Machine.execResetPartition req target s
  | .resetDevice req => Sys2Proof.Machine.execResetDevice req s
  | .resetDone => Sys2Proof.Machine.execResetDone s
  | .pkgRstNAssert ns => Sys2Proof.Machine.execPkgRstNAssert ns s
  | .pkgRstNDeassert => Sys2Proof.Machine.execPkgRstNDeassert s
  | .setpointWrite req src v => Sys2Proof.Machine.execSetpointWrite req src v s
  | .leaseExpiry src => Sys2Proof.Machine.execLeaseExpiry src s
  | .governorTick ps pd => Sys2Proof.Machine.execGovernorTick ps pd s
  | .rampWindow est meas => Sys2Proof.Machine.execRampWindow est meas s
  | .parkGate => Sys2Proof.Machine.execParkGate s
  | .stackSelfRefresh stack => Sys2Proof.Machine.execStackSelfRefresh stack s
  | .avsbusPoll rails => Sys2Proof.Machine.execAvsbusPoll rails s
  | .haloTempSample env => Sys2Proof.Machine.execHaloTempSample env s
  | .dminRelease => Sys2Proof.Machine.execDminRelease s
  | .overcurrentHoldEnd => Sys2Proof.Machine.execOvercurrentHoldEnd s
  | .clockFault die => Sys2Proof.Machine.execClockFault die s
  | .watchdogKick => Sys2Proof.Machine.execWatchdogKick s
  | .watchdogExpiry => Sys2Proof.Machine.execWatchdogExpiry s
  | .lockstepMismatch => Sys2Proof.Machine.execLockstepMismatch s
  | .safetySelfCheck seen pinOk => Sys2Proof.Machine.execSafetySelfCheck seen pinOk s
  | .safReq req => Sys2Proof.Machine.execSafReq req s
  | .openFibreDetect link => Sys2Proof.Machine.execOpenFibreDetect link s
  | .ofcProbe link light => Sys2Proof.Machine.execOfcProbe link light s
  | .vddHaloLow => Sys2Proof.Machine.execVddHaloLow s
  | .vddEclLoss => Sys2Proof.Machine.execVddEclLoss s
  | .i3cRead off => Sys2Proof.Machine.execI3cRead off s
  | .i3cWrite off v => Sys2Proof.Machine.execI3cWrite off v s
  | .entdaa addr => Sys2Proof.Machine.execEntdaa addr s
  | .tailPacketAdmit b pkt => Sys2Proof.Machine.execTailPacketAdmit b pkt s
  | .postWindowEnd b => Sys2Proof.Machine.execPostWindowEnd b s
  | .crashFreeze b => Sys2Proof.Machine.execCrashFreeze b s
  | .syncPacket d => Sys2Proof.Machine.execSyncPacket d s
  | .trcEnable req b v => Sys2Proof.Machine.execTrcEnable req b v s
  | .trcStop req b v => Sys2Proof.Machine.execTrcStop req b v s
  | .trcRearm req b => Sys2Proof.Machine.execTrcRearm req b s
  | .trcTrigger req b => Sys2Proof.Machine.execTrcTrigger req b s
  | .samplerEnable req r v => Sys2Proof.Machine.execSamplerEnable req r v s
  | .samplerSnapshot r => Sys2Proof.Machine.execSamplerSnapshot r s
  | .numericWatchClear req v => Sys2Proof.Machine.execNumericWatchClear req v s
  | .debugHalt req core => Sys2Proof.Machine.execDebugHalt req core s
  | .debugResume req core => Sys2Proof.Machine.execDebugResume req core s
  | .debugStep req core => Sys2Proof.Machine.execDebugStep req core s
  | .coreDregWrite req core ix v => Sys2Proof.Machine.execCoreDregWrite req core ix v s
  | .rcRead req off len => Sys2Proof.Machine.execRcRead req off len s
  | .partitionCounterRead p off => Sys2Proof.Machine.execPartitionCounterRead p off s
  | .registerWrite req off data => Sys2Proof.Machine.execRegisterWrite req off data s
  | .fecLock link => Sys2Proof.Machine.execFecLock link s
  | .ethLinkUp e => Sys2Proof.Machine.execEthLinkUp e s
  | .responseMsg ep msg => Sys2Proof.Machine.execResponseMsg ep msg s
  | .unsealComplete f => Sys2Proof.Machine.execUnsealComplete f s
  | .destroyComplete => Sys2Proof.Machine.execDestroyComplete s
  | .hclkFault => Sys2Proof.Machine.execHclkFault s
  | .vddHaloUp => Sys2Proof.Machine.execVddHaloUp s
  | .spdmIdeKm msg ok => Sys2Proof.Machine.execSpdmIdeKm msg ok s
  | .globalPersistentFlush => Sys2Proof.Machine.execGlobalPersistentFlush s
  | .jtagInstructionLoad ins => Sys2Proof.Machine.execJtagInstructionLoad ins s

end Sys2Proof.Machine
end

