-- ==== Sys2Proof/Safety.lean ====
section
/-! DEFINITION. What claims are stated in: the canonical forms, what may never go back, a core that issues, and what a command leaves alone. -/

namespace Sys2Proof.Safety

open Sys2Proof.Machine

/-! ### Invariants -/

/-- The memory of the state is in its canonical form. -/
def MemCanonical (s : State) : Prop := Memory.wf s.mem = true

/-- Write-limited counters of the second state are at least those of the first (R382, R397), and an OWNER that is fused stays (R379). -/
def FusesGrow (s t : State) : Prop :=
  s.fuses.rollback ≤ t.fuses.rollback ∧ s.fuses.haloUsed ≤ t.fuses.haloUsed ∧ s.fuses.sealUsed ≤ t.fuses.sealUsed
  ∧ ∀ o, s.fuses.owner = some o → t.fuses.owner = some o

/-! ### What a command leaves alone -/

/-- The register word at an offset of the register space. -/
def word (s : State) (off : Nat) : Word := Sparse.getD regReset s.regs off

/-- Every register outside these offsets reads as before. -/
def RegsBut (s t : State) (offs : List Nat) : Prop := ∀ off, off ∉ offs → word t off = word s off

/-- Every core but `n` is as before. -/
def CoresBut (s t : State) (n : Nat) : Prop := ∀ m, m ≠ n → t.core m = s.core m

/-- Every byte outside `len` bytes from `a` reads as before. -/
def MemBut (s t : State) (a len : Nat) : Prop := ∀ x, (x < a ∨ a + len ≤ x) → t.getByte x = s.getByte x

/-! ### A core that issues -/

/-- Core `n` issues what comes next: it runs an instance that can issue, under no STEP and at no enabled breakpoint (R39, R466). -/
def Issues (s : State) (n : Nat) : Prop :=
  s.canIssue n = true ∧ (s.core n).step = false ∧ s.breakpoint n = none

/-- No register in `rd` is still to be written by a vector operation, and none in `wr` is still to be read or written by a queued operation (R39). -/
def Ready (c : CoreS) (rd wr : List Nat) : Prop :=
  (∀ r ∈ rd, r ∉ c.unwritten) ∧ (∀ r ∈ wr, r ∉ c.unwritten ∧ r ∉ c.unread)

/-- The next bundle lies in the region that the microcode mode bit allows (R41). -/
def InRegion (umode : Bool) (pc : Nat) : Prop := if umode = true then pc < 1024 else 1024 ≤ pc ∧ pc < 8192

/-- A bundle has issued on core `n`, which stands at `c` now: CNT_CBUND counts it and nothing else of the device has changed. -/
def Issued (s t : State) (n : Nat) (c : CoreS) : Prop :=
  t.core n = c ∧ CoresBut s t n
  ∧ t.reg (.cntCbund n) = (s.reg (.cntCbund n) + 1) % 2 ^ 64 ∧ RegsBut s t [(Reg.cntCbund n).off]
  ∧ { t with cores := s.cores, regs := s.regs } = s

/-- As Issued, and `len` bytes of the core's scratchpad from `off` may have changed. -/
def IssuedStoring (s t : State) (n : Nat) (c : CoreS) (off len : Nat) : Prop :=
  t.core n = c ∧ CoresBut s t n
  ∧ t.reg (.cntCbund n) = (s.reg (.cntCbund n) + 1) % 2 ^ 64 ∧ RegsBut s t [(Reg.cntCbund n).off]
  ∧ MemBut s t (spmAddr n off) len ∧ { t with cores := s.cores, regs := s.regs, mem := s.mem } = s

/-- Of the arbiters only those of core `n`'s scratchpad banks may have decided (R171, R334). -/
def BanksOnly (s t : State) (n : Nat) : Prop := ∀ ty u, (ty ≠ 0 ∨ u < 64 * n ∨ 64 * n + 64 ≤ u) → t.arb ty u = s.arb ty u

/-- As Issued, where the bundle moves scratchpad lines, each granted by its bank (R171, R338). -/
def IssuedMove (s t : State) (n : Nat) (c : CoreS) : Prop := Issued s { t with arbs := s.arbs } n c ∧ BanksOnly s t n

/-- As IssuedStoring, with its banks. -/
def IssuedStore (s t : State) (n : Nat) (c : CoreS) (off len : Nat) : Prop := IssuedStoring s { t with arbs := s.arbs } n c off len ∧ BanksOnly s t n

/-! ### Tables and results the statements name -/

/-- The register-form operations of R43 with their results. -/
def aluTable : List ((Fin 384 → Fin 64 → Fin 64 → Fin 64 → Instr) × (Word → Word → Word)) :=
  [(.add, fun a b => a + b), (.sub, fun a b => a - b), (.and, fun a b => a &&& b), (.or, fun a b => a ||| b), (.xor, fun a b => a ^^^ b),
   (.shl, fun a b => a <<< (b.toNat % 64)), (.shr, fun a b => a >>> (b.toNat % 64)), (.sra, fun a b => a.sshiftRight (b.toNat % 64)),
   (.mul, fun a b => a * b), (.min, fun a b => if a.slt b then a else b), (.max, fun a b => if a.slt b then b else a),
   (.slt, fun a b => if a.slt b then 1 else 0), (.sltu, fun a b => if a.ult b then 1 else 0)]

/-- The immediate forms, in the same order. -/
def aluImmTable : List ((Fin 384 → Fin 64 → Fin 64 → BitVec 28 → Instr) × (Word → Word → Word)) :=
  [(.addImm, fun a b => a + b), (.subImm, fun a b => a - b), (.andImm, fun a b => a &&& b), (.orImm, fun a b => a ||| b), (.xorImm, fun a b => a ^^^ b),
   (.shlImm, fun a b => a <<< (b.toNat % 64)), (.shrImm, fun a b => a >>> (b.toNat % 64)), (.sraImm, fun a b => a.sshiftRight (b.toNat % 64)),
   (.mulImm, fun a b => a * b), (.minImm, fun a b => if a.slt b then a else b), (.maxImm, fun a b => if a.slt b then b else a),
   (.sltImm, fun a b => if a.slt b then 1 else 0), (.sltuImm, fun a b => if a.ult b then 1 else 0)]

/-- A core of which register `r` is written with `v` and the PC is `pc`; a write of s0 is discarded (R37). -/
def coreTo (c : CoreS) (r : Nat) (v : Word) (pc : Nat) : CoreS := { c.setReg r v with pc := pc, waiting := false }

/-- The conditional branches of R43 with their conditions on RS1. -/
def branchTable : List ((Fin 384 → Fin 64 → BitVec 28 → Instr) × (Word → Bool)) :=
  [(.beqz, fun a => a == 0), (.bnez, fun a => a != 0), (.bltz, fun a => a.slt 0), (.bgez, fun a => !a.slt 0)]

/-- A core whose PC is `pc`, with the microcode mode bit `um`, and that waits for nothing. -/
def goTo (c : CoreS) (pc : Nat) (um : Bool) : CoreS := { c with pc := pc, umode := um, waiting := false }

/-- The address of a move operation: a[AB] + IMM32 sign-extended (R45). -/
def moveAddr (c : CoreS) (ab : Fin 16) (imm : BitVec 32) : Int := (c.reg (32 + ab)).toInt + imm.toInt

/-- `off` is the scratchpad offset of a move operation that touches `len` bytes at alignment `al` (R45). -/
def MoveAt (c : CoreS) (ab : Fin 16) (imm : BitVec 32) (len al off : Nat) : Prop :=
  moveAddr c ab imm = off ∧ off + len ≤ 0x200000 ∧ off % al = 0

/-- A core whose instance is as in `i` and which issues at the next PC. -/
def stepped (c : CoreS) : CoreS := goTo c (c.pc + 1) c.umode

/-- Core `n` issues, and its next bundle lies where the mode bit allows. -/
def IssuesHere (s : State) (n : Nat) : Prop := Issues s n ∧ InRegion (s.core n).umode ((s.core n).pc + 1)

/-! ### The engines of a core -/

/-- Fields that observers write: Tail packets on their way and the buffers' loss counts (R447, R452). -/
def seenAs (s t : State) : State := { t with tailq := s.tailq, tbufs := s.tbufs }

/-- Everything but cores, registers and what observers hold is as before. -/
def RestSame (s t : State) : Prop := { seenAs s t with cores := s.cores, regs := s.regs } = s

/-- Offsets of TRC_BLOSS, where the buffers count what they lose (R452). -/
def lossOffs : List Nat := (List.range 9).map fun b => (Reg.trcBloss b).off

/-- The matrix or vector engine of core `n` starts commands (R80, R156). -/
def EngineRuns (s : State) (n : Nat) : Prop :=
  (s.core n).inst.isSome = true ∧ (s.core n).fault = none ∧ s.unitsRun n = true

/-- The vector operation `q` with opcode `op`, legal, heads the queue of core `n`. -/
def VecHead (s : State) (n op : Nat) (q : QCmd) (rest : List QCmd) : Prop :=
  (s.core n).vq = q :: rest ∧ vcOp q.slot = op ∧ vcLegal q.slot = true ∧ EngineRuns s n

/-- The operation `q` has started on core `n`: elements 0 to `cnt - 1`, of `w` bytes, of its destination hold `f`, the rest of the vector registers and of the core's state is as before, and beside the core only VXE_FLAGS and observers may differ. -/
def VecWrites (s t : State) (n : Nat) (q : QCmd) (rest : List QCmd) (w cnt : Nat) (f : Nat → Nat) : Prop :=
  (∀ i, i < cnt → (t.core n).velem (vcVd q.slot) w i = f i % 2 ^ (8 * w))
  ∧ (∀ v b, v < 32 → b < 8192 → (v ≠ vcVd q.slot ∨ cnt * w ≤ b) → (t.core n).vbytes v b 1 = (s.core n).vbytes v b 1)
  ∧ (t.core n).vq = rest ∧ (t.core n).vrun = (s.core n).vrun ++ [⟨vcWrites q.slot, vcSig q.slot, vcOp q.slot⟩]
  ∧ { t.core n with vr := (s.core n).vr, vq := (s.core n).vq, vrun := (s.core n).vrun } = s.core n
  ∧ CoresBut s t n ∧ RegsBut s t ((Reg.vxeFlags n).off :: lossOffs) ∧ { seenAs s t with cores := s.cores, regs := s.regs, free := s.free } = s

/-- The exact results of the floating-point operations that round (R148, R149), of VA[i], VB[i] and VC[i]. -/
def fpTable : List ((Fin 384 → Instr) × Nat × (Machine.Num → Machine.Num → Machine.Num → Machine.Num)) :=
  [(.vadd, 0x01, fun a b _ => Machine.Num.add a b), (.vsub, 0x02, fun a b _ => Machine.Num.sub a b), (.vmul, 0x03, fun a b _ => Machine.Num.mul a b),
   (.vfma, 0x04, fun a b c => Machine.Num.add (Machine.Num.mul a b) c), (.vdiv, 0x09, fun a b _ => Machine.Num.div a b), (.vsqrt, 0x0A, fun a _ _ => Machine.Num.sqrt a)]

/-- Those that give one of the operands, or it with another sign. -/
def fpPickTable : List ((Fin 384 → Instr) × Nat × (Machine.Num → Machine.Num → Machine.Num)) :=
  [(.vmin, 0x05, numMin), (.vmax, 0x06, numMax), (.vabs, 0x07, fun a _ => a.abs), (.vneg, 0x08, fun a _ => a.neg)]

/-- The integer operations, modulo 2^32 (R149); `sg` says that the TYPE is INT32. -/
def intTable : List ((Fin 384 → Instr) × Nat × (Bool → BitVec 32 → BitVec 32 → BitVec 32 → BitVec 32)) :=
  [(.vadd, 0x01, fun _ a b _ => a + b), (.vsub, 0x02, fun _ a b _ => a - b), (.vmul, 0x03, fun _ a b _ => a * b), (.vfma, 0x04, fun _ a b c => a * b + c),
   (.vmin, 0x05, fun sg a b _ => if (if sg then a.slt b else a.ult b) then a else b), (.vmax, 0x06, fun sg a b _ => if (if sg then a.slt b else a.ult b) then b else a),
   (.vabs, 0x07, fun _ a _ _ => if a.msb then -a else a), (.vneg, 0x08, fun _ a _ _ => -a),
   (.vshl, 0x10, fun _ a b _ => a <<< (b.toNat % 32)), (.vshr, 0x11, fun sg a b _ => if sg then a.sshiftRight (b.toNat % 32) else a >>> (b.toNat % 32))]

/-- The operations that move bits (R148); `o` gives the operands. -/
def moveTable : List ((Fin 384 → Instr) × Nat × (VOp → Nat → Nat)) :=
  [(.vsel, 0x0C, fun o i => if o.c.velem (vcVc o.x) 4 i ≠ 0 then o.a i else o.b i), (.vand, 0x0D, fun o i => o.a i &&& o.b i),
   (.vor, 0x0E, fun o i => o.a i ||| o.b i), (.vxor, 0x0F, fun o i => o.a i ^^^ o.b i),
   (.viota, 0x12, fun o i => (o.s 0 + i) % 2 ^ 32),
   (.vperm, 0x38, fun o i => if vcN o.x ≤ o.c.velem (vcVb o.x) 4 i then 0 else o.a (o.c.velem (vcVb o.x) 4 i)),
   (.vbcast, 0x39, fun o _ => o.a (((o.c.reg (vcRs o.x)).toInt + vcFn o.x) % ((8192 / o.w : Nat) : Int)).toNat),
   (.vslide, 0x3A, fun o i => o.a (((i : Int) + (o.c.reg (vcRs o.x)).toInt) % (vcN o.x : Int)).toNat),
   (.vrbits, 0x48, fun o i => o.rand i 0)]

/-- The reductions (R152): the exact value of the elements of VA. -/
def reduceTable : List ((Fin 384 → Instr) × Nat × (List Machine.Num → Machine.Num)) :=
  [(.vrsum, 0x30, fun l => Machine.Num.sum (.fin true 0 0) l), (.vrssq, 0x31, fun l => Machine.Num.sum (.fin true 0 0) (l.map fun v => Machine.Num.mul v v))]

/-- The reductions to an extreme. -/
def extremeTable : List ((Fin 384 → Instr) × Nat × (Machine.Num → Machine.Num → Machine.Num)) := [(.vrmax, 0x32, numMax), (.vrmin, 0x33, numMin)]

/-- The transcendental operations (R151) with their opcodes. -/
def transTable : List ((Fin 384 → Instr) × Nat) :=
  [(.vexp, 0x20), (.vexp2, 0x21), (.vlog, 0x22), (.vlog2, 0x23), (.vrcp, 0x24), (.vrsqrt, 0x25), (.vtanh, 0x26), (.vsigm, 0x27),
   (.vsin, 0x28), (.vcos, 0x29), (.verf, 0x2A), (.vgelut, 0x2B), (.vgelue, 0x2C), (.vsilu, 0x2D)]

/-- The atomic operations on 32-bit targets (R185) with their results. -/
def atomTable : List ((BitVec 40 → BitVec 32 → Instr) × (Nat → Nat → Nat)) :=
  [(.fadd32, fun old x => fmtFP32.rne (Machine.Num.add (fmtFP32.dec old) (fmtFP32.dec x))),
   (.fmin32, fun old x => fmtFP32.rne (numMin (fmtFP32.dec old) (fmtFP32.dec x))),
   (.fmax32, fun old x => fmtFP32.rne (numMax (fmtFP32.dec old) (fmtFP32.dec x))),
   (.umin32, fun old x => min old x), (.umax32, fun old x => max old x)]

/-- An atomic of `w` bytes at `a` is served at once: stacked memory, aligned, backed and clean, in no host's cache, its MCH not retraining, and no earlier request to its line waits (R180, R184, R188, R206, R210). -/
def AtomReady (s : State) (a w : Nat) : Prop :=
  a < 0xC000000000 ∧ a % w = 0 ∧ s.backed a = true ∧ s.poisonedAt a = false ∧ s.snoopNeeded (a / 64 * 64) true = false ∧ s.lineHeld (a / 64 * 64) = false
    ∧ s.retraining (s.homeOf (a / 64 * 64)) = false

/-- What memory requests leave beside memory and their answers: LLC tags, replacement state, stacks brought out of self-refresh, and what decided between requests. -/
def SliceSame (s t : State) : Prop := { t with mem := s.mem, resp := s.resp, llc := s.llc, plru := s.plru, pow := s.pow, arbs := s.arbs, mslots := s.mslots } = s

/-- The answer of an atomic is the old value, `w` bytes at `a` hold the new one and every other backed byte is as before. -/
def AtomDone (s t : State) (a w new : Nat) : Prop :=
  t.resp = ⟨stOK, leBytes w (leVal (s.getBytes a w))⟩ ∧ t.getBytes a w = leBytes w new
  ∧ (∀ x, (x < a ∨ a + w ≤ x) → s.backed x = true → t.getByte x = s.getByte x)
  ∧ SliceSame s t

/-- MEM_LIVE names as many MCHs as MEM_MAP.N counts, unless none is retired (R213). -/
def MapOk (s : State) : Prop := s.mapN = 768 ∨ s.liveList.length = s.mapN

/-- Core `n` becomes `c` and nothing else of the device changes. -/
def CoreBecomes (s t : State) (n : Nat) (c : CoreS) : Prop := t.core n = c ∧ CoresBut s t n ∧ { t with cores := s.cores } = s

/-- What R151 asks of the FP32 result `r` of a transcendental opcode on an operand `x` outside the special cases of its table row: within the bound of the row, or the nearest value; beyond the range +infinity. -/
def TransBound (op : Nat) (s : Bool) (m : Nat) (e : Int) (r : Nat) : Prop :=
  r = fmtFP32.rne (transVal op s m e)
  ∨ ∃ q, (∃ u k j, transVal op s m e = .fin u k j ∧ q = fmtFP32.quantum k j)
      ∧ within (match fmtFP32.dec r with | .inf z => Machine.Num.fin z 1 128 | v => v) (transVal op s m e) (transUlps op) q = true

/-- The special cases of R151: an operand and the result that the table states. -/
def transSpecial : List (Nat × Machine.Num × Nat) :=
  let inf := fmtFP32.infBits
  [(0x20, .inf true, 0), (0x20, .inf false, inf false), (0x21, .inf true, 0), (0x21, .inf false, inf false),
   (0x22, .inf false, inf false), (0x22, .inf true, fmtFP32.canonNan), (0x23, .inf false, inf false), (0x23, .inf true, fmtFP32.canonNan),
   (0x24, .inf false, 0), (0x24, .inf true, 2 ^ 31), (0x25, .inf false, 0), (0x25, .inf true, fmtFP32.canonNan),
   (0x26, .inf false, 0x3F800000), (0x26, .inf true, 0xBF800000), (0x27, .inf false, 0x3F800000), (0x27, .inf true, 0),
   (0x28, .inf false, fmtFP32.canonNan), (0x28, .inf true, fmtFP32.canonNan), (0x29, .inf false, fmtFP32.canonNan), (0x29, .inf true, fmtFP32.canonNan),
   (0x2A, .inf false, 0x3F800000), (0x2A, .inf true, 0xBF800000), (0x2B, .inf false, inf false), (0x2B, .inf true, 2 ^ 31),
   (0x2C, .inf false, inf false), (0x2C, .inf true, 2 ^ 31), (0x2D, .inf false, inf false), (0x2D, .inf true, 2 ^ 31)]

/-- The matrix command `q` with opcode `op` heads the queue of core `n`. -/
def MxHead (s : State) (n op : Nat) (q : QCmd) (rest : List QCmd) : Prop :=
  (s.core n).mq = q :: rest ∧ mxOp q.slot = op ∧ EngineRuns s n

/-- A tile descriptor of core `n` as the queued command `q` reads it (R39, R40). -/
def tileOf (s : State) (n : Nat) (q : QCmd) (i : Nat) : Tile := Tile.ofBits (((s.core n).seenBy q).tile i).toNat

/-- The passes of an MSTREAM over a tile (R93). -/
def streamPasses (c : CoreS) (t : Tile) : List (Nat × Nat) := if t.fmt = 2 then passPairs c.mcfg.passes else [(0, 0)]

/-- A row of A as the products see it. -/
def streamRow (s : State) (n : Nat) (t : Tile) (i : Nat) : List Machine.Num := (List.range (s.core n).act.kx).map fun p => s.aVal n t i p

/-- An accumulator cell: row `r`, column `k`, column 64 the checksum. -/
def accAt (c : CoreS) (r k : Nat) : Nat := Sparse.getD (fun _ => 0) c.acc (r * 65 + k)

/-- A byte lies in none of the ranges. -/
def outside (rs : List (Nat × Nat)) (b : Nat) : Prop := ∀ r ∈ rs, b < r.1 ∨ r.1 + r.2 ≤ b

/-! ### Core DMA -/

/-- A descriptor at the head of queue `q` that has not been checked, no generator busy, no other queue waiting; the checks of R54 pass with the index list `idx`, and the whole descriptor lies before its first preemption point (R341). -/
def DmaReady (s : State) (n : Nat) (q : Fin 8) (op : Nat) (i : KInst) (j : DmaJob) (idx : List Nat) : Prop :=
  s.dmaRuns n = true ∧ (s.core n).inst = some i ∧ (s.core n).dmaHead q = some j ∧ j.checked = false ∧ j.done = 0 ∧ dOp j.desc = op
  ∧ isAlias (dDst j.desc) = false ∧ s.dmaCheck n i.part i.vcore j.desc = .ok idx
  ∧ (s.core n).gens = [⟨none, 0⟩, ⟨none, 0⟩] ∧ (∀ p : Fin 8, p ≠ q → (s.core n).dmaHead p = none)
  ∧ 0 < dTotal j.desc ∧ dTotal j.desc * dBytes j.desc ≤ 4096

/-- `x` is the place of a DMA address in the scratchpad of a good core that is under no reset, with `w` bytes that no command fills and no drain writes (R53, R56, R115, R416). -/
def SpmPlace (s : State) (p a w x : Nat) : Prop :=
  ∃ n o, s.dmaPhys p a = some x ∧ x = spmAddr n o ∧ n < 384 ∧ s.coreGood n = true ∧ s.resetting.contains n = false ∧ o + w ≤ 0x200000
    ∧ s.inFlux x w = false ∧ s.inDrain x w = false

/-- The bytes of two elements share none. -/
def apart (a b w : Nat) : Prop := a + w ≤ b ∨ b + w ≤ a

/-- The DMA rows with their opcodes (R52). -/
def dmaTable : List ((Fin 384 → Fin 8 → Instr) × Nat) := [(.dmaCopy, 0), (.dmaGather, 1), (.dmaScatter, 2), (.dmaFill, 3)]

/-! ### Records, register writes, memory requests -/

/-- Offsets that making a record or a Tail packet counts in: MGT_ERRSTAT and TRC_BLOSS (R317, R452). -/
def reportOffs : List Nat := lossOffs ++ (List.range 9).map fun r => (Reg.mgtErrstat r).off

/-- No error ring is enabled, so that records are held, kept and counted but written to no memory (R317). -/
def RingsOff (s : State) : Prop := ∀ r, r < 9 → s.fbit (F.mgtErrbase_EN r) = false

/-- `t` is `u` but for what making error records and Tail packets writes (R315-R318, R446). -/
def Reported (u t : State) : Prop :=
  RegsBut u t reportOffs ∧ (RingsOff u → t.mem = u.mem)
  ∧ { seenAs u t with regs := u.regs, mem := u.mem, err := u.err, outbox := u.outbox } = u

/-- The newest record of a unit and code was made in the step from `s` and has no occurrence after it (R315, R316). -/
def Records (s t : State) (unit code : Nat) : Prop :=
  Sparse.find t.err.last (unit * 256 + code) = some (s.now (dieOfUnit unit), 0)

/-- A write of `v` by `q` reaches the effect of register `r` (R13-R16, R384, R491, R495): its block answers, the requester may write it, its view has the operator's access codes but for fields that the write does not change, and no seal freezes it. -/
def Reaches (s : State) (q : Req) (r : Reg) (v : Nat) : Prop :=
  badCap q = false ∧ Reg.ofOff r.off = some r ∧ s.regUp q r = true ∧ s.regResetting r = false ∧ s.prtWaits q r.off = false ∧ s.setLocked r = false
  ∧ (∀ p, q = .vf p → s.partSees p r = true) ∧ s.capMay q r.off r = true ∧ (isRwh r = true → s.isHalo q = true)
  ∧ (∃ f ∈ r.layout, (s.accOf q r f).writes = true)
  ∧ (∀ f ∈ r.layout, s.accOf q r f = f.op ∨ (f.op = .rw ∧ bitsOf v f.hi f.lo = bitsOf (s.reg r) f.hi f.lo)) ∧ s.sealDenies r (s.merged q r v) = false

/-- Registers whose write does nothing but take its fields. -/
def takesFields : Reg → Bool
  | .cntShead _ | .mgtErrhead _ | .rtePrimary _ | .rteDetour _ | .prtRgnB _ _ | .prtCmdarg | .mbxArg _ _ | .colGdata0 | .colGdata1 | .colGdata2 | .colGdata3
  | .safProp0 | .safProp1 | .umbRange _ | .mxeCkctl _ | .trcTrig _ _ => true
  | _ => false

/-- The value that a field has in a word. -/
def inWord (f : Fld) (v : Nat) : Nat := bitsOf v f.hi f.lo

/-- A request for `len` bytes at `a` of stacked memory that its slices serve at once: backed, clean, in no host's cache, no MCH of its lines retraining, no earlier request to them waiting, and no command fills it (R163, R174, R180, R188, R206, R210). -/
def SliceReady (s : State) (a len : Nat) (write : Bool) : Prop :=
  0 < len ∧ a + len ≤ 0xC000000000 ∧ (∀ x, a / 64 * 64 ≤ x → x < a + len → s.backed x = true ∧ s.poisonedAt x = false)
  ∧ s.snoopLines a len write = [] ∧ (∀ l ∈ lines64 a len, s.lineHeld l = false ∧ s.retraining (s.homeOf l) = false) ∧ s.inFlux a len = false

/-- Nothing waits for memory beside slices and streams: no collective moves data and no group or Umbra command runs (R188, R210). -/
def Rested (s : State) : Prop :=
  (∀ o ∈ s.cops, o.st ≠ 1) ∧ s.fbit F.colGcmd_GO = false ∧ ∀ p, p < 8 → s.fbit (F.umbCmd_GO p) = false

/-- The slice of MCH `m` holds no request. -/
def NoneHeld (s : State) (m : Nat) : Prop := (s.mch m).held = [] ∧ (s.mch m).net = []

/-- Every backed byte outside `len` bytes from `a` reads as before. -/
def BackedBut (s t : State) (a len : Nat) : Prop := ∀ x, (x < a ∨ a + len ≤ x) → s.backed x = true → t.getByte x = s.getByte x

/-- The STATE of an MCH: 0 ACTIVE, 1 DEGRADED, 2 retraining, 3 retired, 4 untrained (R215). -/
def mchState (s : State) (m : Nat) : Nat := s.fget (F.memMchStat_STATE m)

/-- The MCHs that are not retired, in ascending order. -/
def liveMchs (s : State) : List Nat := (List.range 768).filter fun m => decide (mchState s m ≠ 3)

/-! ### Streams -/

/-- The address of the next slot of stream `k`'s completion ring (R237). -/
def cqSlot (s : State) (k : Nat) : Nat := s.fget (F.strCq_BASE k) + (s.str k).cqn % 2 ^ s.fget (F.strCq_LOG2N k) * 32

/-- A record of stream `k` reaches its completion ring in stacked memory: the device is not FAILED, no log takes it (R241, R314), no record waits before it and a slot is free (R225), the slot is backed, clean and in no host's cache, and no duplicate waits (R231). -/
def CqReady (s : State) (k : Nat) : Prop :=
  s.failed = false ∧ s.strLogs k = false ∧ MapOk s ∧ cqSlot s k + 32 ≤ 0xC000000000 ∧ (s.str k).dupWait = [] ∧ (s.str k).cqWait = [] ∧ s.cqFull k = false
  ∧ s.snoopLines (cqSlot s k) 32 true = []
  ∧ ∀ x, cqSlot s k / 64 * 64 ≤ x → x < cqSlot s k + 32 → s.backed x = true ∧ s.poisonedAt x = false

/-- The record `r` stands in the next slot with its PHASE, one more completion is counted, and IRQ's message has left (R237, R238). -/
def RecordAt (s t : State) (k d : Nat) (r : Bytes) : Prop :=
  t.getBytes (cqSlot s k) 32 = recPut r 7 (leBytes 1 (recField r 7 1 / 2 * 2 + (if (s.str k).cqn / 2 ^ s.fget (F.strCq_LOG2N k) % 2 = 0 then 1 else 0)))
  ∧ (t.str k).cqn = ((s.str k).cqn + 1) % 2 ^ 32
  ∧ (sdIrq d = true → Outbound.msix (s.strFn k) (s.fget (F.strCtl_VECTOR k)) ∈ t.outbox)

/-- The descriptor `d` of stream `k` completes with a status, DETAIL and RESULT. -/
def Completed (s t : State) (k d status detail result : Nat) : Prop :=
  RecordAt s t k d (strRecord k d status 0 detail result (s.now 8) false)

/-- Everything a descriptor's completion leaves alone: cores, backed bytes outside its slot, the other streams, partitions and links. -/
def StreamOnly (s t : State) (k : Nat) : Prop :=
  BackedBut s t (cqSlot s k) 32 ∧ (∀ j, j ≠ k → t.str j = s.str j) ∧ t.cores = s.cores ∧ t.links = s.links ∧ t.secp = s.secp ∧ t.fuses = s.fuses

/-- A started descriptor of stream `k` with SEQ `seq` and an opcode. -/
def StartedOp (s : State) (k seq opc : Nat) (o : StrOp) : Prop :=
  (s.str k).started.find? (fun o => o.seq = seq) = some o ∧ o.seq = seq ∧ o.opc = opc ∧ sdSeq o.desc = seq

/-! ### Links -/

/-- Link `x` takes the message `m` at once and whole: it carries it, no message waits there, the credit of its sub-channel and the replay buffer cover it, and it need not be cut (R256-R258, R264). -/
def Room (s : State) (x : Nat) (m : Msg) : Prop :=
  s.failed = false ∧ m.sub ≠ 3 ∧ carries (s.linkState x) m = true ∧ (s.link x).txq = [] ∧ msgUnits m ≤ s.credit x (msgSub m) ∧ splitFor (s.linkGen x) m = [m]
  ∧ (s.link x).inFlight + ceilDiv (16 * msgUnits m + 864) (flitRoom (s.linkGen x)) ≤ 4096

/-- The message `m` that came on axis `inAx` leaves at once as `m'` on physical link `x`, which its route names (R266). -/
def Goes (s : State) (m : Msg) (inAx : Option Nat) (x : Nat) (m' : Msg) : Prop :=
  ∃ k, s.pickLink m inAx = some (k, m') ∧ x = s.physLink k ∧ Room s x m'

/-- The message `m` has left on link `x`, with its frames behind it (R252-R257). -/
def Left (s t : State) (out : List Outbound) (x : Nat) (m : Msg) : Prop :=
  t.outbox = out ++ .link x m :: (s.frameList x [m]).map fun f => Outbound.frame x 0 f.1

/-- Message `m` stands received on link `l`, which carries it (R258, R261). -/
def Arrived (s : State) (l : Nat) (m : Msg) : Prop := m.sub ≠ 3 ∧ carries (s.linkState l) m = true

/-- What a step on links changes beside them: what left, and what decided between messages. -/
def LinksOnly (s t : State) : Prop := { t with links := s.links, outbox := s.outbox, arbs := s.arbs } = s

/-- A HELLO of this device leaves on link `l` with its NONCE and an ECHO (R260), in base mode as one frame (R257). -/
def HelloSent (t : State) (l echo : Nat) (out : List Outbound) : Prop :=
  ∃ m fs, t.outbox = out ++ .link l m :: fs ∧ (∀ f ∈ fs, ∃ b, f = .frame l 0 b) ∧ (t.linkGen l = 0 → fs = [.frame l 0 (baseFrameOf l ((t.link l).fseq - 1) m)])
    ∧ m.cls = 3 ∧ m.typ = 1 ∧ recField m.data 24 8 = (t.link l).nonce % 2 ^ 64 ∧ recField m.data 32 8 = echo ∧ recField m.data 2 2 = l ∧ recField m.data 4 2 = t.devid

/-- Link `l` sends a message to its neighbour at once: the module offers its services, and the link is in base mode or REJECTED (R260, R351). -/
def SaysHello (s : State) (l : Nat) : Prop := s.secOn = true ∧ (s.linkGen l = 0 ∨ s.linkState l = 5)

/-- A HELLO that R260 accepts: at least 176 bytes, VERSION 1, signed by the peer whose certificate is held. -/
def HelloGood (s : State) (h : Bytes) : Prop :=
  176 ≤ h.length ∧ recField h 0 2 = 1 ∧ Config.ed448Verify (Sparse.getD (fun _ => []) s.certs (recField h 8 6)) (h.take 62) ((h.drop 62).take 114) = true

/-! ### Collectives -/

/-- The rows of R286 with their operation codes. -/
def collTable : List ((Fin 65536 → Instr) × Nat) :=
  [(.allReduce, 0), (.reduceScatter, 1), (.allGather, 2), (.allToAll, 3), (.allToAllv, 4), (.broadcastOp, 5), (.reduceOp, 6), (.barrierOp, 7), (.sendOp, 8), (.recvOp, 9)]

/-- The sequence number that a descriptor takes (R285): of its group, or of its pair. -/
def takesSeq (s : State) (d : Nat) : Nat :=
  if kOpc d = 8 then Sparse.getD (fun _ => 0) (s.group (kGroup d)).sends (kRoot d)
  else if kOpc d = 9 then Sparse.getD (fun _ => 0) (s.group (kGroup d)).recvs (kRoot d)
  else (s.group (kGroup d)).gseq

/-- The operation that stream `k` has accepted with the descriptor `d` (R285, R290): pending, with its group's members, nothing moved. -/
def acceptedOp (s : State) (k d : Nat) : ColOp where
  id := ⟨Fin.ofNat 4096 (kGroup d), if kOpc d = 8 then 1 else if kOpc d = 9 then 2 else 0, if kPair d then BitVec.ofNat 15 (kRoot d) else 0, BitVec.ofNat 32 (takesSeq s d)⟩
  epoch := (s.group (kGroup d)).epoch
  stream := some k
  sseq := sdSeq d
  desc := d
  part := s.strPart k
  members := (s.group (kGroup d)).members
  shape := (s.group (kGroup d)).shape
  rank := (s.group (kGroup d)).rank
  st := 0
  status := 0
  origin := 0
  result := 0
  cats := 0
  cnts := []
  dlv := []
  want := []
  ins := []
  txs := []
  holds := []
  stages := []
  nstg := 1
  poison := false
  dropped := false
  zeros := false
  bad := []
  good := []
  kids := []
  sentUp := false
  decided := none
  rel := []
  nacked := []
  wait := []
  stalled := false

/-- A COL message of kind `k` for this device arrives on link `l` and meets its operation `o` (R292, R293): the link carries it and its epoch is the group's. -/
def ColMeets (s : State) (l : Nat) (m : Msg) (k : Nat) (o : ColOp) : Prop :=
  Arrived s l m ∧ s.isLocal m = true ∧ m.cls = 2 ∧ mKind m = k ∧ s.failed = false ∧ s.copOf m = some o ∧ s.cop o.id = some o
  ∧ mEpoch m = (s.group (mGroup m)).epoch ∧ (s.group (mGroup m)).epoch < 65536

/-- The control message of operation `o` to rank `r` as this device sends it (R292; log entry 23). -/
def ctlMsg (s : State) (o : ColOp) (kind q r : Nat) (data : Bytes) : Msg :=
  { colMsg o kind q r false (recPut data 9 (leBytes 1 o.id.kind.val)) with src := BitVec.ofNat 15 s.devid }

/-- Operations but `i` are as before. -/
def CopsBut (s t : State) (i : OpId) : Prop := ∀ j, j ≠ i → t.cop j = s.cop j

/-- The chunk that a control message names (log entry 23). -/
def ctlRef (m : Msg) : ChunkRef := ⟨recField m.data 8 1, mChunk m, mRank m⟩

/-- The piece `m` is the whole of the chunk `c` for which `o` holds the staging entry `x`: LAST, at offset 0, with the operation's OPSIG and the CCRC of its bytes (R292, R302). -/
def WholeChunk (o : ColOp) (m : Msg) (c : ChunkRef) (x : ColIn) (len : Nat) : Prop :=
  o.st = 1 ∧ pieceRef o m = c ∧ (o.ins.find? fun y => y.ref = c && !y.ok) = some x ∧ x.pieces = [] ∧ x.len = none ∧ x.poison = false ∧ inLen o c = some len ∧ m.data.length = len + 16
  ∧ recField (m.data.drop len) 12 2 % 8192 = 0 ∧ recField (m.data.drop len) 8 4 = opSig o.desc ∧ bitAt (recField (m.data.drop len) 14 1) 0 = true
  ∧ crc64xz (m.data.take len) = recField (m.data.drop len) 0 8 ∧ mPoison m = false

/-- A group command written by `q` starts: its register is reached and no command runs (R311). -/
def GcmdReady (s : State) (q : Req) (cmd g : Nat) : Prop :=
  Reaches s q .colGcmd (fields [(F.colGcmd_GO, 1), (F.colGcmd_CMD, cmd), (F.colGcmd_GROUP, g)]) ∧ s.fbit F.colGcmd_GO = false

/-- The member list that a group command loads can be read at once (R188, R210). -/
def ListReady (s : State) : Prop := s.blocked (s.fget F.colGdata2_MLIST) (2 * (s.fget F.colGdata1_PM1 + 1)) false = none

/-- The group command has ended with a RESULT. -/
def GcmdDone (t : State) (r : Nat) : Prop := t.resp = ⟨stOK, []⟩ ∧ t.fget F.colGcmd_RESULT = r ∧ t.fbit F.colGcmd_GO = false

/-! ### Command registers, records, partitions -/

/-- A command register's command has ended: its write was answered OK, RESULT holds `r` and GO is 0 (R493). -/
def Ended (t : State) (go res : Fld) (r : Nat) : Prop := t.resp = ⟨stOK, []⟩ ∧ t.fget res = r ∧ t.fbit go = false

/-- A write by `q` of a command register with GO and the fields `c` reaches it while no command runs. -/
def Starts (s : State) (q : Req) (r : Reg) (go : Fld) (c : List (Fld × Nat)) : Prop := Reaches s q r (fields ((go, 1) :: c)) ∧ s.fbit go = false

/-- The state in which the command of such a write begins. -/
def begun (s : State) (q : Req) (r : Reg) (go : Fld) (c : List (Fld × Nat)) : State := (s.setReg r (s.merged q r (fields ((go, 1) :: c)))).fset go 1

/-- The record of a fault is the newest of the Halo store (R315, R318). -/
def Stored (s t : State) (unit code cls addr : Nat) : Prop :=
  ∃ r : Bytes, t.err.halo = (r :: s.err.halo).take 64 ∧ recField r 0 2 = unit ∧ recField r 2 1 = code ∧ recField r 3 1 % 8 = cls ∧ recField r 16 8 = addr

/-- The scratchpad of core `n` reads 0. -/
def SpmZero (t : State) (n : Nat) : Prop := ∀ o, o < 0x200000 → t.getByte (spmAddr n o) = 0

/-- No listed byte of memory lies in a region. -/
def Emptied (s t : State) (r : Rgn) : Prop := ∀ e ∈ t.mem, ∀ a, s.keyAddr e.1 = some a → ¬(r.base ≤ a ∧ a ≤ r.limit)

/-- Everything but registers, the answer and the Umbra service of partition `p` is as before. -/
def UmbraOnly (s t : State) (p : Nat) : Prop := (∀ j, j ≠ p → t.umb j = s.umb j) ∧ { t with regs := s.regs, resp := s.resp, umbra := s.umbra } = s

/-- `len` bytes at `a` of stacked memory are backed and clean, with the lines they touch. -/
def Clean (s : State) (a len : Nat) : Prop :=
  MapOk s ∧ a + len ≤ 0xC000000000 ∧ ∀ x, a / 64 * 64 ≤ x → x < a + len → s.backed x = true ∧ s.poisonedAt x = false

/-! ### Management sessions and mailboxes -/

/-- The protected RESPONSE of session `x` with a body (R355, R357). -/
def sealedReply (s : State) (x : Sess) (body : Bytes) : Bytes :=
  let h := sessHeader 0x11 s.devid x.num x.tx body.length
  h ++ gcmCipher (sessKeyOut x.ks) (sessIv x.ks 1 x.tx) h body ++ leBytes 16 (Config.gcmTag (sessKeyOut x.ks) (sessIv x.ks 1 x.tx) h body).toNat

/-- A message of `n` bytes passes between this device and an endpoint: over Ethernet, in one frame of a port that is enabled and up (R354). -/
def Carried (s : State) (ep : Endpoint) (n : Nat) : Prop := ∀ p ip u, ep = .eth p ip u → s.ethCarries p ip n = true

/-- A session message that this device's management firmware takes (R354, R355). -/
def MsgHere (s : State) (ep : Endpoint) (m : Bytes) : Prop :=
  s.mgmtUp = true ∧ Carried s ep m.length ∧ msgFormed m = true ∧ msgDst m = s.devid ∧ s.fget F.secStat_MSTATE = 1

/-- The partition of a mailbox command of function `f` (R364). -/
def mbxPart (f : Fin 9) (p : Nat) : Nat := if f = 0 then p else f.val - 1

/-! ### Bring-up -/

/-- BOOT_STATUS names stage `k` with a STATE and CODE (R402). -/
def StageEnd (t : State) (k st code : Nat) : Prop := t.fget F.bootStatus_STAGE = k ∧ t.fget F.bootStatus_STATE = st ∧ t.fget F.bootStatus_CODE = code

/-- The report of stage `k`: its number, RESULT, CODE and WARM, and its times (R403). -/
def StageSaid (t : State) (k result code : Nat) (tm : StageTime) : Prop :=
  t.reg (.bootReport k 0) = k + result * 2 ^ 8 + code * 2 ^ 16 + t.fget F.bootStatus_WARM * 2 ^ 32
  ∧ t.reg (.bootReport k 1) = tm.t0.toNat ∧ t.reg (.bootReport k 2) = tm.t1.toNat

/-- The state that a device reset leaves: bring-up before S0, no core, memory or stream state, fuses, flash and the commands that wait kept (R416, R494). -/
def AfterReset (s t : State) (cold : Bool) : Prop :=
  StageEnd t 0 0 0 ∧ t.fget F.bootStatus_WARM = (if cold then 0 else 1) ∧ t.failed = false ∧ t.cores = [] ∧ t.mem = [] ∧ t.strs = [] ∧ t.links = []
  ∧ t.flash = s.flash ∧ t.pending = s.pending ∧ t.fuses = { s.fuses with resets := min (s.fuses.resets + 1) (2 ^ 32 - 1) }

/-! ### Halo -/

/-- The safety outputs have acted (R435, R436). -/
def Safe (t : State) : Prop := t.fget F.safStat_STATE = 2 ∧ t.tripped = true ∧ t.thermtrip = true ∧ t.eclRail = false

/-- No sensor of a sample fails, and every die has two or more (R434). -/
def SensorsGood (e : TempReads) : Prop := (∀ l ∈ e.tj.toList, 2 ≤ l.length ∧ ∀ x ∈ l, sensorBad l x = false) ∧ ∀ x ∈ e.stk.toList, stackBad x = false

/-- No reading of a sample reaches a trip. -/
def BelowTrips (s : State) (e : TempReads) : Prop :=
  (∀ x ∈ (e.tj.toList.take 4).map dieReads, x < 2 * (s.fget F.safThr0_TJ_TRIP : Int)) ∧ (∀ x ∈ e.stk.toList, x ≤ (s.fget F.safThr0_STK_TRIP : Int))
  ∧ ∀ c ∈ e.cur.toList, c < s.fget F.safThr0_OC_TRIP_PCT

/-- Every reading of a sample lies below the thresholds. -/
def BelowThresholds (s : State) (e : TempReads) : Prop :=
  (∀ x ∈ (e.tj.toList.take 4).map dieReads, x < 2 * (s.fget F.safThr0_TJ_THR : Int)) ∧ (∀ x ∈ e.stk.toList, x < (s.fget F.safThr0_STK_THR : Int))
  ∧ ∀ c ∈ e.cur.toList, c < s.fget F.safThr0_OC_THR_PCT

end Sys2Proof.Safety
end

