-- ==== Sys2Proof/Certificates/Slice0/Obligations.lean ====
section
/-! DEFINITION. The statements for the provers. -/

open Sys2Proof Sys2Proof.Machine Sys2Proof.Safety

/-! ### The queue -/

/-- With a command at the front of the queue a step runs it on the state with the queue's rest. -/
def Obligations.StepRunsFrontCommand : Prop :=
  ∀ (c : Instr) (rest : List Instr) (s : State), s.pending = c :: rest → Machine.step s = exec c { s with pending := rest }

/-! ### The core: scalar slot (R37, R39, R43, R44) -/

/-- R43, R44: the register forms 0x01-0x0D write RD with RS1 op RS2, the immediate forms 0x11-0x1D with RS1 op IMM28 sign-extended; LI writes IMM28 sign-extended, LIH writes bits 63:28 with it and keeps bits 27:0, CSRR reads the seven status values, and any other number ends the instance with ILLEGAL_OP; otherwise the PC moves to the next bundle, and nothing else changes. Model's readings it rests on: log entry 7. -/
def Obligations.ScalarOperationResults : Prop :=
  (∀ row ∈ aluTable, ∀ (n : Fin 384) (rd rs1 rs2 : Fin 64) (s : State),
    rd < 48 → rs1 < 48 → rs2 < 48 → IssuesHere s n → Ready (s.core n) [rs1, rs2] [rd] →
    ∃ t, exec (row.1 n rd rs1 rs2) s = .next t ∧
      Issued s t n (coreTo (s.core n) rd (row.2 ((s.core n).reg rs1) ((s.core n).reg rs2)) ((s.core n).pc + 1)))
  ∧ (∀ row ∈ aluImmTable, ∀ (n : Fin 384) (rd rs1 : Fin 64) (imm : BitVec 28) (s : State),
    rd < 48 → rs1 < 48 → IssuesHere s n → Ready (s.core n) [rs1] [rd] →
    ∃ t, exec (row.1 n rd rs1 imm) s = .next t ∧
      Issued s t n (coreTo (s.core n) rd (row.2 ((s.core n).reg rs1) (imm.signExtend 64)) ((s.core n).pc + 1)))
  ∧ (∀ (n : Fin 384) (rd : Fin 64) (imm : BitVec 28) (s : State), rd < 48 → IssuesHere s n →
      (Ready (s.core n) [] [rd] → ∃ t, exec (.li n rd imm) s = .next t ∧
        Issued s t n (coreTo (s.core n) rd (imm.signExtend 64) ((s.core n).pc + 1)))
      ∧ (Ready (s.core n) [rd] [rd] → ∃ t, exec (.lih n rd imm) s = .next t ∧
        Issued s t n (coreTo (s.core n) rd (imm.signExtend 36 ++ ((s.core n).reg rd).extractLsb' 0 28) ((s.core n).pc + 1)))
      ∧ ∀ i, (s.core n).inst = some i → ∀ p ∈ [(0, i.vcore), (1, s.vcount i.part), (2, i.part), (3, i.rpc), (4, i.replays), (5, s.now (n / 96)), (6, s.fget F.pwrStat_D)],
        Ready (s.core n) [] [rd] → ∃ t, exec (.csrr n rd (BitVec.ofNat 8 p.1)) s = .next t ∧
          Issued s t n (coreTo (s.core n) rd (BitVec.ofNat 64 p.2) ((s.core n).pc + 1)))
  ∧ (∀ (n : Fin 384) (rd : Fin 64) (k : BitVec 8) (s : State) (i : KInst), Issues s n → 7 ≤ k.toNat → (s.core n).inst = some i → i.stream < 65536 → s.fbit (F.coreErr_VALID n) = false →
      ∃ t, exec (.csrr n rd k) s = .next t ∧ (t.core n).inst = none ∧ t.fget (F.coreErr_VALID n) = 1 ∧ t.fget (F.coreErr_CODE n) = 1 ∧ t.mem = s.mem ∧ CoresBut s t n)

/-- R41, R43: where BR, the conditional branches, JR and CALL go when their targets stay where the microcode mode bit allows; NOP goes to the next bundle. Model's readings it rests on: log entry 7. -/
def Obligations.ScalarTransfersOfControl : Prop :=
  ∀ (n : Fin 384) (rs1 : Fin 64) (imm : BitVec 28) (s : State), rs1 < 48 → Issues s n →
    (IssuesHere s n → ∃ t, exec (.scalarNop n) s = .next t ∧ Issued s t n (stepped (s.core n)))
    ∧ (∀ tgt : Nat, ((s.core n).pc : Int) + imm.toInt = tgt → InRegion (s.core n).umode tgt →
        (∃ t, exec (.br n imm) s = .next t ∧ Issued s t n (goTo (s.core n) tgt (s.core n).umode))
        ∧ (Ready (s.core n) [rs1] [] → ∀ row ∈ branchTable, row.2 ((s.core n).reg rs1) = true →
            ∃ t, exec (row.1 n rs1 imm) s = .next t ∧ Issued s t n (goTo (s.core n) tgt (s.core n).umode))
        ∧ (64 ≤ tgt → Ready (s.core n) [] [31] → ∃ t, exec (.call n imm) s = .next t ∧
            Issued s t n (goTo ((s.core n).setReg 31 (BitVec.ofNat 64 ((s.core n).pc + 1))) tgt (s.core n).umode)))
    ∧ (∀ tgt : Nat, ((s.core n).pc : Int) + imm.toInt = tgt → tgt < 64 → Ready (s.core n) [] [31] → ∃ t, exec (.call n imm) s = .next t ∧
        Issued s t n (goTo ((s.core n).setReg 31 (BitVec.ofNat 64 ((s.core n).pc + 1))) tgt true))
    ∧ (IssuesHere s n → Ready (s.core n) [rs1] [] → ∀ row ∈ branchTable, row.2 ((s.core n).reg rs1) = false →
        ∃ t, exec (row.1 n rs1 imm) s = .next t ∧ Issued s t n (stepped (s.core n)))
    ∧ (∀ tgt : Nat, Ready (s.core n) [rs1] [] → tgt = ((s.core n).reg rs1).toNat % 8192 →
        (1024 ≤ tgt → ∃ t, exec (.jr n rs1) s = .next t ∧ Issued s t n (goTo (s.core n) tgt false))
        ∧ (tgt < 1024 → (s.core n).umode = true → ∃ t, exec (.jr n rs1) s = .next t ∧ Issued s t n (goTo (s.core n) tgt true)))

/-- R45: VLD, TLD and LD copy the scratchpad bytes at a[AB] + IMM32 into the register named; TSETB writes BASE of the tile with the address; NOP has no effect; DMA appends the 128-byte descriptor to its queue. Model's readings it rests on: log entries 7, 42. -/
def Obligations.MoveSlotLoads : Prop :=
  ∀ (n : Fin 384) (ab : Fin 16) (imm : BitVec 32) (s : State), IssuesHere s n →
    (∃ t, exec (.moveNop n) s = .next t ∧ Issued s t n (stepped (s.core n)))
    ∧ ∀ off : Nat,
      (∀ r : Fin 64, r < 48 → MoveAt (s.core n) ab imm 8 8 off → Ready (s.core n) [32 + ab] [r] →
        ∃ t, exec (.ld n ab r imm) s = .next t ∧ IssuedMove s t n (coreTo (s.core n) r (BitVec.ofNat 64 (s.spmLE n off 8)) ((s.core n).pc + 1)))
      ∧ (∀ v : Fin 32, MoveAt (s.core n) ab imm 8192 64 off → Ready (s.core n) [32 + ab] [100 + v] →
        ∃ t, exec (.vld n ab v imm) s = .next t ∧ IssuedMove s t n (stepped ((s.core n).setVbytes v 0 (s.spm n off 8192))))
      ∧ (∀ d : Fin 16, MoveAt (s.core n) ab imm 32 32 off → Ready (s.core n) [32 + ab] [200 + d] → tileReserved (s.spmLE n off 32) = false →
        ∃ t, exec (.tld n ab d imm) s = .next t ∧ IssuedMove s t n (stepped ((s.core n).setTile d (BitVec.ofNat 256 (s.spmLE n off 32)))))
      ∧ (∀ d : Fin 16, MoveAt (s.core n) ab imm 1 64 off → Ready (s.core n) [32 + ab] [200 + d] →
        ∃ t, exec (.tsetb n ab d imm) s = .next t ∧
          Issued s t n (stepped ((s.core n).setTile d (((s.core n).tile d).extractLsb' 21 235 ++ BitVec.ofNat 21 off))))
      ∧ (∀ q : Fin 8, MoveAt (s.core n) ab imm 128 64 off → Ready (s.core n) [32 + ab] [] → ((s.core n).dmaq.getD q []).length < 16 →
        ∃ t, exec (.dma n ab q imm) s = .next t ∧
          IssuedMove s t n (stepped { s.core n with dmaq := (s.core n).dmaq.modify q (· ++ [⟨s.spmLE n off 128, false, 0, [], none⟩]) }))

/-- R45: VST, TST and ST write 8,192, 32 and 8 bytes at a[AB] + IMM32 of the core's scratchpad with the register named, where no running drain command writes those bytes (R115), and no other byte of memory. Model's readings it rests on: log entries 7, 42. -/
def Obligations.MoveSlotStores : Prop :=
  ∀ (n : Fin 384) (ab : Fin 16) (imm : BitVec 32) (s : State) (off : Nat), IssuesHere s n →
    (∀ r : Fin 64, r < 48 → MoveAt (s.core n) ab imm 8 8 off → Ready (s.core n) [32 + ab, r] [] → s.inDrain (spmAddr n off) 8 = false →
      ∃ t, exec (.st n ab r imm) s = .next t ∧ IssuedStore s t n (stepped (s.core n)) off 8
        ∧ t.spm n off 8 = leBytes 8 ((s.core n).reg r).toNat)
    ∧ (∀ v : Fin 32, MoveAt (s.core n) ab imm 8192 64 off → Ready (s.core n) [32 + ab, 100 + v] [] → s.inDrain (spmAddr n off) 8192 = false →
      ∃ t, exec (.vst n ab v imm) s = .next t ∧ IssuedStore s t n (stepped (s.core n)) off 8192
        ∧ t.spm n off 8192 = (s.core n).vbytes v 0 8192)
    ∧ (∀ d : Fin 16, MoveAt (s.core n) ab imm 32 32 off → Ready (s.core n) [32 + ab, 200 + d] [] → s.inDrain (spmAddr n off) 32 = false →
      ∃ t, exec (.tst n ab d imm) s = .next t ∧ IssuedStore s t n (stepped (s.core n)) off 32
        ∧ t.spm n off 32 = leBytes 32 ((s.core n).tile d).toNat)

/-- R48: EVINC adds RS + IMM8 to its counter and EVSET sets it, modulo 2^32; EVWAIT passes once the counter has reached RS + IMM8, FENCE once the units its mask names have finished; NOP has no effect. Model's readings it rests on: log entry 7. -/
def Obligations.SyncSlotLocal : Prop :=
  ∀ (n : Fin 384) (ec rs : Fin 64) (imm : BitVec 8) (s : State), IssuesHere s n →
    (∃ t, exec (.syncNop n) s = .next t ∧ Issued s t n (stepped (s.core n)))
    ∧ (rs < 48 → Ready (s.core n) [rs] [] →
        (∃ t, exec (.evinc n ec rs imm) s = .next t ∧
          Issued s t n (stepped ((s.core n).setEv ec ((s.core n).evc ec + (((s.core n).reg rs).setWidth 32 + imm.setWidth 32)))))
        ∧ (∃ t, exec (.evset n ec rs imm) s = .next t ∧
          Issued s t n (stepped ((s.core n).setEv ec (((s.core n).reg rs).setWidth 32 + imm.setWidth 32))))
        ∧ (((s.core n).reg rs).setWidth 32 + imm.setWidth 32 ≤ (s.core n).evc ec →
          ∃ t, exec (.evwait n ec rs imm) s = .next t ∧ Issued s t n (stepped (s.core n)))
        ∧ ((s.core n).evc ec < ((s.core n).reg rs).setWidth 32 + imm.setWidth 32 →
          exec (.evwait n ec rs imm) s = .next (s.setCore n { s.core n with waiting := true })))
    ∧ (imm.toNat < 8 → (imm.getLsbD 0 = true → (s.core n).dmaIdle = true) → (imm.getLsbD 1 = true → (s.core n).mxIdle = true) →
        (imm.getLsbD 2 = true → (s.core n).vcIdle = true) →
        ∃ t, exec (.fence n imm) s = .next t ∧ Issued s t n (stepped (s.core n)))

/-! ### The core: shared counters, barriers, tile boundaries -/

/-- R59, R60, R416: EVREM sends IMM8 to a counter of the virtual core that RS[8:0] names, in its partition, and its arrival adds it, unless the target is under reset; a BAR sends its arrival and waits, the arrival of the last virtual core of the virtual cluster completes the generation for every member that waits, and a BAR whose generation is complete passes. Model's readings it rests on: log entry 7. -/
def Obligations.RemoteEventsAndBarriers : Prop :=
  ((∀ (n : Fin 384) (ec rs : Fin 64) (imm : BitVec 8) (s : State) (i : KInst), rs < 48 → IssuesHere s n → Ready (s.core n) [rs] [] →
    (s.core n).inst = some i → (s.core n).remCnt ≤ (s.core n).remRep → ((s.core n).reg rs).toNat % 512 < s.vcount i.part →
    ∃ t, exec (.evrem n ec rs imm) s = .next t ∧ t.evrem = s.evrem ++ [⟨i.part, ((s.core n).reg rs).toNat % 512, ec, imm.toNat⟩]
      ∧ t.core n = stepped { s.core n with remRep := (s.core n).remRep + 1, remCnt := (s.core n).remCnt + 1 } ∧ CoresBut s t n
      ∧ RegsBut s t ((Reg.cntCbund n).off :: lossOffs) ∧ { seenAs s t with cores := s.cores, regs := s.regs, evrem := s.evrem } = s)
  ∧ (∀ (n : Fin 384) (s : State) (e : EvRem), s.evrem.find? (fun e => s.vmap e.part e.vcore = some n.val) = some e →
    ∃ t, exec (.evremArrival n) s = .next t ∧ t.evrem = s.evrem.erase e ∧ CoresBut s t n ∧ { t with cores := s.cores, evrem := s.evrem } = s
      ∧ t.core n = if s.resetting.contains n.val then s.core n else (s.core n).setEv e.ec ((s.core n).evc e.ec + BitVec.ofNat 32 e.imm)))
  ∧ ((∀ (n : Fin 384) (s : State), Issues s n → (s.core n).bar = 0 → (s.core n).barCnt ≤ (s.core n).barRep →
    ∃ t, exec (.bar n) s = .next t ∧ CoresBut s t n ∧ RegsBut s t lossOffs ∧ RestSame s t
      ∧ t.core n = { s.core n with bar := 1, barRep := (s.core n).barRep + 1, barCnt := (s.core n).barCnt + 1, waiting := true })
  ∧ (∀ (n : Fin 384) (s : State), IssuesHere s n → (s.core n).bar = 2 →
    ∃ t, exec (.bar n) s = .next t ∧ Issued s t n (stepped { s.core n with bar := 0 }))
  ∧ (∀ (n : Fin 384) (s : State) (i : KInst), (s.core n).inst = some i → (s.core n).bar = 1 → s.resetting.contains n.val = false →
    let key := i.part * 32 + i.vcore / 12
    let m := setBit (Sparse.getD (fun _ => 0) s.bars key) (i.vcore % 12) true
    ((∃ v ∈ s.vclusterMembers i.part i.vcore, bitAt m (v % 12) = false) →
      ∃ t, exec (.barArrival n) s = .next t ∧ Sparse.getD (fun _ => 0) t.bars key = m ∧ { t with bars := s.bars } = s)
    ∧ ((∀ v ∈ s.vclusterMembers i.part i.vcore, bitAt m (v % 12) = true) →
      ∃ t, exec (.barArrival n) s = .next t ∧ Sparse.getD (fun _ => 0) t.bars key = 0
        ∧ (∀ v ∈ s.vclusterMembers i.part i.vcore, ∀ k, s.vmap i.part v = some k → (s.core k).bar = 1 → (t.core k).bar = 2)
        ∧ (∀ k, (∀ v ∈ s.vclusterMembers i.part i.vcore, s.vmap i.part v ≠ some k) → t.core k = s.core k)
        ∧ RegsBut s t lossOffs ∧ { seenAs s t with cores := s.cores, regs := s.regs, bars := s.bars } = s)))

/-- R43, R54, R55, R57, R67, R71: a TB whose engines are idle writes its checkpoint into the slot at s4, alternately the first and the second 4,096 bytes, and counts the boundary; END marks the instance as ending without moving the PC, and once its queues are empty and its engines idle the instance ends. Model's readings it rests on: log entries 7, 43. -/
def Obligations.TileBoundariesAndInstanceEnds : Prop :=
  (∀ (n : Fin 384) (imm : BitVec 8) (s : State) (i : KInst), IssuesHere s n → (s.core n).inst = some i → (s.core n).fenceDone 7 = true →
    s.fget F.pwrStat_PARK = 0 → MapOk s →
    let a := ((s.core n).reg 4).toNat + 4096 * (i.nTB % 2)
    a % 64 = 0 → a + 2048 ≤ 0xC000000000 → s.slotError i.part a = none → (∀ l ∈ lines64 a 2048, s.backed l = true) → s.blocked a 2048 true = none →
    ∃ t, exec (.tb n imm) s = .next t ∧ t.getLE a 8 = (imm.toNat + i.nTB * 2 ^ 32) % 2 ^ 64 ∧ t.getLE (a + 8) 8 = (s.core n).pc + 1
      ∧ (∀ r : Fin 48, t.getLE (a + 16 + 8 * r) 8 = ((s.core n).reg r).toNat)
      ∧ (∀ x, (x < a ∨ a + 2048 ≤ x) → s.backed x = true → t.getByte x = s.getByte x)
      ∧ (t.core n).inst = some { i with nTB := i.nTB + 1, faultsTB := 0, replaying := false, valid := some a } ∧ (t.core n).tb = none
      ∧ (t.core n).pc = (s.core n).pc + 1 ∧ (∀ r, (t.core n).reg r = (s.core n).reg r) ∧ CoresBut s t n)
  ∧ ((∀ (n : Fin 384) (s : State), Issues s n →
    ∃ t, exec (.scalarEnd n) s = .next t ∧ Issued s t n { s.core n with ending := true, waiting := false, inst := (s.core n).inst.map fun (i : KInst) => { i with replaying := false } })
  ∧ (∀ (n : Fin 384) (s : State) (i : KInst), (s.core n).inst = some i → (s.core n).ending = true → (s.core n).fenceDone 7 = true →
    (s.core n).fault = none → s.unitsRun n = true →
    ∃ t, exec (.instanceEnd n) s = .next t ∧ (t.core n).inst = none ∧ (t.core n).ending = false ∧ CoresBut s t n
      ∧ (t.str i.stream).started = (s.str i.stream).started.map (fun o => if o.seq = i.seq then { o with left := o.left - 1 } else o)
      ∧ (∀ k, k ≠ i.stream → t.str k = s.str k) ∧ t.mem = s.mem))

/-- R40: every slot of a bundle reads the registers as they stand before any slot writes; the scalar result and the value that an LD loads both land, and the PC moves; a matrix operation beside a TSETB of a tile it reads is queued with the descriptor from before; a bundle in which two slots write the same register ends the instance with ILLEGAL_OP. Model's readings it rests on: log entry 39. -/
def Obligations.BundleSlotsReadBeforeTheyWrite : Prop :=
  (∀ (n : Fin 384) (s : State) (i : KInst), Issues s n → (s.core n).inst = some i → i.stream < 65536 → s.fbit (F.coreErr_VALID n) = false →
    ¬ (Bundle.ofWord ((s.core n).bundle (s.core n).pc).toNat).writes.Nodup →
    ∃ t, exec (.bundleIssue n) s = .next t ∧ (t.core n).inst = none ∧ t.fget (F.coreErr_VALID n) = 1 ∧ t.fget (F.coreErr_CODE n) = 1 ∧ t.mem = s.mem ∧ CoresBut s t n)
  ∧ (∀ (n : Fin 384) (s : State) (mv mx : Nat), IssuesHere s n → (s.core n).tb = none →
    let b := Bundle.ofWord ((s.core n).bundle (s.core n).pc).toNat
    b = ⟨none, some mv, some mx, none, none, false⟩ → b.legal = true → Ready (s.core n) b.reads b.writes → (s.core n).mq.length < 16 →
    mvOp mv = 6 → (s.core n).mvAddrOk mv = true → mxOp mx ≠ 0 → (∀ i ∈ mxTiles mx, (Tile.ofBits ((s.core n).tile i).toNat).addrOk = true) →
    ∃ t q, exec (.bundleIssue n) s = .next t ∧ (t.core n).mq = (s.core n).mq ++ [q] ∧ q.slot = mx ∧ q.pc = (s.core n).pc
      ∧ (t.core n).tile (mvT mv) = ((s.core n).tile (mvT mv)).extractLsb' 21 235 ++ BitVec.ofNat 21 ((s.core n).mvAddr mv).toNat
      ∧ ∀ i, i < 16 → 200 + i ∈ mxReads mx → ((t.core n).seenBy q).tile i = (s.core n).tile i)
  ∧ ∀ (n : Fin 384) (s : State) (sc mv : Nat) (r : Nat) (v : Word), IssuesHere s n → (s.core n).tb = none →
    let b := Bundle.ofWord ((s.core n).bundle (s.core n).pc).toNat
    b = ⟨some sc, some mv, none, none, none, false⟩ → b.legal = true → Ready (s.core n) b.reads b.writes →
    s.scResult n sc = some (r, v) → (s.core n).pcMove sc = .next → mvOp mv = 8 → (s.core n).mvAddrOk mv = true →
    ∃ t, exec (.bundleIssue n) s = .next t
      ∧ IssuedMove s t n (stepped (((s.core n).setReg (mvR mv) (BitVec.ofNat 64 (s.spmLE n ((s.core n).mvAddr mv).toNat 8))).setReg r v))

/-! ### The matrix engine -/

/-- R57, R80-R83, R102, R156: what MCFG, MLOAD and MSWAP at the head of the command queue leave, a matrix or vector NOP only issuing; an engine that finishes frees its unit and steps its event counter: MLOAD ev63, MSTREAM ev62, a drain ev61, a vector operation with SIG ev60. Model's readings it rests on: log entry 12. -/
def Obligations.EnginesLoadAndFinish : Prop :=
  (∀ (n : Fin 384) (s : State) (q : QCmd) (rest : List QCmd),
    (IssuesHere s n → ∃ t, exec (.matrixNop n) s = .next t ∧ Issued s t n (stepped (s.core n)))
    ∧ (MxHead s n 1 q rest → (tileOf s n q (mxTa q.slot)).base % 64 = 0 → (tileOf s n q (mxTa q.slot)).base + 128 ≤ 0x200000 →
        cfgLegal (s.spmLE n (tileOf s n q (mxTa q.slot)).base 128) = true →
        ∃ t, exec (.mcfg n) s = .next t
          ∧ CoreBecomes s t n { s.core n with mq := rest, mcfg := s.readCfg n (s.spmLE n (tileOf s n q (mxTa q.slot)).base 128), cfgSeen := true })
    ∧ (MxHead s n 2 q rest → (s.core n).ldBusy = false → (s.core n).cfgSeen = true → mloadError (tileOf s n q (mxTb q.slot)) = none →
        ∃ t b, exec (.mload n) s = .next t ∧ CoreBecomes s { t with arbs := s.arbs } n { s.core n with mq := rest, inact := b, ldBusy := true } ∧ BanksOnly s t n
          ∧ b.st = 1 ∧ b.fmt = (tileOf s n q (mxTb q.slot)).fmt ∧ b.kx = (tileOf s n q (mxTb q.slot)).rows
          ∧ (∀ p k, p < 512 → k < 64 → Sparse.getD (fun _ => 0) b.elems (p * 64 + k) =
              if p < (tileOf s n q (mxTb q.slot)).rows ∧ k < (tileOf s n q (mxTb q.slot)).cols then s.tileElem n (tileOf s n q (mxTb q.slot)) p k else 0))
    ∧ (MxHead s n 3 q rest → (s.core n).ldBusy = false → (s.core n).stBusy = false → (s.core n).inact.st ≠ 0 →
        ∃ t, exec (.mswap n) s = .next t ∧ CoreBecomes s t n { s.core n with mq := rest, act := (s.core n).inact, inact := .empty }))
  ∧ ∀ (n : Fin 384) (s : State),
    ((s.core n).ldBusy = true → ∃ t, exec (.mloadDone n) s = .next t ∧
      CoreBecomes s t n { (s.core n).setEv 63 ((s.core n).evc 63 + 1) with ldBusy := false, inact := { (s.core n).inact with st := 2 } })
    ∧ ((s.core n).stBusy = true → ∃ t, exec (.mstreamDone n) s = .next t ∧
      CoreBecomes s t n { (s.core n).setEv 62 ((s.core n).evc 62 + 1) with stBusy := false })
    ∧ ((s.core n).drBusy = true → ∃ t, exec (.drainDone n) s = .next t ∧
      CoreBecomes s t n { (s.core n).setEv 61 ((s.core n).evc 61 + 1) with drBusy := false, drParts := [] })
    ∧ (∀ v rest, (s.core n).vrun = v :: rest → ∃ t, exec (.vectorOpFinish n) s = .next t
      ∧ t.core n = (if v.sig then { (s.core n).setEv 60 ((s.core n).evc 60 + 1) with vrun := rest } else { s.core n with vrun := rest })
      ∧ CoresBut s t n ∧ RegsBut s t [(Reg.vxePerf n).off] ∧ { t with cores := s.cores, regs := s.regs } = s)
    ∧ (IssuesHere s n → ∃ t, exec (.vectorNop n) s = .next t ∧ Issued s t n (stepped (s.core n)))

/-- R86-R93, R108-R110: an MSTREAM adds into every cell of its accumulator rows, the checksum column included, the segment sums of each pass in order, OVERWRITE starting from the first; other rows stand; CNT_CROWS counts rows times passes; the core's banks decide and MXE_PERF.BUBBLES never steps back. Model's readings it rests on: log entries 12, 154. -/
def Obligations.MatrixStreamAccumulates : Prop :=
  ∀ (n : Fin 384) (s : State) (q : QCmd) (rest : List QCmd), MxHead s n 4 q rest → (s.core n).stBusy = false →
    let x := q.slot
    let tl := tileOf s n q (mxTa x)
    ((s.core n).seenBy q).mstreamError x tl = none →
    ∃ t, exec (.mstream n) s = .next t
      ∧ (∀ i k, i < mxRows x → k < 65 → accAt (t.core n) (mxRow x + i) k =
          (streamPasses (s.core n) tl).zipIdx.foldl (fun v p =>
            (accCell (s.core n).act (streamRow s n tl ((((s.core n).seenBy q).reg (mxRs x)).toNat + i)) p.1 k (mxKind x = 1 && p.2 = 0) v).1)
            (accAt (s.core n) (mxRow x + i) k))
      ∧ (∀ r k, k < 65 → (r < mxRow x ∨ mxRow x + mxRows x ≤ r) → accAt (t.core n) r k = accAt (s.core n) r k)
      ∧ (t.core n).stBusy = true ∧ (t.core n).mq = rest
      ∧ { t.core n with acc := (s.core n).acc, accH := (s.core n).accH, accN := (s.core n).accN, accF := (s.core n).accF, stBusy := false, mq := (s.core n).mq } = s.core n
      ∧ t.reg (.cntCrows n) = (s.reg (.cntCrows n) + mxRows x * (streamPasses (s.core n) tl).length) % 2 ^ 64
      ∧ s.fget (F.mxePerf_BUBBLES n) ≤ t.fget (F.mxePerf_BUBBLES n) ∧ CoresBut s t n ∧ BanksOnly s t n
      ∧ RegsBut s t ((Reg.mxeCtl n).off :: (Reg.mxePerf n).off :: (Reg.cntCrows n).off :: (Reg.arbMaxwait (dieOfCore n) 0).off :: lossOffs)
      ∧ RestSame s { t with arbs := s.arbs, free := s.free }

/-- R112-R117: an MDRAIN of KIND DIRECT into a format that is no MX format stores each accumulator value after the stages of the output path, converted by R130 under ROUND and FTZ; an MPADD of KIND ADD adds the spilled row into the partial row in W48 and counts the chunk. Neither changes any other core or any byte outside the parts R113 names. Model's readings it rests on: log entry 12. -/
def Obligations.DrainsStoreConvertedRows : Prop :=
  ∀ (n : Fin 384) (s : State) (q : QCmd) (rest : List QCmd), (s.core n).drBusy = false → s.fbit (F.mxeCkctl_CKEN n) = false → s.trapOn n = false →
    let d := s.drainCmd n q
    let o := (s.core n).mcfg
    s.drainError n d = none →
    (MxHead s n 5 q rest → mxKind q.slot = 0 → isMX o.outFmt = false → d.tb.addrOk = true →
      ∃ t, exec (.mdrain n) s = .next t ∧ (t.core n).drBusy = true ∧ (t.core n).mq = rest ∧ (t.core n).acc = (s.core n).acc
        ∧ (∀ i k, i < d.rows → k < d.nd → t.tileElem n d.tb i k =
            (convert (fmtOf o.outFmt) (o.mode (64 * i + k)) o.ftz (o.stages k (fmtW48.dec (w48OfA38 (accAt (s.core n) (d.row + i) k)))).1).1 % 2 ^ fmtWidth d.tb.fmt)
        ∧ (∀ b, b < 0x200000 → outside (d.parts o).flatten b → t.getByte (spmAddr n b) = s.getByte (spmAddr n b)) ∧ CoresBut s t n)
    ∧ (MxHead s n 6 q rest → mxKind q.slot = 2 → d.tc.addrOk = true → d.ta.addrOk = true →
      ∃ t, exec (.mpadd n) s = .next t ∧ (t.core n).drBusy = true ∧ (t.core n).mq = rest
        ∧ (∀ i k, i < d.rows → k < d.nd → t.spmLE n (d.tc.rowOff i + 8 * k) 8 =
            w48Add (s.spmLE n (d.tc.rowOff i + 8 * k) 8 % 2 ^ 48) (s.spmLE n (d.ta.rowOff i + 8 * k) 8 % 2 ^ 48) % 2 ^ 64)
        ∧ t.hdrNext n d.tc = (s.hdrNext n d.tc + 1) % 65536
        ∧ (∀ b, b < 0x200000 → outside (d.parts o).flatten b → t.getByte (spmAddr n b) = s.getByte (spmAddr n b)) ∧ CoresBut s t n)

/-! ### The vector engine -/

/-- R148, R149: VADD, VSUB, VMUL, VFMA, VDIV and VSQRT narrow the exact result to the TYPE under ROUND and FTZ, and VMIN, VMAX, VABS and VNEG give exact results; integer operations wrap modulo 2^32 and compare signed for INT32 and unsigned for UINT32; the operations that move bits. Model's readings it rests on: log entry 12. -/
def Obligations.VectorArithmetic : Prop :=
  (∀ (n : Fin 384) (s : State) (q : QCmd) (rest : List QCmd), tyIsFp (vcTy q.slot) = true →
    let o : VOp := ⟨(s.core n).seenBy q, q.slot⟩
    (∀ row ∈ fpTable, VecHead s n row.2.1 q rest → ∃ t, exec (row.1 n) s = .next t ∧
      VecWrites s t n q rest o.w (vcN q.slot) fun i => (narrow o.ty (o.mode i) o.ftz (row.2.2 (o.fa i) (o.fb i) (o.fc i))).bits)
    ∧ (∀ row ∈ fpPickTable, VecHead s n row.2.1 q rest → ∃ t, exec (row.1 n) s = .next t ∧
      VecWrites s t n q rest o.w (vcN q.slot) fun i => (tyFmt o.ty).rne (row.2.2 (o.fa i) (o.fb i))))
  ∧ (∀ (n : Fin 384) (s : State) (q : QCmd) (rest : List QCmd),
    let o : VOp := ⟨(s.core n).seenBy q, q.slot⟩
    (∀ row ∈ intTable, tyIsFp (vcTy q.slot) = false → VecHead s n row.2.1 q rest → ∃ t, exec (row.1 n) s = .next t ∧
      VecWrites s t n q rest 4 (vcN q.slot) fun i =>
        (row.2.2 (vcTy q.slot = 2) (BitVec.ofNat 32 (o.a i)) (BitVec.ofNat 32 (o.b i)) (BitVec.ofNat 32 (o.cc i))).toNat)
    ∧ (∀ row ∈ moveTable, VecHead s n row.2.1 q rest → ∃ t, exec (row.1 n) s = .next t ∧
      VecWrites s t n q rest o.w (vcN q.slot) (row.2.2 o)))

/-- R149, R150, R152, R154: a VCMP element is all ones where its predicate holds, else 0; VCVT converts by its pair; the reductions round the exact sum once or take an extreme, into element 0 or, under FN[0], into all N; VURAND gives (word 0 >> 8) 2^-24; VNRAND a deviate. Model's readings it rests on: log entry 12. -/
def Obligations.VectorComparesConvertsReduces : Prop :=
  ∀ (n : Fin 384) (s : State) (q : QCmd) (rest : List QCmd),
    let o : VOp := ⟨(s.core n).seenBy q, q.slot⟩
    let cnt := if vcFn q.slot % 2 = 1 then vcN q.slot else 1
    (VecHead s n 0x0B q rest → ∃ t, exec (.vcmp n) s = .next t ∧ VecWrites s t n q rest 4 (vcN q.slot) fun i =>
        if (if tyIsFp (vcTy q.slot) then fpPred (vcFn q.slot % 8) (o.fa i) (o.fb i)
          else if vcTy q.slot = 2 then intPred (vcFn q.slot % 8) (BitVec.ofNat 32 (o.a i)).toInt (BitVec.ofNat 32 (o.b i)).toInt
          else intPred (vcFn q.slot % 8) (o.a i) (o.b i)) then 0xFFFFFFFF else 0)
    ∧ (VecHead s n 0x13 q rest → (vcFn q.slot % 8 = 1 ∨ vcFn q.slot % 8 = 2) → ∃ t, exec (.vcvt n) s = .next t ∧
        VecWrites s t n q rest 2 (vcN q.slot) fun i => (convert (if vcFn q.slot % 8 = 1 then fmtBF16 else fmtFP16) (o.mode i) o.ftz (o.fa i)).1)
    ∧ (VecHead s n 0x13 q rest → vcFn q.slot % 8 = 0 → tyIsFp (vcTy q.slot) = true → ∃ t, exec (.vcvt n) s = .next t ∧
        VecWrites s t n q rest 4 (vcN q.slot) fun i => fmtFP32.rne (o.fa i))
    ∧ (VecHead s n 0x13 q rest → vcFn q.slot % 8 = 0 → tyIsFp (vcTy q.slot) = false → ∃ t, exec (.vcvt n) s = .next t ∧
        VecWrites s t n q rest 4 (vcN q.slot) fun i =>
          (fp32Res (o.mode i) false (Machine.Num.ofInt (if vcTy q.slot = 2 then (BitVec.ofNat 32 (o.a i)).toInt else (o.a i : Int)))).bits)
    ∧ (VecHead s n 0x13 q rest → vcFn q.slot % 8 = 3 → ∃ t, exec (.vcvt n) s = .next t ∧ VecWrites s t n q rest 4 (vcN q.slot) fun i =>
        let k := if vcRnd q.slot = 1 then (o.fa i).trunc else (o.fa i).rint
        match o.fa i with
        | .nan => 0
        | .inf g => if g then 2 ^ 31 else 2 ^ 31 - 1
        | .fin _ _ _ => if k < -2 ^ 31 then 2 ^ 31 else if 2 ^ 31 ≤ k then 2 ^ 31 - 1 else (k % 2 ^ 32).toNat)
    ∧ (∀ row ∈ reduceTable, VecHead s n row.2.1 q rest → ∃ t, exec (row.1 n) s = .next t ∧
        VecWrites s t n q rest o.w cnt fun _ => (narrow o.ty (o.mode 0) o.ftz (row.2.2 ((List.range (vcN q.slot)).map o.fa))).bits)
    ∧ (∀ row ∈ extremeTable, VecHead s n row.2.1 q rest → ∃ t, exec (row.1 n) s = .next t ∧
        VecWrites s t n q rest o.w cnt fun _ => (tyFmt o.ty).rne (((List.range (vcN q.slot - 1)).map fun i => o.fa (i + 1)).foldl row.2.2 (o.fa 0)))
    ∧ (VecHead s n 0x49 q rest → ∃ t, exec (.vurand n) s = .next t ∧
        VecWrites s t n q rest 4 (vcN q.slot) fun i => fmtFP32.rne (.fin false (o.rand i 0 / 256) (-24)))
    ∧ (VecHead s n 0x4A q rest → ∃ t, exec (.vnrand n) s = .next t ∧ VecWrites s t n q rest 4 (vcN q.slot) fun i => (o.vnrand i).bits)

/-- R151: a transcendental element of TYPE FP32 without FTZ: the stated special cases, VRCP rounded correctly, and elsewhere a result within the row's bound of the function. Model's readings it rests on: log entries 12, 14. -/
def Obligations.VectorTranscendentalsWithinBounds : Prop :=
  ∀ row ∈ transTable, ∀ (n : Fin 384) (s : State) (q : QCmd) (rest : List QCmd), VecHead s n row.2 q rest →
    let o : VOp := ⟨(s.core n).seenBy q, q.slot⟩
    ∃ t f, exec (row.1 n) s = .next t ∧ VecWrites s t n q rest o.w (vcN q.slot) f
      ∧ (vcTy q.slot = 0 → vcFtz q.slot = false → ∀ i, i < vcN q.slot →
          (o.fa i = .nan → f i = fmtFP32.canonNan)
          ∧ (∀ p ∈ transSpecial, p.1 = row.2 → o.fa i = p.2.1 → f i = p.2.2)
          ∧ (∀ g e, o.fa i = .fin g 0 e → (row.2 = 0x22 ∨ row.2 = 0x23 → f i = fmtFP32.infBits true) ∧ (row.2 = 0x24 ∨ row.2 = 0x25 → f i = fmtFP32.infBits g)
              ∧ (row.2 = 0x26 ∨ row.2 = 0x28 ∨ row.2 = 0x2A → f i = fmtFP32.signBit g))
          ∧ (∀ g m e, o.fa i = .fin g m e → m ≠ 0 →
              (g = true → row.2 = 0x22 ∨ row.2 = 0x23 ∨ row.2 = 0x25 → f i = fmtFP32.canonNan)
              ∧ (row.2 = 0x24 → f i = fmtFP32.rne (Machine.Num.div (.fin false 1 0) (o.fa i)))
              ∧ (row.2 = 0x20 → Machine.Num.lt (Machine.Num.ofInt 89) (o.fa i) = false → TransBound row.2 g m e (f i))
              ∧ (row.2 = 0x21 → Machine.Num.le (Machine.Num.ofInt 128) (o.fa i) = false →
                  (Machine.Num.eqv (Machine.Num.ofInt (o.fa i).trunc) (o.fa i) = false → TransBound row.2 g m e (f i))
                  ∧ (Machine.Num.eqv (Machine.Num.ofInt (o.fa i).trunc) (o.fa i) = true → -149 ≤ (o.fa i).trunc → f i = fmtFP32.rne (.fin false 1 (o.fa i).trunc)))
              ∧ (row.2 = 0x22 → g = false → (Machine.Num.eqv (o.fa i) (Machine.Num.ofInt 1) = false → TransBound row.2 g m e (f i)) ∧ (Machine.Num.eqv (o.fa i) (Machine.Num.ofInt 1) = true → f i = 0))
              ∧ (row.2 = 0x23 → g = false → (m ≠ 2 ^ Nat.log2 m → TransBound row.2 g m e (f i)) ∧ (m = 2 ^ Nat.log2 m → f i = fmtFP32.rne (Machine.Num.ofInt (numExp m e))))
              ∧ (0x26 ≤ row.2 ∨ (g = false ∧ row.2 = 0x25) → TransBound row.2 g m e (f i))))

/-- R153: with every address aligned and in the scratchpad, VGATHER loads the elements its indices name, VSCATTER stores its elements there in ascending order, and VSCADD adds into them; a VSCATTER changes no byte outside its elements. Model's readings it rests on: log entry 12. -/
def Obligations.VectorGatherScatter : Prop :=
  ∀ (n : Fin 384) (s : State) (q : QCmd) (rest : List QCmd),
    let o : VOp := ⟨(s.core n).seenBy q, q.slot⟩
    let es := List.range (vcN q.slot)
    o.gok o.w = true →
    (VecHead s n 0x40 q rest → ∃ t, exec (.vgather n) s = .next t ∧ (t.core n).vq = rest ∧ CoresBut s t n ∧ t.mem = s.mem
      ∧ ∀ i, i < vcN q.slot → (t.core n).velem (vcVd q.slot) o.w i = s.spmLE n (o.gaddr o.w i) o.w)
    ∧ (VecHead s n 0x41 q rest → ∃ t, exec (.vscatter n) s = .next t ∧ (t.core n).vq = rest ∧ CoresBut s t n ∧ (t.core n).vr = (s.core n).vr
      ∧ (∀ i, i < vcN q.slot → (∀ j, i < j → j < vcN q.slot → o.gaddr o.w j ≠ o.gaddr o.w i) → t.spmLE n (o.gaddr o.w i) o.w = o.b i)
      ∧ (∀ x, outside (es.map fun i => (spmAddr n (o.gaddr o.w i), o.w)) x → t.getByte x = s.getByte x))
    ∧ (VecHead s n 0x42 q rest → ∃ t, exec (.vscadd n) s = .next t ∧ (t.core n).vq = rest ∧ CoresBut s t n ∧ (t.core n).vr = (s.core n).vr
      ∧ (∀ i, i < vcN q.slot → (∀ j, j ≠ i → j < vcN q.slot → o.gaddr 4 j ≠ o.gaddr 4 i) → t.spmLE n (o.gaddr 4 i) 4 =
          (fp32Res (o.mode i) o.ftz (Machine.Num.add (ftzDec fmtFP32 o.ftz (s.spmLE n (o.gaddr 4 i) 4)) (o.fb i))).bits % 2 ^ 32)
      ∧ (∀ x, outside (es.map fun i => (spmAddr n (o.gaddr 4 i), 4)) x → t.getByte x = s.getByte x))

/-- R139, R155: the optimizer primitives: VMOM1 and VMOM2 blend the first and second moment, VADAMU forms the update, VWDEC decays, each step rounded to FP32; VCUPD writes the new weight and the new remainder. Model's readings it rests on: log entry 12. -/
def Obligations.VectorOptimizer : Prop :=
  ∀ (n : Fin 384) (s : State) (q : QCmd) (rest : List QCmd),
    let o : VOp := ⟨(s.core n).seenBy q, q.slot⟩
    let rn := fun (i : Nat) (v : Machine.Num) => (fp32Res (o.mode i) o.ftz v).val
    let d := fun (i : Nat) => ftzDec fmtFP32 o.ftz (o.c.velem (vcVd q.slot) 4 i)
    let beta := o.fs 0 31 0
    let blend := fun (i : Nat) (y : Machine.Num) => (fp32Res (o.mode i) o.ftz (Machine.Num.add (Machine.Num.mul beta (d i)) (rn i (Machine.Num.mul (rn i (Machine.Num.sub (Machine.Num.ofInt 1) beta)) y)))).bits
    (VecHead s n 0x50 q rest → ∃ t, exec (.vmom1 n) s = .next t ∧
      VecWrites s t n q rest 4 (vcN q.slot) fun i => blend i (fmtFP32.dec (fmtFP32.rne (o.fa i))))
    ∧ (VecHead s n 0x51 q rest → ∃ t, exec (.vmom2 n) s = .next t ∧
      VecWrites s t n q rest 4 (vcN q.slot) fun i => blend i (rn i (Machine.Num.mul (o.fa i) (o.fa i))))
    ∧ (VecHead s n 0x52 q rest → ∃ t, exec (.vadamu n) s = .next t ∧ VecWrites s t n q rest 4 (vcN q.slot) fun i =>
        let dd := rn i (Machine.Num.add (rn i (Machine.Num.sqrt (rn i (Machine.Num.mul (o.fs 0 63 32) (o.fb i))))) (o.fs 1 31 0))
        (fp32Res (o.mode i) o.ftz (Machine.Num.mul (o.fs 0 31 0).neg (rn i (Machine.Num.div (o.fa i) dd)))).bits)
    ∧ (VecHead s n 0x53 q rest → ∃ t, exec (.vwdec n) s = .next t ∧ VecWrites s t n q rest 4 (vcN q.slot) fun i =>
        (fp32Res (o.mode i) o.ftz (Machine.Num.sub (d i) (Machine.Num.mul beta (ftzDec fmtBF16 o.ftz (o.c.velem (vcVa q.slot) 2 i))))).bits)
    ∧ (VecHead s n 0x54 q rest → vcVd q.slot ≠ vcVc q.slot → ∃ t, exec (.vcupd n) s = .next t ∧ (t.core n).vq = rest ∧ CoresBut s t n ∧ t.mem = s.mem
        ∧ ∀ i, i < vcN q.slot → (t.core n).velem (vcVd q.slot) 2 i = (o.cupd i).1.bits % 65536 ∧ (t.core n).velem (vcVc q.slot) 2 i = (o.cupd i).2 % 65536)

/-! ### Core DMA and near-memory atomics -/

/-- R52, R53: a descriptor of at most 4,096 bytes between scratchpads moves whole: each destination element takes its source element, or PATTERN for FILL, where no two elements share bytes; no byte outside the destination elements changes. Model's readings it rests on: log entries 32, 55. -/
def Obligations.DmaMovesElements : Prop :=
  ∀ row ∈ dmaTable, ∀ (n : Fin 384) (q : Fin 8) (s : State) (i : KInst) (j : DmaJob) (idx : List Nat) (src dst : Nat → Nat),
    DmaReady s n q row.2 i j idx →
    let j' : DmaJob := { j with checked := true, idx := idx, waitM := none }
    let w := dBytes j.desc
    s.snpq = [] →
    (spmWin (dDst j.desc)).isSome = true → (row.2 ≠ 3 → (spmWin (dSrc j.desc)).isSome = true) →
    (∀ e, e < dTotal j.desc → SpmPlace s i.part (jobDst j' e) w (dst e) ∧ (row.2 ≠ 3 → SpmPlace s i.part (jobSrc j' e) w (src e))) →
    (∀ e f, e < dTotal j.desc → f < dTotal j.desc → (e ≠ f → apart (dst e) (dst f) w) ∧ (row.2 ≠ 3 → apart (src e) (dst f) w)) →
    ∃ t, exec (row.1 n q) s = .next t ∧ (t.core n).dmaHead q = some { j' with done := dTotal j.desc }
      ∧ (∀ e, e < dTotal j.desc → t.getBytes (dst e) w = if row.2 = 3 then leBytes w (dPattern j.desc) else s.getBytes (src e) w)
      ∧ (∀ x, outside ((List.range (dTotal j.desc)).map fun e => (dst e, w)) x → t.getByte x = s.getByte x)
      ∧ (t.core n).inst = some i ∧ CoresBut s t n

/-- R54, R55, R341: a descriptor all of whose bytes are visible completes: it leaves its queue, its generator is free and its event counter steps; at a preemption point a generator whose descriptor has moved whole is freed; a target that refuses a request ends the instance with DMA_BOUNDS, TARGET_RESET with DMA_TARGET_RESET. -/
def Obligations.DmaCompletesOrEnds : Prop :=
  ∀ (n : Fin 384) (q : Fin 8) (s : State) (i : KInst) (j : DmaJob) (js : List DmaJob), (s.core n).inst = some i → (s.core n).dmaq[q.val]? = some (j :: js) → j.checked = true → i.stream < 65536 →
    (dTotal j.desc ≤ j.done → (s.core n).waitingHeads = [] → js = [] →
      ∃ t, exec (.dmaComplete n q) s = .next t ∧ (t.core n).dmaHead q = none ∧ (∀ g ∈ (t.core n).gens, g.queue ≠ some q.val)
        ∧ (t.core n).evc (dEv j.desc) = (s.core n).evc (dEv j.desc) + (if dEvEn j.desc then 1 else 0) ∧ t.mem = s.mem ∧ CoresBut s t n)
    ∧ (∀ g, (s.core n).gens = [⟨some q.val, g⟩, ⟨none, 0⟩] → dTotal j.desc ≤ j.done → (s.core n).waitingHeads = [] →
      ∃ t, exec (.dmaPreemptionPoint n q) s = .next t ∧ (t.core n).gens = [⟨none, 0⟩, ⟨none, 0⟩] ∧ t.mem = s.mem ∧ CoresBut s t n)
    ∧ (j.done < dTotal j.desc → ∀ st : BitVec 8, st.toNat ∈ [stOutOfBounds, stDenied, stTimeout, stTargetReset] → s.fbit (F.coreErr_VALID n) = false →
      ∃ t, exec (.dmaRequestRefused n q st) s = .next t ∧ (t.core n).inst = none ∧ t.fbit (F.coreErr_VALID n) = true
        ∧ t.fget (F.coreErr_CODE n) = (if st.toNat = stTargetReset then 9 else 4) ∧ t.mem = s.mem ∧ CoresBut s t n)

/-- R184-R186: an atomic reads its target, stores the result of its operation there and answers the old value; no other byte changes. Model's readings it rests on: log entry 5. -/
def Obligations.AtomicsUpdateTheirTarget : Prop :=
  ∀ (a : BitVec 40) (s : State), MapOk s →
    (∀ row ∈ atomTable, ∀ x : BitVec 32, AtomReady s a.toNat 4 →
      ∃ t, exec (row.1 a x) s = .next t ∧ AtomDone s t a.toNat 4 (row.2 (s.getLE a.toNat 4) x.toNat))
    ∧ (∀ x : BitVec 64, AtomReady s a.toNat 4 → ∃ t, exec (.cas32 a x) s = .next t ∧
        AtomDone s t a.toNat 4 (if s.getLE a.toNat 4 = x.toNat % 2 ^ 32 then x.toNat / 2 ^ 32 else s.getLE a.toNat 4))
    ∧ (∀ x : BitVec 16, AtomReady s a.toNat 2 → ∃ t, exec (.bfadd16 a x) s = .next t ∧
        AtomDone s t a.toNat 2 (convert fmtBF16 .rne false (Machine.Num.add (fmtBF16.dec (s.getLE a.toNat 2)) (fmtBF16.dec x.toNat))).1)

/-! ### Faults of a core -/

/-- R69, R70, R72, R191: SECDED corrections are counted; a fault fatal to its core fences it, and its instance moves to the reserve core chosen, one replay counted, or ends with CHECK_FAIL where it may not be replayed or no reserve is free. Model's readings it rests on: log entry 18. -/
def Obligations.FaultedCoresAreReplayed : Prop :=
  ∀ (n : Fin 384) (w : Fin 262144) (s : State), (s.core n).fault = none →
    (∃ t, exec (.replay n 0x21 w) s = .next t ∧ Reported ((s.fsat (F.spmEcc_CORRECTED n) 1).fset (F.spmEcc_LAST n) (8 * w)) t)
    ∧ ∀ (code : BitVec 8) (i : KInst), (s.core n).inst = some i → s.resetting.contains n.val = false → i.part < 8 → i.vcore < 384 → i.stream < 65536 →
      (code.toNat ∈ [0x20, 0x22, 0x23, 0x24, 0x27, 0x28] → (i.noReplay = true ∨ code = 0x28 ∨ 2 ≤ i.faultsTB ∨ s.reserves i.part = []) →
        ∃ t, exec (.replay n code w) s = .next t ∧ (t.core n).inst = none ∧ t.fbit (F.coreFence_FENCE n) = true ∧ t.coreGood n = false ∧ CoresBut s t n
          ∧ (t.str i.stream).started = (s.str i.stream).started.map (fun o =>
              if o.seq = i.seq then { o with left := o.left - 1, fails := o.fails ++ [(i.vcore, stCheckFail, code.toNat)] } else o))
      ∧ ∀ r, code.toNat ∈ [0x20, 0x22, 0x23, 0x24, 0x27] → i.noReplay = false → i.faultsTB < 2 → s.pickReserve i.part n = some r →
        ∃ t, exec (.replay n code w) s = .next t ∧ (t.core n).inst = none ∧ t.fbit (F.coreFence_FENCE n) = true
          ∧ t.fget (F.coreVmap_PCORE i.part i.vcore) = r ∧ (∀ m, m ≠ n.val → m ≠ r → t.core m = s.core m)
          ∧ ∀ j, (t.core r).inst = some j → j.part = i.part ∧ j.vcore = i.vcore ∧ j.seq = i.seq ∧ j.replays = i.replays + 1 ∧ j.replaying = true
              ∧ (t.core r).pc = (if i.valid = none then i.entry else i.restore)

/-! ### Stacked memory and the LLC -/

/-- R197, R199, R200, R204, R206, R212: a burst written reads back; a clean read answers the bytes, a corrected one the decoder's and counts CE, a poisoned one POISON and counts it; the scrubber passes a clean burst and goes on; a retired MCH answers OUT_OF_BOUNDS; a refresh moves no data and stands before the next slot of its MCH. Model's readings it rests on: log entries 51, 57. -/
def Obligations.StackedMemoryBursts : Prop :=
  ∀ (w : ReqId) (m : Fin 768) (b : BitVec 24) (s : State),
    let pz := fun (t : State) (k : Nat) => Sparse.getD (fun _ => false) t.poison k
    let beside := fun (t : State) => { t with arbs := s.arbs, mslots := s.mslots }
    (∃ t, exec (.refresh m) s = .next t ∧ (t.mslot m).refresh = true ∧ (∀ k, k ≠ m.val → t.mslot k = s.mslot k) ∧ { t with mslots := s.mslots } = s)
    ∧ (mchState s m ≤ 1 →
      (∀ (d : Bytes) (p : Bool), d.length = 64 → ∃ t, exec (.mchBurstWrite m b d p) s = .next t ∧ t.resp = ⟨stOK, []⟩
        ∧ t.burstBytes m b.toNat = (if p then List.replicate 64 0 else d) ∧ pz t (m * 2 ^ 24 + b.toNat) = p
        ∧ (∀ k, (k < burstKey m b.toNat ∨ burstKey m b.toNat + 64 ≤ k) → Sparse.getD memDflt t.mem k = Sparse.getD memDflt s.mem k)
        ∧ (∀ k, k ≠ m * 2 ^ 24 + b.toNat → pz t k = pz s k) ∧ { beside t with mem := s.mem, poison := s.poison, resp := s.resp } = s)
      ∧ (pz s (m * 2 ^ 24 + b.toNat) = false → ∃ t, exec (.mchBurstRead m b ⟨w, []⟩) s = .next t ∧ beside t = s.answer stOK (s.burstBytes m b.toNat))
      ∧ (pz s (m * 2 ^ 24 + b.toNat) = true → ∃ t, exec (.mchBurstRead m b ⟨w, []⟩) s = .next t
        ∧ Reported ((s.fsat (F.memMchEcc_POISON m) 1).answer stPoison []) (beside t))
      ∧ (∀ e pat d, s.decodeBurst m b.toNat e = .corrected pat d → ∃ t, exec (.mchBurstRead m b ⟨w, e⟩) s = .next t ∧ t.resp = ⟨stOK, d⟩
        ∧ t.fget (F.memMchEcc_CE m) = min (s.fget (F.memMchEcc_CE m) + 1) (2 ^ 32 - 1) ∧ (RingsOff s → t.mem = s.mem) ∧ t.poison = s.poison)
      ∧ (∀ e, s.decodeBurst m b.toNat e = .uncorrectable → ∃ t, exec (.mchBurstRead m b ⟨w, e⟩) s = .next t ∧ t.resp = ⟨stPoison, []⟩
        ∧ pz t (m * 2 ^ 24 + b.toNat) = true ∧ t.fget (F.memMchEcc_UE m) = min (s.fget (F.memMchEcc_UE m) + 1) (2 ^ 16 - 1))
      ∧ (s.fget F.pwrStat_PARK = 0 → pz s (m * 2 ^ 24 + (s.mch m).scrub) = false → ∃ t, exec (.scrubRead m []) s = .next t
        ∧ t.mch m = { s.mch m with scrub := ((s.mch m).scrub + 1) % 2 ^ 24 } ∧ (∀ k, k ≠ m.val → t.mch k = s.mch k) ∧ { beside t with mchs := s.mchs } = s))
    ∧ (mchState s m = 3 → exec (.mchBurstRead m b ⟨w, []⟩) s = .next (s.answer stOutOfBounds [])
        ∧ ∀ d p, d.length = 64 → exec (.mchBurstWrite m b d p) s = .next (s.answer stOutOfBounds []))

/-- R163, R174, R183, R210: an LLC or narrow request to stacked memory that nothing holds up reads or writes its bytes and no other; a read that misses while its MCH retrains enters the holding queue of 64, or waits in the network before it; a request for an address that no slice is home of answers OUT_OF_BOUNDS; a corrected slice error is recorded and the read goes on. Model's readings it rests on: log entries 5, 53, 147, 152. -/
def Obligations.SliceRequestsReadAndWrite : Prop :=
  ∀ row ∈ [(Instr.llcRequest, false), (Instr.narrowRequest, true)], ∀ (w : ReqId) (a : BitVec 48) (s : State),
    (∀ n, SliceReady s a.toNat n false → ∃ t, exec (row.1 a ⟨w, .read n, .good⟩) s = .next t ∧ t.resp = ⟨stOK, s.getBytes a.toNat n⟩ ∧ t.mem = s.mem ∧ SliceSame s t)
    ∧ (∀ d, SliceReady s a.toNat d.length true → MapOk s → ∃ t, exec (row.1 a ⟨w, .write d, .good⟩) s = .next t ∧ t.resp = ⟨stOK, []⟩
        ∧ t.getBytes a.toNat d.length = d ∧ BackedBut s t a.toNat d.length ∧ SliceSame s t)
    ∧ (∀ n, 0 < n → a.toNat < 0xC000000000 → s.snoopLines a.toNat n false = [] → s.snpq = [] → s.retraining (s.homeOf (a.toNat / 64 * 64)) = true
        → s.llcHit (s.homeOf (a.toNat / 64 * 64)) (s.physOf (a.toNat / 64 * 64)).2 = false →
        let h : Held := { addr := a.toNat, acc := .read n, narrow := row.2, who := askerOf w }
        let m := s.homeOf a.toNat
        ∃ t, exec (row.1 a ⟨w, .read n, .good⟩) s = .next t ∧ { t with mchs := s.mchs } = s ∧ (∀ k, k ≠ m → t.mch k = s.mch k)
          ∧ t.mch m = if (s.mch m).held.length < 64 ∧ (s.mch m).net = [] then { s.mch m with held := (s.mch m).held ++ [h] } else { s.mch m with net := (s.mch m).net ++ [h] })
    ∧ (∀ n, s.sliceOf a.toNat = none →
        ∃ t, exec (row.1 a ⟨w, .read n, .good⟩) s = .next t ∧ t.resp = ⟨stOutOfBounds, []⟩ ∧ { t with resp := s.resp } = s)
    ∧ (∀ n m, s.sliceOf a.toNat = some m → SliceReady s a.toNat n false → RingsOff s →
        ∃ t, exec (row.1 a ⟨w, .read n, .corrected⟩) s = .next t ∧ t.resp = ⟨stOK, s.getBytes a.toNat n⟩ ∧ t.mem = s.mem
          ∧ Records s t (unitSlice m) 0x48)

/-- R201, R203, R207-R209, R211, R212, R214: the refresh rate and temperature of a stack; triggers join the queue once; one retraining runs at a time, holds its MCHs and ends with the state their bad pins decide; an MCH is retired by three bad pins, by 16 uncorrectable reads within a second under AUTO_RETIRE, or by the operator, and its retirement is fatal to the device. Model's readings it rests on: log entries 50, 52. -/
def Obligations.RetrainingAndRetirement : Prop :=
  ∀ (s : State),
    (∀ (k : Fin 12) (T : Int), -128 ≤ T → T ≤ 127 → ∃ t, exec (.stackTempRead k T) s = .next t
      ∧ t.fget (F.memStack_TEMP k) = wrapI 8 T ∧ (95 ≤ T → s.fget (F.memStack_RATE k) ≤ 2 → t.fget (F.memStack_RATE k) = 2) ∧ (T ≤ 83 → t.fget (F.memStack_RATE k) = 0)
      ∧ (85 ≤ T → T ≤ 93 → t.fget (F.memStack_RATE k) = 1) ∧ (T = 94 → t.fget (F.memStack_RATE k) = max 1 (s.fget (F.memStack_RATE k)))
      ∧ (T = 84 → t.fget (F.memStack_RATE k) = min 1 (s.fget (F.memStack_RATE k)))
      ∧ RegsBut s t [(Reg.memStack k).off] ∧ { t with regs := s.regs, rtq := s.rtq } = s)
    ∧ (∀ m : Fin 768, mchState s m ≤ 2 → (∀ j ∈ s.rtq, m.val ∉ j.mchs) →
        (s.fget F.memCfg_RT_PERIOD ≠ 0 → exec (.retrainPeriodExpiry m) s = .next { s with rtq := s.rtq ++ [⟨[m.val], [], false⟩] })
        ∧ (∀ p : Fin 38, p.val < 36 → s.erasedPin m = none → 0 < s.fget F.memCfg_PIN_THRESH → s.fget F.memCfg_PIN_THRESH ≤ ((s.mchSecond m).pinHits m p).length →
            ∃ t, exec (.pinThresholdReached m p) s = .next t ∧ Reported { (s.mchSecond m).fset (F.memMchStat_ERASED_PIN m) p with rtq := s.rtq ++ [⟨[m.val], [], false⟩] } t)
        ∧ (∀ q v, Reaches s q .memRetrain (with1 [F.memRetrain_GO] v) → inWord F.memRetrain_MCH v = m.val → s.fbit F.memRetrain_GO = false
            → ∀ x : BitVec 64, x.toNat = v → ∃ t, exec (.memRetrainGo q x) s = .next t ∧ t.resp = ⟨stOK, []⟩ ∧ t.rtq = s.rtq ++ [⟨[m.val], [], true⟩]
              ∧ t.fbit F.memRetrain_GO = true ∧ RegsBut s t [Reg.memRetrain.off] ∧ { t with regs := s.regs, rtq := s.rtq, resp := s.resp } = s))
    ∧ (∀ j rest, s.rtRun = none → s.rtq = j :: rest → s.fget F.pwrStat_PARK = 0 → j.mchs ≠ [] → (∀ m ∈ j.mchs, m < 768 ∧ mchState s m ≤ 1) → j.mchs.Nodup →
        ∃ t, exec .retrainStart s = .next t ∧ t.rtq = rest ∧ t.rtRun = some { j with prev := j.mchs.map (mchState s) } ∧ (∀ m ∈ j.mchs, mchState t m = 2)
          ∧ RegsBut s t (j.mchs.map (fun m => (Reg.memMchStat m).off) ++ lossOffs) ∧ { seenAs s t with regs := s.regs, rtq := s.rtq, rtRun := s.rtRun } = s)
    ∧ (∀ (j : RtJob) (m : Fin 768) (pv : Nat), s.rtRun = some j → j.mchs = [m.val] → j.prev = [pv] → j.req = false → mchState s m ≠ 3 → Rested s →
        (NoneHeld s m → ∃ t, exec (.retrainEnd [] []) s = .next t ∧ t.rtRun = none ∧ mchState t m = 0 ∧ t.erasedPin m = none
          ∧ t.fget (F.memMchStat_TRAIN_TEMP m) = s.fget (F.memStack_TEMP (m / 64)) ∧ t.fget (F.memMchStat_RETRAINS m) = min (s.fget (F.memMchStat_RETRAINS m) + 1) 65535
          ∧ (RingsOff s → t.mem = s.mem))
        ∧ (NoneHeld s m → ∀ p q : Fin 37, p < q → ∃ t, exec (.retrainEnd [p, q] []) s = .next t ∧ t.rtRun = none ∧ mchState t m = 1
          ∧ t.fget (F.memMchStat_SPARE_PIN m) = p ∧ t.erasedPin m = some q.val)
        ∧ (∀ p q r : Fin 37, p < q → q < r → ∃ t, exec (.retrainEnd [p, q, r] []) s = .next t ∧ t.rtRun = none ∧ mchState t m = 3 ∧ t.failed = true))
    ∧ (∀ m : Fin 768, mchState s m ≠ 3 →
        (s.fbit F.memCfg_AUTO_RETIRE = true → 16 ≤ ((s.mchSecond m).mch m).ues.length →
          ∃ t, exec (.autoRetire m) s = .next t ∧ mchState t m = 3 ∧ NoneHeld t m ∧ t.fpBit 112 m = false ∧ t.failed = true ∧ (∀ n, t.core n = s.core n))
        ∧ (∀ q (x : BitVec 64), Reaches s q .memRetire (with1 [F.memRetire_GO] x.toNat) → inWord F.memRetire_MCH x.toNat = m.val → s.retiredCount < 16 →
          ∃ t, exec (.memRetireGo q x) s = .next t ∧ t.resp = ⟨stOK, []⟩ ∧ mchState t m = 3 ∧ NoneHeld t m ∧ t.fpBit 112 m = false ∧ t.failed = true ∧ (∀ n, t.core n = s.core n)))

/-- R166, R167, R169, R213: a region entry that passes its checks takes effect, at once or when the transfers it concerns are over; a map commit waits for the switch, which makes the live MCHs the map in force. Model's readings it rests on: log entries 58, 59. -/
def Obligations.RegionTableAndMap : Prop :=
  ∀ (s : State),
    (∀ (q : Req) (p : Fin 8) (i : Fin 4096) (x : BitVec 64), Reaches s q (.prtRgnA p i) x.toNat →
      let v := s.merged q (.prtRgnA p i) x.toNat
      let r := Rgn.ofWords i v (s.reg (.prtRgnB p i))
      r.ty < 3 → (bitAt v 63 = true → s.rgnOk p r = true) →
      (bitAt (s.reg (.prtRgnA p i)) 63 = false → ∃ t, exec (.prtRgnAWrite q p i x) s = .next t ∧ t.resp = ⟨stOK, []⟩ ∧ t.reg (.prtRgnA p i) = v
        ∧ (bitAt v 63 = true → r ∈ t.regions p) ∧ RegsBut s t [(Reg.prtRgnA p i).off] ∧ { t with regs := s.regs, rgnLim := s.rgnLim, resp := s.resp } = s)
      ∧ (∀ o, bitAt (s.reg (.prtRgnA p i)) 63 = true → v ≠ s.reg (.prtRgnA p i) → (s.regions p).find? (·.idx = i.val) = some o → s.rgnBusy p o = true →
        exec (.prtRgnAWrite q p i x) s = .next { s with rgnq := s.rgnq ++ [⟨p, i, v, r.limit, q⟩] }))
    ∧ (∀ (p : Fin 8) (i : Fin 4096) (w : RgnWrite) (o : Rgn), s.rgnq.find? (fun q => q.part = p.val && q.idx = i.val) = some w → (s.regions p).find? (·.idx = i.val) = some o →
        s.rgnBusy p o = false → s.prtq = [] → Rested s → ∃ t, exec (.regionWriteComplete p i) s = .next t ∧ t.resp = ⟨stOK, []⟩ ∧ t.reg (.prtRgnA p i) = w.val % 2 ^ 64
          ∧ t.rgnq = s.rgnq.erase w ∧ RegsBut s t [(Reg.prtRgnA p i).off] ∧ { t with regs := s.regs, rgnLim := s.rgnLim, resp := s.resp, rgnq := s.rgnq } = s)
    ∧ (∀ (q : Req) (x : BitVec 64), Reaches s q .memMap (with1 [F.memMap_COMMIT] x.toNat) → s.fbit F.memMap_COMMIT = false → s.mapStale = true → s.noInstances = true → s.retiredCount ≤ 16 →
        ∃ t, exec (.memMapCommit q x) s = .next t ∧ t.resp = ⟨stOK, []⟩ ∧ t.fbit F.memMap_COMMIT = true ∧ t.mapN = s.mapN ∧ RegsBut s t [Reg.memMap.off]
          ∧ { t with regs := s.regs, resp := s.resp } = s)
    ∧ (s.fbit F.memMap_COMMIT = true → s.fw.transit = false → s.memBusy = false → s.retiredCount ≤ 16 →
        ∃ t, exec .mapSwitchDone s = .next t ∧ t.fbit F.memMap_COMMIT = false ∧ t.mapN = (liveMchs s).length ∧ t.liveList = liveMchs s
          ∧ t.fget F.memMap_RETIRED = (768 - (liveMchs s).length) % 32)

/-- R176, R177, R182, R190, R446: a commit of way modes that no valid region uses runs, and when it is done the new values are in force and every changing way reads zeros; a retried flit is counted; a crossing that loses a module has one less, and the device fails with the last. Model's readings it rests on: log entry 19. -/
def Obligations.WayModesAndCrossings : Prop :=
  ∀ (s : State),
    (∀ (q : Req) (x : BitVec 64), Reaches s q .llcCommit (with1 [F.llcCommit_GO] x.toNat) → s.fbit F.llcCommit_BUSY = false →
      (∀ g ∈ s.llcChanged, ∀ j, j < 8 → s.waysUsed (8 * g + j) (s.fget (F.llcGrp_SPW g)) (s.spwOf g) = false) →
      ∃ t, exec (.llcCommit q x) s = .next t ∧ t.resp = ⟨stOK, []⟩ ∧ t.fbit F.llcCommit_BUSY = true ∧ t.llcOp = s.llcChanged.map (fun g => (g, s.fget (F.llcGrp_SPW g))) ∧ (∀ g, t.spwOf g = s.spwOf g)
        ∧ RegsBut s t [Reg.llcCommit.off] ∧ { t with regs := s.regs, llcOp := s.llcOp, resp := s.resp } = s)
    ∧ (s.fbit F.llcCommit_BUSY = true → s.llcWaits = false → (∀ g ∈ s.llcOp, g.1 < 96 ∧ g.2 ≤ 16) → (s.llcOp.map (·.1)).Nodup → (∀ m, NoneHeld s m) → Rested s →
      ∃ t, exec .llcCommitDone s = .next t ∧ t.fbit F.llcCommit_BUSY = false ∧ t.fbit F.llcCommit_GO = false ∧ t.fget F.llcCommit_RESULT = 1 ∧ t.llcOp = []
        ∧ (∀ g ∈ s.llcOp, t.spwOf g.1 = g.2) ∧ (∀ g, g ∉ s.llcOp.map (·.1) → t.spwOf g = s.spwOf g)
        ∧ (∀ g ∈ s.llcOp, ∀ j w b, j < 8 → min (s.spwOf g.1) g.2 ≤ w → w < max (s.spwOf g.1) g.2 → w < 16 → b < 65536 →
            t.getByte (wayAddr (8 * g.1 + j) w + b) = 0)
        ∧ RegsBut s t (Reg.llcCommit.off :: lossOffs))
    ∧ (∀ x : Fin 12, ∃ t, exec (.crossingFlitCrcFail x) s = .next t ∧ t.fget (F.nocXstat_RETRIES x) = min (s.fget (F.nocXstat_RETRIES x) + 1) (2 ^ 32 - 1)
        ∧ RegsBut s t ((Reg.nocXstat x).off :: lossOffs) ∧ { seenAs s t with regs := s.regs } = s)
    ∧ (∀ x : Fin 12, 0 < s.fget (F.nocXstat_MODULES x) → ∃ t, exec (.moduleRemoved x) s = .next t
        ∧ t.fget (F.nocXstat_MODULES x) = s.fget (F.nocXstat_MODULES x) - 1 ∧ t.fpGet (408 + x) 1 = s.fget (F.nocXstat_MODULES x) - 1
        ∧ t.failed = (s.failed || decide (s.fget (F.nocXstat_MODULES x) = 1)) ∧ (∀ n, t.core n = s.core n))

/-! ### The host port -/

/-- R188, R200, R206, R218-R220, R314: a CXL.mem read in a decoder answers the bytes at DPA_BASE plus its offset, a write stores them, a failed one is counted and poisoned; under HDM-DB the filter holds the line; the host's answer to a snoop frees the line; host snoops read, share and drop lines of the host-line cache; an unanswered host-window request ends with TIMEOUT. Model's readings it rests on: log entries 56, 101. -/
def Obligations.CxlMemAndSnoops : Prop :=
  ∀ (s : State),
    (∀ (k : Fin 16) (off : BitVec 48) (len : Fin 65), s.hdmOn k = true →
      let a := s.hdmAddr k off.toNat
      (s.failed = false → s.hostMay k a len (·.rd) = true → SliceReady s a len false → (s.fget (F.hstHdm_MODE k) = 1 → s.filterFull a len = []) → ∃ t, exec (.cxlMemRead k off len) s = .next t
        ∧ Outbound.memData k (s.getBytes a len) false stOK ∈ t.outbox ∧ t.mem = s.mem
        ∧ (s.fget (F.hstHdm_MODE k) = 0 → SliceSame s { t with outbox := s.outbox })
        ∧ (s.fget (F.hstHdm_MODE k) = 1 → a % 64 + len ≤ 64 → a / 64 * 2 + 1 ∈ t.filterOf (s.homeOf a)))
      ∧ (s.failed = true ∨ s.hostMay k a len (·.rd) = false → ∃ t d, exec (.cxlMemRead k off len) s = .next t
        ∧ t.outbox = s.outbox ++ [.memData k d true stDenied] ∧ t.mem = s.mem
        ∧ (s.failed = false → t.fget (F.hstFstat_DENIED (1 + s.fget (F.hstHdm_PART k))) = min (s.fget (F.hstFstat_DENIED (1 + s.fget (F.hstHdm_PART k))) + 1) 65535))
      ∧ (∀ d : Bytes, d.length ≤ 64 →
        (s.failed = false → s.hostMay k a d.length (·.wr) = true → SliceReady s a d.length true → MapOk s → ∃ t, exec (.cxlMemWrite k off d false) s = .next t
          ∧ t.outbox = s.outbox ++ [.memData k [] false stOK] ∧ t.getBytes a d.length = d ∧ BackedBut s t a d.length ∧ SliceSame s { t with outbox := s.outbox })
        ∧ (s.failed = false → s.hostMay k a d.length (·.wr) = true → SliceReady s a d.length true → ∃ t, exec (.cxlMemWrite k off d true) s = .next t
          ∧ ∀ l ∈ lines64 a d.length, t.poisonedAt l = true)
        ∧ (s.failed = true ∨ s.hostMay k a d.length (·.wr) = false → ∃ t, exec (.cxlMemWrite k off d false) s = .next t
          ∧ t.outbox = s.outbox ++ [.memData k [] false stDenied] ∧ t.mem = s.mem)))
    ∧ (∀ (x : BitVec 48) (inv : Bool) (d : Bytes), let l := x.toNat / 64 * 64
        s.bisnp.find? (·.1 = l) = some (l, inv) → s.snpq = [] → Rested s →
        (∃ t, exec (.bisnpResponse x false d) s = .next t ∧ (∀ p ∈ t.bisnp, p.1 ≠ l) ∧ (inv = true → ∀ e ∈ t.filterOf (s.homeOf l), e / 2 ≠ l / 64)
          ∧ { t with bisnp := s.bisnp, snoop := s.snoop } = s)
        ∧ (d.length = 64 → l + 64 ≤ 0xC000000000 → s.backed l = true → s.poisonedAt l = false → MapOk s → ∃ t, exec (.bisnpResponse x true d) s = .next t
          ∧ t.getBytes l 64 = d ∧ BackedBut s t l 64 ∧ (∀ p ∈ t.bisnp, p.1 ≠ l)))
    ∧ (∀ (x : BitVec 48) (h : HLine), let l := x.toNat / 64 * 64
        s.hostUp = true → Sparse.find s.hlc (l / 64) = some h →
        let d := if h.st = 2 then s.getBytes l 64 else []
        (∃ t, exec (.snpdata x) s = .next t ∧ t.outbox = s.outbox ++ [.snpResp l d] ∧ Sparse.find t.hlc (l / 64) = some ⟨1⟩ ∧ t.mem = s.mem)
        ∧ (∃ t, exec (.snpinv x) s = .next t ∧ t.outbox = s.outbox ++ [.snpResp l d] ∧ Sparse.find t.hlc (l / 64) = none)
        ∧ (∃ t, exec (.snpcur x) s = .next t ∧ t = s.emit (.snpResp l d)))
    ∧ (∀ (k : Fin 65536) (seq : BitVec 32) (o : StrOp), StartedOp s k seq.toNat 2 o → isHost (cSrc o.desc) = true ∨ isHost (cDst o.desc) = true → CqReady s k →
        ∃ t, exec (.hostWindowTimeout (.copy k seq)) s = .next t ∧ Completed s t k o.desc stTimeout 0 0 ∧ StreamOnly s t k)
    ∧ (∀ (n : Fin 384) (q : Fin 8) (i : KInst) (j : DmaJob) (js : List DmaJob), (s.core n).inst = some i → (s.core n).dmaq[q.val]? = some (j :: js) → j.checked = true →
        i.stream < 65536 → j.done < dTotal j.desc → isHost (jobDst j j.done) = true → s.fbit (F.coreErr_VALID n) = false →
        ∃ t, exec (.hostWindowTimeout (.dma n q)) s = .next t ∧ (t.core n).inst = none ∧ t.fget (F.coreErr_CODE n) = 4 ∧ t.mem = s.mem ∧ CoresBut s t n)

/-- R216, R218, R245, R249, R353, R474: training, loss and reset of the port, its errors, IDE keys, the flush that needs no action, and the Ethernet links; a link that goes down may have been removed hot, which makes every function host-lost. Model's readings it rests on: log entries 75, 166. -/
def Obligations.PortAndEthernetLinks : Prop :=
  ∀ (s : State),
    (∀ g w r, s.cxl.st = 1 ∨ s.cxl.st = 3 → s.cxl.perst = false → (∀ k, (s.str k).cqWait = []) → ∃ t, exec (.cxlLinkTrained g w r) s = .next t
        ∧ Reported { s with cxl := { s.cxl with st := 2, gen := g, width := w, rate := r, ide := none } } t)
    ∧ (s.cxl.st = 2 → ∃ t, exec .cxlLinkDown s = .next t ∧ t.cxl = { s.cxl with st := 3, ide := none }
        ∧ (s.draw.1.getLsbD 0 = false → Reported { s.draw.2 with cxl := { s.cxl with st := 3, ide := none } } t)
        ∧ (s.draw.1.getLsbD 0 = true → ∀ f, f < 9 → t.fbit (F.hstAttach_LOST f) = true))
    ∧ (∃ t, exec .cxlUncorrectable s = .next t ∧ t.failed = true ∧ Records s t 0x7000 0x64 ∧ (∀ n, t.core n = s.core n))
    ∧ (∃ t, exec .cxlPerstNAssert s = .next t ∧ t.cxl.st = 0 ∧ t.cxl.perst = true ∧ ∀ f, f < 9 → t.fbit (F.hstAttach_LOST f) = true)
    ∧ (∃ t, exec .cxlPerstNDeassert s = .next t ∧ t.cxl = { s.cxl with perst := false, st := if s.cxl.may = true ∧ s.cxl.st = 0 then 1 else s.cxl.st } ∧ { t with cxl := s.cxl } = s)
    ∧ (∀ m, s.hostUp = true → s.fget F.secStat_MSTATE = 1 → ∃ t k, exec (.spdmIdeKm m true) s = .next t ∧ t.cxl = { s.cxl with ide := some k } ∧ { t with cxl := s.cxl, free := s.free } = s)
    ∧ (s.hostUp = true → exec .globalPersistentFlush s = .next (s.emit .gpfAck))
    ∧ (∀ p : Fin 2, s.fbit (F.ethCfg_EN p) = true →
        (s.fbit (F.ethStat_UP p) = true → ∀ c : FecCount, ∃ t, exec (.ethLinkDown ⟨p, c⟩) s = .next t
          ∧ Reported (((s.fsat (F.ethStat_FEC_CORR p) c.corr.toNat).fsat (F.ethStat_FEC_UNCORR p) c.uncorr.toNat).fset (F.ethStat_UP p) 0) t)
        ∧ exec (.ethLinkUp ⟨p, []⟩) s = .next (s.fset (F.ethStat_UP p) 1)
        ∧ ∀ q, ∃ t, exec (.ethLinkUp ⟨p, [q]⟩) s = .next t ∧ Sparse.find t.qps q.1 = some (q.2.val, p.val) ∧ { t with qps := s.qps } = s.fset (F.ethStat_UP p) 1)

/-- R239, R240, R242, R245, R248: a heartbeat restarts its timer, and one that comes after it has run out is too late; a function is host-lost by DETACH or by a timer that has run out, and its partition's streams are held under DRAIN_AND_PARK; its clusters are gated once they have drained; ATTACH ends the loss, steps EPOCH and opens the gate. Model's readings it rests on: log entries 2, 72. -/
def Obligations.HostLossAndReattachment : Prop :=
  ∀ (f : Fin 9) (s : State),
    (∀ q (v : BitVec 64), Reaches s q (.hstHb f) v.toNat → s.hbExpired f = false → ∃ t, exec (.heartbeat q f v) s = .next t ∧ t.resp = ⟨stOK, []⟩
      ∧ Sparse.getD (fun _ => 0) t.hbAt f = s.now 8 ∧ { t with hbAt := s.hbAt, resp := s.resp } = s)
    ∧ (s.fbit (F.hstAttach_LOST f) = false →
      let held := fun (t : State) => t.fbit (F.hstAttach_LOST f) = true ∧ ∀ p, p + 1 = f.val → s.partState p ≠ 0 → s.fget (F.hstHbcfg_POLICY f) = 1 →
        ∀ k ∈ s.liveStreams p, (s.strState k = 1 ∨ s.strState k = 2 → t.strState k = 4 ∧ (t.str k).fetched = [] ∧ (t.str k).started = (s.str k).started) ∧ (s.strState k = 3 → t.strState k = 4)
      (∀ q, Reaches s q (.hstAttach f) (fields [(F.hstAttach_DETACH f, 1)]) → ∃ t, exec (.detach q f) s = .next t ∧ t.resp = ⟨stOK, []⟩ ∧ held t)
      ∧ (s.hbExpired f = true → (∃ t, exec (.hostLost f) s = .next t ∧ held t)
        ∧ ∀ q (v : BitVec 64), Reaches s q (.hstHb f) v.toNat → ∃ t, exec (.heartbeat q f v) s = .next t ∧ t.resp = ⟨stOK, []⟩ ∧ held t))
    ∧ (s.hbExpired f = false → exec (.hostLost f) s = .next s)
    ∧ (s.fbit (F.hstAttach_LOST f) = true → ∀ q, Reaches s q (.hstAttach f) (fields [(F.hstAttach_ATTACH f, 1)]) → ∃ t, exec (.attach q f) s = .next t
        ∧ t.resp = ⟨stOK, []⟩ ∧ t.fbit (F.hstAttach_LOST f) = false ∧ t.fget (F.hstAttach_EPOCH f) = (s.fget (F.hstAttach_EPOCH f) + 1) % 65536
        ∧ Sparse.getD (fun _ => 0) t.hbAt f = s.now 8 ∧ (∀ p, p + 1 = f.val → bitAt t.gated p = false))
    ∧ (∀ p : Fin 8, s.fbit (F.hstAttach_LOST (1 + p)) = true → s.fget (F.hstHbcfg_POLICY (1 + p)) = 1 → s.partState p ≠ 0 →
        (∀ k ∈ s.liveStreams p, (s.str k).started = []) → s.partRuns p = false → exec (.hostLossGate p) s = .next { s with gated := setBit s.gated p true })

/-! ### Streams -/

/-- R224-R226, R230, R231, R236: a doorbell moves TAIL, one out of range is dropped and counted; a fetch appends the 64 bytes at HEAD; a good new descriptor passes its checks and steps NEXT_SEQ; a wrong CRC or a gap completes it, halts the stream and names the cause; a recent duplicate repeats the cached record, an older one says so, and either halts the stream under HALT_ON_ERR. Model's readings it rests on: log entries 34, 66, 67. -/
def Obligations.DoorbellsFetchesAndChecks : Prop :=
  ∀ (k : Fin 65536) (s : State),
    (∀ (f : Fin 9) (v : BitVec 64), bitsOf v.toNat 47 32 = k → s.fnOwns f k = true → s.partResetting (s.strPart k) = false →
      let d := (bitsOf v.toNat 31 0 + 2 ^ 32 - s.fget (F.strHead_HEAD k)) % 2 ^ 32
      (d ≤ 2 ^ s.fget (F.strRing_LOG2N k) → ∃ t, exec (.doorbell f v) s = .next t ∧ t.fget (F.strHead_TAIL k) = bitsOf v.toNat 31 0
        ∧ t.fget (F.strHead_HEAD k) = s.fget (F.strHead_HEAD k) ∧ RegsBut s t ((Reg.strHead k).off :: lossOffs) ∧ { seenAs s t with regs := s.regs } = s)
      ∧ (2 ^ s.fget (F.strRing_LOG2N k) < d → exec (.doorbell f v) s = .next (s.fsat (F.hstFstat_DB_DROP f) 1)))
    ∧ (s.fetchable k = true → s.fetchTurn (s.strPart k) = some k.val → (∀ p, p < 8 → p ≠ s.strPart k → s.fetchTurn p = none) →
      let a := s.fget (F.strRing_BASE k) + s.fget (F.strHead_HEAD k) % 2 ^ s.fget (F.strRing_LOG2N k) * 64
      s.inRegion (s.strPart k) a 64 (·.rd) = true → SliceReady s a 64 false →
      ∃ t, exec (.descriptorFetch k) s = .next t ∧ (t.str k).fetched = (s.str k).fetched ++ [s.getLE a 64] ∧ t.fget (F.strHead_HEAD k) = (s.fget (F.strHead_HEAD k) + 1) % 2 ^ 32
        ∧ RegsBut s t [(Reg.strHead k).off] ∧ (∀ j, j ≠ k.val → t.str j = s.str j) ∧ SliceSame s { t with regs := s.regs, strs := s.strs, strTurn := s.strTurn })
    ∧ (∀ d rest, (s.str k).fetched = d :: rest → s.strRuns k = true → (s.str k).checked = false → (s.str k).started.length < 256 → s.cqFull k = false →
      (descCrc d = sdCrc d → sdSeq d = s.nextSeq k → descReserved d = false → sdOp d ≠ 3 → s.descAddrs (s.strPart k) d = .good →
        ∃ t, exec (.descriptorCheck k) s = .next t ∧ (t.str k).checked = true ∧ (t.str k).fetched = d :: rest ∧ t.nextSeq k = (s.nextSeq k + 1) % 2 ^ 32 ∧ t.strState k = 1
          ∧ RegsBut s t [(Reg.strStat k).off] ∧ { t with regs := s.regs, strs := s.strs } = s)
      ∧ (descCrc d ≠ sdCrc d → CqReady s k → ∃ t, exec (.descriptorCheck k) s = .next t ∧ RecordAt s t k d (strRecord k d stCheckFail 0 2 0 (s.now 8) true)
          ∧ t.strState k = 3 ∧ t.fget (F.strStat_HCAUSE k) = 2 ∧ t.nextSeq k = s.nextSeq k ∧ (t.str k).fetched = [] ∧ StreamOnly s t k)
      ∧ (descCrc d = sdCrc d → CqReady s k →
        let df := (sdSeq d + 2 ^ 32 - s.nextSeq k) % 2 ^ 32
        let turned := fun (t : State) => (sdHaltOnErr d = false → (t.str k).fetched = rest) ∧ (sdHaltOnErr d = true → (t.str k).fetched = [] ∧ t.strState k = 3 ∧ t.fget (F.strStat_HCAUSE k) = 4)
        (df ≠ 0 → df < 2 ^ 31 → ∃ t, exec (.descriptorCheck k) s = .next t ∧ Completed s t k d stDenied 3 0 ∧ t.strState k = 3 ∧ t.fget (F.strStat_HCAUSE k) = 3
          ∧ t.nextSeq k = s.nextSeq k ∧ StreamOnly s t k)
        ∧ (∀ o : DupRec, 2 ^ 32 - 64 ≤ df → (s.str k).dup.find? (·.1 = sdSeq d) = some (sdSeq d, some o) → ∃ t, exec (.descriptorCheck k) s = .next t
          ∧ RecordAt s t k d (strRecord k d stDuplicate o.status o.detail o.result (s.now 8) false) ∧ t.nextSeq k = s.nextSeq k ∧ turned t ∧ StreamOnly s t k)
        ∧ (2 ^ 31 ≤ df → df < 2 ^ 32 - 64 → ∃ t, exec (.descriptorCheck k) s = .next t
          ∧ RecordAt s t k d (strRecord k d stDuplicate 0xFF 0 0 (s.now 8) false) ∧ t.nextSeq k = s.nextSeq k ∧ turned t ∧ StreamOnly s t k)))

/-- R233-R235, R237: NOP, FENCE, COMMIT, SIGNAL and WAIT at the head of a stream: each waits until it may start and then completes with its record; a FENCE under HALT_ON_ERR after a failure takes the status of the lowest SEQ that failed, and that SEQ as RESULT, as a COMMIT always does. -/
def Obligations.StreamOrderingDescriptors : Prop :=
  ∀ (k : Fin 65536) (s : State) (d : Nat), CqReady s k →
    let done := fun (c : Instr) (st detail res : Nat) => ∃ t, exec c s = .next t ∧ Completed s t k d st detail res ∧ (t.str k).fetched.length + 1 ≤ max 1 (s.str k).fetched.length
      ∧ StreamOnly s t k
    (s.strHead k 0 = some d → done (.streamNop k) stOK 0 0)
    ∧ (s.strHead k 4 = some d → ((s.str k).started ≠ [] → exec (.streamFence k) s = .next (s.setStrState k 2))
      ∧ ((s.str k).started = [] → sdHaltOnErr d = false ∨ (s.str k).badF = [] → done (.streamFence k) stOK 0 0)
      ∧ (∀ q st, (s.str k).started = [] → sdHaltOnErr d = true → s.firstBad k (s.str k).badF = some (q, st) → st ≠ stOK → ∃ t, exec (.streamFence k) s = .next t
          ∧ Completed s t k d st 0 q ∧ t.strState k = 3 ∧ t.fget (F.strStat_HCAUSE k) = 4 ∧ (t.str k).badF = [] ∧ StreamOnly s t k))
    ∧ (s.strHead k 5 = some d → ((s.str k).started ≠ [] ∨ (s.str k).colOpen ≠ [] → exec (.streamCommit k) s = .next (s.setStrState k 2))
      ∧ ((s.str k).started = [] → (s.str k).colOpen = [] → (s.str k).badC = [] → done (.streamCommit k) stOK 0 0)
      ∧ (∀ q st, (s.str k).started = [] → (s.str k).colOpen = [] → s.firstBad k (s.str k).badC = some (q, st) → ∃ t, exec (.streamCommit k) s = .next t
          ∧ Completed s t k d st 0 q ∧ t.strState k = 3 ∧ t.fget (F.strStat_HCAUSE k) = 1 ∧ (t.str k).badC = [] ∧ StreamOnly s t k))
    ∧ (s.strHead k 6 = some d → (s.str k).started = [] → ∃ t, exec (.streamSignal k) s = .next t
        ∧ t.fget (F.strScnt_SCNT (gStream d)) = (s.fget (F.strScnt_SCNT (gStream d)) + gValue d) % 2 ^ 64 ∧ Completed s t k d stOK 0 0 ∧ StreamOnly s t k)
    ∧ (s.strHead k 7 = some d → (gValue d ≤ s.fget (F.strScnt_SCNT (gStream d)) → done (.waitSignal k) stOK 0 0)
      ∧ (s.fget (F.strScnt_SCNT (gStream d)) < gValue d → exec (.waitSignal k) s = .next (s.setStrState k 2)))

/-- R228, R229, R235, R237, R244: a COPY starts and, once complete, has moved its bytes and answers their count or their CRC-64; a NETWRITE sends its bytes and completes on its acknowledgement or with TIMEOUT; a LAUNCH copies its image and starts one instance on each of its cores, and completes when all have ended; a WAIT whose time is over completes with TIMEOUT. Model's readings it rests on: log entries 2, 77. -/
def Obligations.StreamWorkDescriptors : Prop :=
  ∀ (k : Fin 65536) (s : State) (seq : BitVec 32),
    (∀ d, s.strHead k 2 = some d → ∃ t, exec (.streamCopy k) s = .next t ∧ (t.str k).started = (s.str k).started ++ [⟨sdSeq d, 2, d, 1, [], 0⟩]
      ∧ (t.str k).fetched = (s.str k).fetched.tail ∧ t.mem = s.mem ∧ t.cores = s.cores ∧ (∀ j, j ≠ k.val → t.str j = s.str j))
    ∧ (∀ o, StartedOp s k seq.toNat 2 o → CqReady s k →
      let a := cSrc o.desc
      let b := cDst o.desc
      let n := cLen o.desc
      let crc := crc64xz (s.getBytes a n)
      s.dmaPhys (s.strPart k) a = some a → s.dmaPhys (s.strPart k) b = some b → SliceReady s a n false → SliceReady s b n true → MapOk s →
      (cqSlot s k + 32 ≤ b ∨ b + n ≤ cqSlot s k) →
      ∃ t, exec (.copyComplete k seq) s = .next t ∧ t.getBytes b n = s.getBytes a n ∧ (t.str k).started = (s.str k).started.filter (·.seq ≠ seq.toNat)
        ∧ Completed s t k o.desc (if sdCheck o.desc = true ∧ crc ≠ cExp o.desc then stCheckFail else stOK) 0 (if sdDcrc o.desc then crc else n)
        ∧ (∀ x, (x < b ∨ b + n ≤ x) → (x < cqSlot s k ∨ cqSlot s k + 32 ≤ x) → s.backed x = true → t.getByte x = s.getByte x))
    ∧ (∀ d a pt, s.strHead k 8 = some d → Sparse.find s.qps (nQp d) = some pt → s.dmaPhys (s.strPart k) (cSrc d) = some a → SliceReady s a (cLen d) false → (∀ o ∈ (s.str k).started, o.seq ≠ sdSeq d) →
      ∃ t, exec (.streamNetwrite k) s = .next t ∧ t.outbox = s.outbox ++ [.rdma pt.2 (Sparse.getD (fun _ => 0) s.fuses.mac (2 * pt.2)) (nQp d) (nRaddr d) (nRkey d) (s.getBytes a (cLen d))]
        ∧ (t.str k).started = (s.str k).started ++ [⟨sdSeq d, 8, d, 1, [], if sdDcrc d then crc64xz (s.getBytes a (cLen d)) else cLen d⟩] ∧ t.mem = s.mem ∧ t.cores = s.cores)
    ∧ (∀ o, StartedOp s k seq.toNat 8 o → CqReady s k →
      (∃ t, exec (.netwriteAck k seq) s = .next t ∧ Completed s t k o.desc stOK 0 o.result ∧ (t.str k).started = (s.str k).started.filter (·.seq ≠ seq.toNat) ∧ StreamOnly s t k)
      ∧ (∃ t, exec (.netwriteTimeout k seq) s = .next t ∧ Completed s t k o.desc stTimeout 0 0 ∧ (t.str k).started = (s.str k).started.filter (·.seq ≠ seq.toNat) ∧ StreamOnly s t k))
    ∧ (∀ d, s.strHead k 1 = some d →
      let p := s.strPart k
      s.partState p ≠ 2 → (∀ i, i < lVnum d → ∃ n, s.vmap p (lVfirst d + i) = some n ∧ s.coreIdle n = true ∧ s.fw.swaps.contains n = false) →
      (∀ i j n, i < lVnum d → j < lVnum d → s.vmap p (lVfirst d + i) = some n → s.vmap p (lVfirst d + j) = some n → i = j) →
      sdLoaded d = true ∨ SliceReady s (lProg d) (32 * lBundles d) false →
      ∃ t, exec (.streamLaunch k) s = .next t
        ∧ (∀ i n, i < lVnum d → s.vmap p (lVfirst d + i) = some n → (t.core n).inst = some (launchInst k p d i) ∧ (t.core n).pc = lEntry d ∧ (t.core n).umode = false
          ∧ (t.core n).reg 1 = BitVec.ofNat 64 (lArgs d + i * lStride d) ∧ (t.core n).reg 4 = BitVec.ofNat 64 (lCkpt d + 8192 * i)
          ∧ (sdLoaded d = false → ∀ j, j < lBundles d → (t.core n).bundle (1024 + j) = BitVec.ofNat 256 (leVal (s.getBytes (lProg d + 32 * j) 32))))
        ∧ (∀ n, (∀ i, i < lVnum d → s.vmap p (lVfirst d + i) ≠ some n) → t.core n = s.core n)
        ∧ (t.str k).started = (s.str k).started ++ [⟨sdSeq d, 1, d, lVnum d, [], 0⟩] ∧ t.mem = s.mem)
    ∧ (∀ o, StartedOp s k seq.toNat 1 o → o.left = 0 → CqReady s k →
      (o.fails = [] → ∃ t, exec (.launchComplete k seq) s = .next t ∧ Completed s t k o.desc stOK 0 0 ∧ (t.str k).started = (s.str k).started.filter (·.seq ≠ seq.toNat) ∧ StreamOnly s t k)
      ∧ (∀ v st det, o.fails = [(v, st, det)] → ∃ t, exec (.launchComplete k seq) s = .next t ∧ Completed s t k o.desc st det (v + 2 ^ 32) ∧ StreamOnly s t k))
    ∧ (∀ d, s.strHead k 7 = some d → CqReady s k → s.fget (F.strScnt_SCNT (gStream d)) < gValue d → gTimeout d ≠ 0 → (s.str k).waitAt + gTimeout d * 1200000 ≤ s.now 8 →
      ∃ t, exec (.waitTimeout k) s = .next t ∧ Completed s t k d stTimeout 0 0 ∧ (t.str k).fetched.length + 1 ≤ max 1 (s.str k).fetched.length ∧ StreamOnly s t k)

/-- R222, R223, R236, R242, R246: the writes of STR_CTL, STR_CQ and STR_HEAD that enable, disable, resume and halt a stream and empty its rings. Model's readings it rests on: log entry 72. -/
def Obligations.StreamControl : Prop :=
  ∀ (q : Req) (k : Fin 65536) (v : BitVec 64) (s : State),
    let ctl := fun (w : Nat) => s.setReg (.strCtl k) (s.merged q (.strCtl k) w % 2 ^ 61 + 2 ^ 63)
    let same := inWord (F.strCtl_PART k) v.toNat = s.strPart k
    let en := with1 [F.strCtl_EN k] v.toNat
    let re := with1 [F.strCtl_EN k, F.strCtl_RESUME k] v.toNat
    let off := with0 [F.strCtl_EN k, F.strCtl_RESUME k] v.toNat
    let halt := with1 [F.strCtl_EN k, F.strCtl_HALT k] (with0 [F.strCtl_RESUME k] v.toNat)
    (Reaches s q (.strCtl k) en → inWord (F.strCtl_RESUME k) v.toNat = 0 → s.strState k = 0 → s.fbit F.strCtx_LOCK = true → (ctl en).ringsOk k = true →
      ∃ t, exec (.streamEnable q k v) s = .next t ∧ t.resp = ⟨stOK, []⟩ ∧ t.strState k = 1 ∧ t.fbit (F.strCtl_EN k) = true ∧ t.strPart k = inWord (F.strCtl_PART k) v.toNat ∧ t.cores = s.cores)
    ∧ (Reaches s q (.strCtl k) re → same → s.strState k = 3 → (ctl re).ringsOk k = true →
      ∃ t, exec (.streamResume q k v) s = .next t ∧ t.resp = ⟨stOK, []⟩ ∧ t.strState k = 1 ∧ t.fget (F.strStat_HCAUSE k) = 0 ∧ t.cores = s.cores)
    ∧ (Reaches s q (.strCtl k) off → same → s.strState k = 3 ∨ s.strState k = 4 → s.fget (F.strStat_OUTSTANDING k) = 0 →
      ∃ t, exec (.streamDisable q k v) s = .next t ∧ t.resp = ⟨stOK, []⟩ ∧ t.strState k = 0 ∧ t.fbit (F.strCtl_EN k) = false
        ∧ RegsBut s t [(Reg.strCtl k).off, (Reg.strStat k).off] ∧ { t with regs := s.regs, resp := s.resp } = s)
    ∧ (Reaches s q (.strCtl k) off → same → s.strState k < 3 →
      ∃ t, exec (.streamDisable q k v) s = .next t ∧ t = s.answer stDenied [])
    ∧ (Reaches s q (.strCtl k) halt → same → s.strState k = 1 ∨ s.strState k = 2 →
      ∃ t, exec (.streamHalt q k v) s = .next t ∧ t.resp = ⟨stOK, []⟩ ∧ t.strState k = 3 ∧ t.fget (F.strStat_HCAUSE k) = 6 ∧ (t.str k).fetched = [] ∧ (t.str k).started = (s.str k).started
        ∧ RegsBut s t [(Reg.strCtl k).off, (Reg.strStat k).off, (Reg.strHead k).off] ∧ (∀ j, j ≠ k.val → t.str j = s.str j) ∧ { t with regs := s.regs, strs := s.strs, resp := s.resp } = s)
    ∧ (s.strStopped k = true →
      (Reaches s q (.strCq k) v.toNat → 4 ≤ inWord (F.strCq_LOG2N k) v.toNat → inWord (F.strCq_LOG2N k) v.toNat ≤ 16 → ∃ t, exec (.strCqWrite q k v) s = .next t ∧ t.resp = ⟨stOK, []⟩
        ∧ t.reg (.strCq k) = s.merged q (.strCq k) v.toNat ∧ t.fget (F.strCqhead_CQHEAD k) = 0 ∧ (t.str k).cqn = 0 ∧ RegsBut s t [(Reg.strCq k).off, (Reg.strCqhead k).off])
      ∧ (Reaches s q (.strHead k) v.toNat → ∃ t, exec (.strHeadWrite q k v) s = .next t ∧ t.resp = ⟨stOK, []⟩ ∧ t.fget (F.strHead_HEAD k) = inWord (F.strHead_HEAD k) v.toNat
        ∧ t.fget (F.strHead_TAIL k) = inWord (F.strHead_HEAD k) v.toNat ∧ RegsBut s t [(Reg.strHead k).off] ∧ { t with regs := s.regs, resp := s.resp } = s))

/-! ### Links and the fabric -/

/-- R258, R260, R261, R275, R353: light and FEC lock bring a link to HELLO on four wavelengths and its HELLO leaves; a verified HELLO that echoes the NONCE negotiates the generation and, from the expected peer, brings the link UP; a peer nothing expects is shut out as POLICY says; failed HELLOs are retried twice and then REJECTED; certificates are cached; the first key brings an encrypted link UP; a link that goes DOWN forgets its peer and keeps the messages it has received whole. Model's readings it rests on: log entries 22, 62, 80, 81, 82, 155, 159. -/
def Obligations.LinksComeUpByHelloAndKey : Prop :=
  ∀ (l : Fin 64) (s : State),
    (s.linkState l ≤ 1 → s.laserOn l = true → s.secOn = true → ∃ t, exec (.fecLock l) s = .next t ∧ t.linkState l = 2 ∧ t.fget (F.lnkStat_WL l) = 4
      ∧ t.fget (F.lnkStat_WL_MASK l) = 15 ∧ t.linkGen l = 0 ∧ HelloSent t l 0 s.outbox ∧ RegsBut s t ((Reg.lnkStat l).off :: lossOffs))
    ∧ ((s.link l).retry = true → SaysHello s l → ∃ t, exec (.helloRetry l) s = .next t ∧ (t.link l).retry = false ∧ HelloSent t l 0 s.outbox ∧ t.regs = s.regs)
    ∧ (s.linkState l = 5 → s.fbit (F.lnkPeerId_VALID l) = false → s.secOn = true → ∃ t, exec (.helloRepeat l) s = .next t ∧ (t.link l).hfails = 0 ∧ HelloSent t l 0 s.outbox ∧ t.regs = s.regs)
    ∧ (∀ h : Bytes, 2 ≤ s.linkState l → s.fw.transit = false → s.secOn = true → (s.link l).rx = [] →
      (HelloGood s h → SaysHello s l → recField h 32 8 = 0 → recField h 24 8 ≠ (s.link l).peerNonce → ∃ t, exec (.helloMsg l h) s = .next t ∧ HelloSent t l (recField h 24 8) s.outbox
        ∧ (t.link l).peerNonce = recField h 24 8 ∧ t.regs = s.regs)
      ∧ (HelloGood s h → recField h 32 8 ≠ 0 → recField h 32 8 = (s.link l).nonce → s.fbit (F.lnkCfg_ENC l) = false →
          bitAt (recField h 6 1) 3 = true → bitAt (s.fget (F.lnkCfg_GEN_ALLOW l)) 1 = true →
        let dev := recField h 4 2 % 32768
        let port := recField h 2 2 % 64
        (s.fbit (F.lnkExpect_VALID l) = true → s.devOk dev = true → recField h 16 4 = s.fget F.rteCfg_TOPO_EPOCH → s.fget (F.lnkExpect_DEVID l) = dev → s.fget (F.lnkExpect_PORT l) = port →
          ∃ t, exec (.helloMsg l h) s = .next t ∧ t.linkState l = 3 ∧ t.linkGen l = 3 ∧ t.fbit (F.lnkPeerId_VALID l) = true ∧ t.fget (F.lnkPeerId_DEVID l) = dev
            ∧ t.fget (F.lnkPeerId_SERIAL l) = recField h 8 6 ∧ (t.link l).hfails = 0)
        ∧ (s.fbit (F.lnkExpect_VALID l) = false ∨ s.devOk dev = false → ∃ t, exec (.helloMsg l h) s = .next t
            ∧ t.linkState l = (if s.fget (F.lnkCfg_POLICY l) = 2 then 5 else 4) ∧ t.fget (F.lnkStat_REASON l) = 3))
      ∧ (¬ HelloGood s h → (s.link l).hfails < 2 → ∃ t, exec (.helloMsg l h) s = .next t ∧ (t.link l).hfails = (s.link l).hfails + 1 ∧ (t.link l).retry = true ∧ t.linkState l = s.linkState l)
      ∧ (¬ HelloGood s h → 2 ≤ (s.link l).hfails → ∃ t, exec (.helloMsg l h) s = .next t ∧ t.linkState l = 5 ∧ t.fget (F.lnkStat_REASON l) = 4))
    ∧ (∀ c : Bytes, 2 ≤ s.linkState l → s.secOn = true → Config.certVerify c = true → ∃ t, exec (.certMsg l c) s = .next t
        ∧ Sparse.getD (fun _ => []) t.certs (Config.certSerial c).toNat = Config.certKey c ∧ t.regs = s.regs ∧ t.mem = s.mem)
    ∧ (∀ k : Bytes, s.linkState l = 2 ∨ s.linkState l = 3 → s.secOn = true → s.linkGen l = 3 → s.fbit (F.lnkCfg_ENC l) = true → s.fbit (F.lnkStat_ENC_ACTIVE l) = false → (s.link l).kem = true →
        Config.kemVerify (Sparse.getD (fun _ => []) s.certs (s.fget (F.lnkPeerId_SERIAL l))) k = true →
        ∃ t, exec (.linkKem l k) s = .next t ∧ t.linkState l = 3 ∧ t.fbit (F.lnkStat_ENC_ACTIVE l) = true ∧ (t.link l).fseq = 0 ∧ (t.link l).kem = false ∧ (t.link l).txKey.isSome = true)
    ∧ (s.fbit (F.lnkStat_ENC_ACTIVE l) = true → s.linkState l = 3 → s.linkGen l = 3 → (s.link l).kem = false → s.secOn = true → (s.link l).txq = [] → ∃ t m, exec (.rekey l) s = .next t
        ∧ (t.link l).kem = true ∧ m.cls = 3 ∧ m.typ = 3 ∧ (Outbound.link l m ∈ t.outbox ∨ ∃ x ∈ (t.link l).txq, x.m = m) ∧ t.regs = s.regs)
    ∧ (s.linkState l ≠ 0 → (s.link l).unacked = [] → (s.link l).txq = [] → ∃ t, exec (.linkDown l) s = .next t ∧ t.linkState l = 0 ∧ t.fbit (F.lnkPeerId_VALID l) = false
        ∧ t.link l = { LinkS.init with rx := (s.link l).rx } ∧ (∀ k, k ≠ l.val → t.link k = s.link k) ∧ t.cores = s.cores ∧ (RingsOff s → t.mem = s.mem))

/-- R252-R257, R264, R266-R268: a good flit in order is taken with its acknowledgement and credits, a bad one counted; a replay resends the frames that are unacknowledged; a frame's messages are received, and one that fails its check has its flits expected again; of the frames that messages leave in together on generation 3 all but the last are full; a message for another device leaves on the link that its route chooses, by number where it is ordered and by most credit where it is not, and is discarded at TTL 1; a message that waits too long moves to ESC. Model's readings it rests on: log entries 78, 84, 85, 155, 156. -/
def Obligations.FlitsFramesAndRouting : Prop :=
  ∀ (l : Fin 64) (s : State),
    (∀ (f : Bytes) (c : FecCount), f.length ≠ 256 → f.length ≠ 128 → exec (.flitReceive l ⟨f, c⟩) s = .fault .illFormed)
    ∧ (∀ (f : Bytes) (c : FecCount), 2 ≤ s.linkState l →
      let n := if s.linkGen l = 3 then 240 else 112
      let u := (s.fsat (F.lnkFec_CORR l) c.corr.toNat).fsat (F.lnkFec_UNCORR l) c.uncorr.toNat
      f.length = n + 16 →
      (crc64xz (f.take (n + 8)) ≠ recField f (n + 8) 8 → exec (.flitReceive l ⟨f, c⟩) s = .next (u.fsat (F.lnkCnt_FLIT_CRC l) 1))
      ∧ (crc64xz (f.take (n + 8)) = recField f (n + 8) 8 → recField f n 2 ≠ (s.link l).flRx → exec (.flitReceive l ⟨f, c⟩) s = .next u)
      ∧ (crc64xz (f.take (n + 8)) = recField f (n + 8) 8 → recField f n 2 = (s.link l).flRx → (s.link l).txq = [] → ∃ t, exec (.flitReceive l ⟨f, c⟩) s = .next t
          ∧ (t.link l).flRx = ((s.link l).flRx + 1) % 65536
          ∧ (t.link l).unacked = (s.link l).unacked.filter (fun e => decide (32768 ≤ (recField f (n + 2) 2 + 65536 - e.last) % 65536))
          ∧ (∀ c, t.credit l c = s.credit l c + (if c = recField f (n + 4) 1 ∧ c < 12 then recField f (n + 6) 2 else 0))
          ∧ (∀ k, k ≠ l.val → t.link k = s.link k) ∧ { t with links := u.links } = u))
    ∧ (2 ≤ s.linkState l → (s.link l).unacked ≠ [] → ∃ t, exec (.linkReplay l) s = .next t ∧ t.outbox = s.outbox ++ (s.link l).unacked.map (fun e => Outbound.frame l e.kind e.data)
        ∧ t.fget (F.lnkCnt_REPLAYS l) = min (s.fget (F.lnkCnt_REPLAYS l) + 1) 65535 ∧ t.links = s.links ∧ t.mem = s.mem)
    ∧ (∀ f : Bytes, 2 ≤ s.linkState l →
      ((s.linkGen l = 3 → s.framePayload l f = none) → (s.linkGen l ≠ 3 → baseFrame f = none) →
        exec (.frameReceive l f) s = .next ((s.fsat (F.lnkCnt_FLIT_CRC l) 1).modLink l fun k => { k with flRx := k.rxMark }))
      ∧ (∀ p m, s.linkGen l ≠ 3 → baseFrame f = some p → recField f 10 1 = 0 → (s.link l).part = [] → cutMsgs p.length p = ([m], []) → Arrived s l m → m.cls = 3 → 1 ≤ m.typ.toNat → m.typ.toNat ≤ 4 →
          ∃ t, exec (.frameReceive l f) s = .next t ∧ (t.link l).rx = (s.link l).rx ++ [m] ∧ (t.link l).rxMark = (s.link l).flRx ∧ { t with links := s.links } = s))
    ∧ (∀ m : Msg, s.isLocal m = true → m ∉ (s.link l).rx → ∃ t, exec (.messageRoute l m) s = .next t ∧ (t.link l).rx = (s.link l).rx ++ [m] ∧ { t with links := s.links } = s)
    ∧ (∀ m : Msg, s.isLocal m = false → Arrived s l m →
      let u := s.takeRx l m
      (m.ttl ≤ 1 → m.cls ≠ 0 → ∃ t, exec (.messageRoute l m) s = .next t ∧ Reported { s with links := t.links } t ∧ (t.link l).rx = (s.link l).rx.erase m ∧ (t.link l).txq = (s.link l).txq)
      ∧ (1 < m.ttl → m.sub ≠ 2 → s.fbit (F.rteEntc_VALID m.dst.toNat) = true →
        let live := s.liveOf (Sparse.getD (fun _ => (0, 0)) s.rte m.dst.toNat).1
        let sent := fun (k : Nat) => { m with ttl := m.ttl - 1, sub := s.dateline m (s.axisOfPhys l) k }
        let room := fun (k : Nat) => Room s (s.physLink k) (sent k)
        (m.ordered = true → ∀ k, live[(m.src.toNat * 7 + m.dst.toNat * 13 + m.cls.toNat) % live.length]? = some k → room k →
          ∃ t, exec (.messageRoute l m) s = .next t ∧ Left s t u.outbox (s.physLink k) (sent k) ∧ LinksOnly s t)
        ∧ (m.ordered = false → (∀ k ∈ live, room k) → live ≠ [] → ∃ t k, exec (.messageRoute l m) s = .next t ∧ Left s t u.outbox (s.physLink k) (sent k) ∧ k ∈ live
          ∧ (∀ j ∈ live, s.credit (s.physLink j) (msgSub (sent j)) ≤ s.credit (s.physLink k) (msgSub (sent k))) ∧ LinksOnly s t)))
    ∧ (∀ (x : TxMsg) (rest : List TxMsg), (s.link l).txq = x :: rest → x.m.sub ≠ 2 → s.fbit (F.rteEntc_ESC_VALID x.m.dst.toNat) = true →
      let k := s.physLink (s.fget (F.rteEntc_ESC_LINK x.m.dst.toNat))
      let m' := { x.m with sub := 2 }
      k ≠ l.val → s.linkLive k = true → Room s k m' → 2 * (if s.linkGen k = 3 then 4098 else 128) ≤ s.credit k (msgSub m') →
      ∃ t, exec (.escWaitExpiry l) s = .next t ∧ (t.link l).txq = rest ∧ Left s t s.outbox k m' ∧ LinksOnly s t)
    ∧ (∀ ms : List Msg, s.linkGen l = 3 → ∀ i, i + 1 < (s.frameList l ms).length → ∀ f, (s.frameList l ms)[i]? = some f → f.1.length = 4144)

/-- R164, R165, R254, R256, R257, R362: a fabric read or write to a region of the link's partition with FABRIC reads or writes memory and answers OK, one its regions refuse is answered DENIED; a response completes the request of its tag, and a lost one times out. Model's readings it rests on: log entries 85, 86. -/
def Obligations.FabricRequestsAreServed : Prop :=
  ∀ (l : Fin 64) (m : Msg) (s : State),
    let a := recField m.hdr 0 6
    let len := recField m.hdr 8 4
    let u := s.takeRx l m
    (Arrived s l m → s.isLocal m = true → m.cls = 0 → ∀ x m',
      (m.typ = 1 → s.fabricOk l a len (·.rd) = true → SliceReady s a len false → Goes s (rspTo s.devid m stOK (s.getBytes a len)) none x m' →
        ∃ t, exec (.fabricRead l m) s = .next t ∧ Left s t u.outbox x m' ∧ m'.data.take len = s.getBytes a len ∧ t.mem = s.mem ∧ t.regs = s.regs)
      ∧ (m.typ = 2 → s.fabricOk l a m.data.length (·.wr) = true → SliceReady s a m.data.length true → MapOk s → Goes s (rspTo s.devid m stOK []) none x m' →
        ∃ t, exec (.fabricWrite l m) s = .next t ∧ Left s t u.outbox x m' ∧ t.getBytes a m.data.length = m.data ∧ BackedBut s t a m.data.length ∧ t.regs = s.regs)
      ∧ (m.typ = 1 → s.fabricOk l a len (·.rd) = false → Goes s (rspTo s.devid m stDenied []) none x m' → ∃ t, exec (.fabricRead l m) s = .next t ∧ Left s t u.outbox x m' ∧ t.mem = s.mem)
      ∧ (m.typ = 2 → s.fabricOk l a m.data.length (·.wr) = false → Goes s (rspTo s.devid m stDenied []) none x m' →
          ∃ t, exec (.fabricWrite l m) s = .next t ∧ Left s t u.outbox x m' ∧ t.mem = s.mem))
    ∧ (∀ (tag left : Nat) (data : Bytes), Sparse.find s.freq tag = some ⟨left, none, data⟩ →
      (Arrived s l m → s.isLocal m = true → m.cls = 1 → recField m.hdr 0 4 = tag → recField m.hdr 4 1 = stOK → ∃ t, exec (.fabricResponse l m) s = .next t
        ∧ Sparse.find t.freq tag = some ⟨left - m.data.length, if left ≤ m.data.length then some stOK else none, data ++ m.data.take left⟩ ∧ t.mem = s.mem ∧ t.regs = s.regs)
      ∧ (∀ b : BitVec 32, b.toNat = tag → ∃ t, exec (.fabricRequestTimeout b) s = .next t ∧ Sparse.find t.freq tag = some ⟨left, some stTimeout, data⟩
          ∧ (∀ k, k ≠ tag → Sparse.find t.freq k = Sparse.find s.freq k) ∧ { t with freq := s.freq } = s))

/-- R251, R261, R262, R265, R271, R277-R279, R457: a wavelength that loses lock leaves its mask while it retrains and returns or, below MINWL, takes the link DOWN; the writes of the link and route registers; Eclipse switches; the map swap; markers. Model's readings it rests on: log entry 82. -/
def Obligations.LinkRegistersAndWavelengths : Prop :=
  ∀ (q : Req) (l : Fin 64) (v : BitVec 64) (s : State),
    (∀ w : Fin 4, 2 ≤ s.linkState l → bitAt (s.fget (F.lnkStat_WL_MASK l)) w = true → s.rte = [] → ∃ t, exec (.wavelengthLoss l w) s = .next t
        ∧ t.fget (F.lnkStat_WL_MASK l) = setBit (s.fget (F.lnkStat_WL_MASK l)) w false ∧ t.fget (F.lnkStat_WL l) = popCount 4 (t.fget (F.lnkStat_WL_MASK l))
        ∧ t.fbit (F.lnkStat_RETRAIN l) = true ∧ t.linkState l = s.linkState l ∧ bitAt (t.link l).rt w = true ∧ RegsBut s t [(Reg.lnkStat l).off, (Reg.lnkCnt l).off])
    ∧ (∀ w : Fin 4, (s.link l).rt = 2 ^ w.val →
        (∃ t, exec (.wavelengthRetrainEnd l w true) s = .next t ∧ bitAt (t.fget (F.lnkStat_WL_MASK l)) w = true ∧ t.fbit (F.lnkStat_RETRAIN l) = false ∧ (t.link l).rt = 0 ∧ t.linkState l = s.linkState l)
        ∧ (s.linkState l ≠ 0 → popCount 4 (s.fget (F.lnkStat_WL_MASK l)) < s.fget (F.lnkCfg_MINWL l) → (s.link l).unacked = [] → (s.link l).txq = [] →
            ∃ t, exec (.wavelengthRetrainEnd l w false) s = .next t ∧ t.linkState l = 0))
    ∧ (Reaches s q (.lnkCfg l) v.toNat →
        (inWord (F.lnkCfg_POLICY l) v.toNat = 3 ∨ inWord (F.lnkCfg_MINWL l) v.toNat < 2 ∨ 4 < inWord (F.lnkCfg_MINWL l) v.toNat → exec (.lnkCfgWrite q l v) s = .next (s.answer stDenied []))
        ∧ (inWord (F.lnkCfg_POLICY l) v.toNat ≠ 3 → 2 ≤ inWord (F.lnkCfg_MINWL l) v.toNat → inWord (F.lnkCfg_MINWL l) v.toNat ≤ 4 → s.linkState l = 0 →
            ∃ t, exec (.lnkCfgWrite q l v) s = .next t ∧ t.resp = ⟨stOK, []⟩ ∧ t.reg (.lnkCfg l) = s.merged q (.lnkCfg l) v.toNat
              ∧ t.linkState l = (if t.laserOn l then 1 else 0) ∧ RegsBut s t ((Reg.lnkCfg l).off :: (Reg.lnkStat l).off :: lossOffs)))
    ∧ (Reaches s q (.lnkExpect l) v.toNat → s.fbit (F.lnkPeerId_VALID l) = false → ∃ t, exec (.lnkExpectWrite q l v) s = .next t ∧ t.resp = ⟨stOK, []⟩
        ∧ t.reg (.lnkExpect l) = s.merged q (.lnkExpect l) v.toNat ∧ RegsBut s t [(Reg.lnkExpect l).off] ∧ { t with regs := s.regs, resp := s.resp } = s)
    ∧ (Reaches s q (.lnkMap l) v.toNat → (∀ k, k < 64 → k ≠ l.val → s.physLink k ≠ inWord (F.lnkMap_PHYS l) v.toNat) → ∃ t, exec (.lnkMapWrite q l v) s = .next t ∧ t.resp = ⟨stOK, []⟩
        ∧ t.physLink l = inWord (F.lnkMap_PHYS l) v.toNat ∧ RegsBut s t [(Reg.lnkMap l).off])
    ∧ (∀ d : BitVec 15, Reaches s q (.rteEntc d.toNat) v.toNat → inWord (F.rteEntc_ESC_LINK d.toNat) v.toNat < 60 → ∃ t, exec (.rteEntcWrite q d v) s = .next t ∧ t.resp = ⟨stOK, []⟩
        ∧ Sparse.getD (fun _ => (0, 0)) t.rte d.toNat = (s.fget (F.rtePrimary_MASK d.toNat), s.fget (F.rteDetour_MASK d.toNat))
        ∧ t.reg (.rteEntc d.toNat) = s.merged q (.rteEntc d.toNat) v.toNat ∧ RegsBut s t [(Reg.rteEntc d.toNat).off])
    ∧ (Reaches s q .rteCfg v.toNat → 100 ≤ inWord F.rteCfg_ESC_WAIT_NS v.toNat → inWord F.rteCfg_ESC_WAIT_NS v.toNat ≤ 10000 → s.fget F.bootStatus_STAGE < 7 → (∀ k, k < 64 → s.fbit (F.lnkPeerId_VALID k) = false) →
        ∃ t, exec (.rteCfgWrite q v) s = .next t ∧ t.resp = ⟨stOK, []⟩ ∧ t.devid = inWord F.rteCfg_DEVID v.toNat ∧ t.fget F.rteCfg_TOPO_EPOCH = inWord F.rteCfg_TOPO_EPOCH v.toNat ∧ RegsBut s t [Reg.rteCfg.off])
    ∧ (∀ o : BitVec 28, o.toNat = Reg.rteShape.off → Reaches s q .rteShape v.toNat → (∀ k, k < 64 → s.linkState k ≠ 3) → (∀ k, k < 60 → s.fbit (F.lnkPeerId_VALID k) = false) →
        inWord F.rteShape_LXM1 v.toNat ≠ 0 → inWord F.rteShape_LYM1 v.toNat ≠ 0 → inWord F.rteShape_LZM1 v.toNat ≠ 0 → ∃ t, exec (.registerWrite q o (leBytes 8 v.toNat)) s = .next t
          ∧ t.resp = ⟨stOK, []⟩ ∧ t.reg .rteShape = s.merged q .rteShape v.toNat ∧ ∀ k, k < 60 → ∀ d, t.alongLink k 1 = some d →
            t.fbit (F.lnkExpect_VALID k) = true ∧ t.fget (F.lnkExpect_DEVID k) = d ∧ t.fget (F.lnkExpect_PORT k) = pairedPort k)
    ∧ (∀ p : Fin 30, (Reaches s q (.lnkEcl p) (with1 [F.lnkEcl_FORCE p] v.toNat) → s.fbit (F.lnkEcl_FORCE p) = false → s.eclRail = true → ∃ t, exec (.eclipseForce q p v) s = .next t
          ∧ t.resp = ⟨stOK, []⟩ ∧ t.fbit (F.lnkEcl_FORCE p) = true ∧ t.fget (F.lnkEcl_STATE p) = 2 ∧ RegsBut s t [(Reg.lnkEcl p).off])
        ∧ exec (.eclipseSwitchSettled p) s = .next (s.fset (F.lnkEcl_STATE p) (if s.fbit (F.lnkEcl_FORCE p) = true ∨ s.eclRail = false then 1 else 0)))
    ∧ (∀ x, s.mapSwap = [(x, l.val)] → x < 64 → (∀ k, k < 64 → s.physLink k ≠ l.val) → (s.link (s.physLink x)).unacked = [] → (s.link (s.physLink x)).txq = [] → (s.link l).unacked = [] → (s.link l).txq = [] →
        ∃ t, exec .lnkMapSwap s = .next t ∧ t.physLink x = l.val ∧ t.mapSwap = [] ∧ RegsBut s t [(Reg.lnkMap x).off])
    ∧ (s.fbit F.trcMkr_EN = true → s.linkState l = 3 → s.linkGen l = 3 → (∀ x, (s.link l).mkrAt = some x → x + 2 ^ s.fget F.trcMkr_PLOG2 ≤ s.now (linkDie l)) → ∃ t, exec (.markerSend l) s = .next t
        ∧ t.outbox = s.outbox ++ [.frame l 1 (s.frameBytes l 1 (s.link l).fseq (leBytes 8 (s.now (linkDie l)) ++ leBytes 2 s.devid ++ leBytes 1 l ++ leBytes 5 1))]
        ∧ (t.link l).fseq = (s.link l).fseq + 1 ∧ (t.link l).mkrAt = some (s.now (linkDie l)) ∧ { t with links := s.links, outbox := s.outbox } = s)

/-! ### Collectives -/

/-- R285, R286, R290, R291, R295: a COLLECTIVE that passes R290's first checks is accepted: it takes the next sequence of its group or pair and joins the pending operations, a BARRIER contributing at once; one that fails them completes with the status, and one of no elements with OK. Model's readings it rests on: log entries 25, 89. -/
def Obligations.CollectivesAreAccepted : Prop :=
  ∀ row ∈ collTable, ∀ (k : Fin 65536) (s : State) (d : Nat), s.strHead k 3 = some d → kOpc d = row.2 → (s.cops.filter (·.st = 0)).length < 65536 →
    let o := acceptedOp s k d
    let g := kGroup d
    (∀ st, s.colCheck k (s.strPart k) d = .bad st → CqReady s k → (∀ x ∈ (s.str k).started, x.seq ≠ sdSeq d) → ∃ t, exec (row.1 k) s = .next t ∧ Completed s t k d st 0 0 ∧ t.cops = s.cops ∧ StreamOnly s t k)
    ∧ (s.colCheck k (s.strPart k) d = .noop → CqReady s k → (∀ x ∈ (s.str k).started, x.seq ≠ sdSeq d) → ∃ t, exec (row.1 k) s = .next t ∧ Completed s t k d stOK 0 0 ∧ t.cops = s.cops ∧ StreamOnly s t k)
    ∧ (s.colCheck k (s.strPart k) d = .good → s.early = [] → (∀ x ∈ s.cops, x.id ≠ o.id) → (row.2 ≠ 7 → s.colFoots o = none) → (row.2 = 7 → opKids o ≠ []) →
      (row.2 = 4 → s.blocked (kCnts d) (8 * (s.group g).members.length) false = none) →
      ∃ t, exec (row.1 k) s = .next t
        ∧ t.cops = s.cops ++ [if row.2 = 7 then { o with st := 1, origin := o.rank, kids := [(o.rank, stOK, o.rank)] } else o]
        ∧ (t.str k).started = (s.str k).started ++ [⟨sdSeq d, 3, d, 1, [], 0⟩] ∧ (t.str k).colOpen = (s.str k).colOpen ++ [sdSeq d] ∧ (t.str k).fetched = (s.str k).fetched.tail
        ∧ (t.group g).gseq = (if kPair d then (s.group g).gseq else ((s.group g).gseq + 1) % 2 ^ 32)
        ∧ (row.2 = 8 → Sparse.getD (fun _ => 0) (t.group g).sends (kRoot d) = (Sparse.getD (fun _ => 0) (s.group g).sends (kRoot d) + 1) % 2 ^ 32)
        ∧ (row.2 = 9 → Sparse.getD (fun _ => 0) (t.group g).recvs (kRoot d) = (Sparse.getD (fun _ => 0) (s.group g).recvs (kRoot d) + 1) % 2 ^ 32)
        ∧ (∀ j, j ≠ g → t.group j = s.group j) ∧ t.mem = s.mem ∧ t.cores = s.cores)

/-- R293-R295: the oldest pending operation of a group starts, expects the chunks of its pattern and asks staging for those it forms; a staging chunk goes to the oldest demand; CREDIT_REQ, CREDIT, ACK and NACK move a chunk along; a received COUNT fixes what a RECV expects. Model's readings it rests on: log entries 23, 89. -/
def Obligations.CollectiveChunksAndCredits : Prop :=
  ∀ (s : State),
    (∀ (g : Fin 4096) (o : ColOp) (rest : List ColOp), s.failed = false → ((s.groupOps g (· = 1)).filter fun o => kOpc o.desc ≠ 7).length < 64 → s.groupOps g (· = 0) = o :: rest → s.cop o.id = some o → s.early = [] →
        kOpc o.desc ∈ [0, 1, 2, 5, 6, 9] → o.cnts = [] →
        let refs := opChunkRefs o []
        refs.2 = [] ∨ (s.fget F.colPool_CHUNKS = 0 ∧ 2 ≤ s.resUsed g ∧ refs.2.Nodup ∧ ∀ x ∈ s.cdem, x.op ≠ o.id) →
        ∃ t, exec (.collectiveOpStart g) s = .next t ∧ t.cop o.id = some { o with st := 1, want := refs.1, result := 0, dropped := false } ∧ CopsBut s t o.id
          ∧ t.cdem = s.cdem ++ refs.2.map (fun c => ⟨o.id, c, true⟩) ∧ { t with cops := s.cops, cdem := s.cdem } = s)
    ∧ (∀ (dm : ColDem) (rest : List ColDem) (o : ColOp), s.failed = false → s.cdem = dm :: rest → dm.own = false → s.cop dm.op = some o → 0 < s.poolFree → s.mayReserve dm = false →
        ∃ t, exec .chunkGrant s = .next t ∧ t.cdem = rest.filter (· ≠ dm) ∧ CopsBut s t dm.op
          ∧ t.cop dm.op = some { o with stages := o.stages ++ [(o.nstg, false, s.freePlace)], nstg := o.nstg + 1, ins := o.ins ++ [⟨dm.ref, o.nstg, [], none, false, [], false⟩], stalled := false }
          ∧ (∀ x m', Goes s (ctlMsg s o 4 dm.ref.q dm.ref.rank (ctlData 0 dm.ref.kind 0)) none x m' → Outbound.link x m' ∈ t.outbox))
    ∧ (∀ (l : Fin 64) (m : Msg) (o : ColOp), o.st = 1 →
      (ColMeets s l m 3 o → kOpc o.desc ≠ 4 → kOpc o.desc ≠ 9 → (∀ x ∈ o.ins, x.ref ≠ ctlRef m) → ctlRef m ∉ o.good → ctlRef m ∈ o.want → s.cdem = [] → 0 < s.poolFree → s.mayReserve ⟨o.id, ctlRef m, false⟩ = false →
        ∃ t, exec (.creditReqMsg l m) s = .next t ∧ t.cop o.id = some { o with stages := o.stages ++ [(o.nstg, false, s.freePlace)], nstg := o.nstg + 1, ins := o.ins ++ [⟨ctlRef m, o.nstg, [], none, false, [], false⟩], stalled := false }
          ∧ CopsBut s t o.id)
      ∧ (ColMeets s l m 3 o → kOpc o.desc ≠ 4 → kOpc o.desc ≠ 9 → (∀ x ∈ o.ins, x.ref ≠ ctlRef m) → ctlRef m ∉ o.good → ctlRef m ∈ o.want → s.poolFree = 0 → s.mayReserve ⟨o.id, ctlRef m, false⟩ = false →
          ⟨o.id, ctlRef m, false⟩ ∉ s.cdem → ∃ t, exec (.creditReqMsg l m) s = .next t ∧ t.cdem = s.cdem ++ [⟨o.id, ctlRef m, false⟩] ∧ t.cops = s.cops)
      ∧ (∀ x, ColMeets s l m 4 o → mChunk m ≠ 0xFFFFFFFF → recField m.data 8 1 ≠ 1 → o.txs.find? (fun t => t.ref = ctlRef m && !t.sent) = some x → o.want ≠ [] → ∃ t o', exec (.creditMsg l m) s = .next t
          ∧ t.cop o.id = some o' ∧ o'.txs = o.txs.map (fun y => if y.ref = ctlRef m then { y with sent := true } else y) ∧ o'.stalled = false ∧ o'.want = o.want ∧ CopsBut s t o.id)
      ∧ (ColMeets s l m 5 o → recField m.data 8 1 = 0 ∨ recField m.data 8 1 = 2 → o.want ≠ [] → ∃ t o', exec (.ackMsg l m) s = .next t ∧ t.cop o.id = some o'
          ∧ o'.txs = o.txs.filter (fun y => !(y.ref = ctlRef m && y.sent)) ∧ o'.want = o.want ∧ o'.nacked = o.nacked.filter (· ≠ ctlRef m) ∧ CopsBut s t o.id
          ∧ t.fget (F.colChcnt_RESEND (kChannel o.desc)) = min (s.fget (F.colChcnt_RESEND (kChannel o.desc)) + (if ctlRef m ∈ o.nacked then 1 else 0)) 65535)
      ∧ (∀ x, ColMeets s l m 6 o → recField m.data 8 1 ≠ 1 → o.txs.find? (fun t => t.ref = ctlRef m && t.sent) = some x → ∃ t, exec (.nackMsg l m) s = .next t
          ∧ t.fget (F.colChcnt_RESEND (kChannel o.desc)) = s.fget (F.colChcnt_RESEND (kChannel o.desc)) ∧ t.cop o.id = some { o with nacked := o.nacked ++ [ctlRef m], stalled := false } ∧ CopsBut s t o.id)
      ∧ (ColMeets s l m 7 o → kOpc o.desc = 9 → o.cnts = [] → mRank m = o.id.peer.toNat → s.early = [] →
          let n := recField m.data 0 8 % 2 ^ 40
          0 < n → n ≤ kCount o.desc → ∃ t, exec (.countsMsg l m) s = .next t ∧ t.cop o.id = some { o with cnts := [(mRank m, n)], want := (List.range (blockChunks o.desc n)).map fun j => ⟨2, j, mRank m⟩ }
            ∧ CopsBut s t o.id))

/-- R296, R297, R302: a verified FINAL or DATA chunk is written to DST and recorded as received; a verified PARTIAL is added to the member's own elements on the side that R297 gives it and the sum goes on in the carry format. Model's readings it rests on: log entries 23, 88. -/
def Obligations.ReductionAndDistribution : Prop :=
  ∀ (l : Fin 64) (m : Msg) (s : State) (o : ColOp) (x : ColIn) (c : ChunkRef) (len : Nat), WholeChunk o m c x len → (∃ e ∈ o.want, e ≠ c) → RingsOff s →
    let d := o.desc
    let first := (chunkSpan d c.q).1
    (∀ row ∈ [(Instr.finalMsg, 1, 0), (Instr.dataMsg, 2, 5)], ColMeets s l m row.2.1 o → kOpc d = row.2.2 → distTo (kAlg d) (opP o) (ownerOf o c.q) c.q o.rank (opShape o) = [] →
      let a := kDst d + first * dtWidth (kDtype d)
      SliceReady s a len true → MapOk s → ∃ t o', exec (row.1 l m) s = .next t ∧ t.getBytes a len = m.data.take len ∧ BackedBut s t a len
        ∧ t.cop o.id = some o' ∧ o'.good = o.good ++ [c] ∧ o'.want = o.want.filter (· ≠ c) ∧ CopsBut s t o.id)
    ∧ (∀ (r r' : Nat) (left : Bool), ColMeets s l m 0 o → kReduces d = true → redPlan (kAlg d) (opP o) (chunkOwner d (opP o) c.q) c.q o.rank (opShape o) = ([(r, left)], some r') → c = ⟨0, c.q, r⟩ →
      (o.ins.filter fun y => y.ref.kind = 0 && y.ref.q = c.q) = [x] → o.zeros = false → kXor2 d = false →
      let w := dtWidth (kDtype d)
      let n := (chunkSpan d c.q).2
      SliceReady s (kSrc d + first * w) (n * w) false →
      let ct := carryType (kDtype d) (kNarrow d)
      let own := (cutElems w (s.getBytes (kSrc d + first * w) (n * w))).map (toAcc (kDtype d))
      let inc := (cutElems (dtWidth ct) (m.data.take len)).map (toAcc ct)
      let acc := if left then List.zipWith (combine (kDtype d) (kRedop d)) inc own else List.zipWith (combine (kDtype d) (kRedop d)) own inc
      ∃ t o', exec (.partialMsg l m) s = .next t ∧ t.cop o.id = some o' ∧ o'.good = o.good ++ [c] ∧ o'.want = o.want.filter (· ≠ c)
        ∧ o'.txs = o.txs ++ [⟨⟨0, c.q, r'⟩, x.stg, (acc.map (toCarry (kDtype d) (kNarrow d))).flatten, false, false, false⟩] ∧ t.mem = s.mem ∧ CopsBut s t o.id)

/-- R291, R304-R307: an operation whose part is done completes locally with OK and its record, or with the status of an ABORT or a stall; STATUS contributes, DECISION closes; without agreement it closes with PEER_LOST; resends and retries repeat their message and change no operation; a stall is recorded once. Model's readings it rests on: log entries 23, 26, 92. -/
def Obligations.CollectivesEndAndAgree : Prop :=
  ∀ (s : State) (i : OpId) (o : ColOp), s.cop i = some o →
    let res := min (if kOpc o.desc = 9 then (o.dlv.map (·.2)).sum else o.result) (2 ^ 40 - 1) + min o.cats 0xFFFF * 2 ^ 48
    let ends := fun (c : Instr) (st : Nat) => ∀ k so, o.stream = some k → StartedOp s k o.sseq 3 so → CqReady s k → RingsOff s →
      ∃ t, exec c s = .next t ∧ Completed s t k so.desc st 0 res ∧ (∀ o', t.cop i = some o' → 2 ≤ o'.st ∧ o'.stages = [] ∧ o'.txs = [] ∧ o'.ins = []) ∧ CopsBut s t i
    (o.st = 1 → kOpc o.desc ∉ [4, 7, 9] → o.want = [] → o.ins = [] → o.txs = [] → o.holds = [] → o.wait = [] → (∀ x ∈ s.cdem, x.op ≠ i) → o.poison = false → o.dropped = false → ends (.collectiveLocalComplete i) stOK)
    ∧ (o.st = 1 → o.stalled = true → s.fget F.colCfg_ABORT_MS ≠ 0 → ends (.stallAbort i) stStall)
    ∧ (∀ (l : Fin 64) (m : Msg), (ColMeets s l m 10 o → o.st < 2 → ends (.abortMsg l m) (recField m.data 0 8 % 256))
      ∧ (ColMeets s l m 8 o → o.st < 3 → (∀ x ∈ o.kids, x.1 ≠ mRank m ∧ x.1 ≠ o.rank) → mRank m ≠ o.rank → ∃ t, exec (.statusMsg l m) s = .next t
          ∧ t.cop i = some { o with kids := o.kids ++ [(mRank m, recField m.data 0 8 % 256, recField m.data 0 8 / 2 ^ 16 % 2 ^ 16)] } ∧ CopsBut s t i)
      ∧ (ColMeets s l m 9 o → o.st = 2 → ∃ t, exec (.decisionMsg l m) s = .next t ∧ (∀ o', t.cop i = some o' → o'.st = 3 ∧ o'.decided = some (recField m.data 0 8 % 256)) ∧ CopsBut s t i
          ∧ (∀ k, o.stream = some k → o.sseq ∉ (t.str k).colOpen)
          ∧ (recField m.data 0 8 % 256 = stOK → i.kind = 0 → (s.group i.grp.val).okNone = true ∨ (i.seq.toNat + 2 ^ 32 - (s.group i.grp.val).lastOk) % 2 ^ 32 < 2 ^ 31 →
              (t.group i.grp.val).lastOk = i.seq.toNat ∧ (t.group i.grp.val).okNone = false)))
    ∧ (s.failed = false → o.st = 2 → ∀ k, o.stream = some k → ∃ t, exec (.agreeTimeout i) s = .next t ∧ (∀ o', t.cop i = some o' → o'.st = 3 ∧ o'.decided = some stPeerLost)
        ∧ o.sseq ∉ (t.str k).colOpen ∧ (o.sseq, stPeerLost) ∈ (t.str k).badC ∧ CopsBut s t i)
    ∧ (s.failed = false → o.st = 1 → kOpc o.desc ≠ 7 → o.stalled = false → ∃ t, exec (.collectiveStall i) s = .next t ∧ t.cop i = some { o with stalled := true } ∧ CopsBut s t i
        ∧ t.fget (F.colChcnt_STALLS (kChannel o.desc)) = min (s.fget (F.colChcnt_STALLS (kChannel o.desc)) + 1) 65535)
    ∧ (∀ (b : BitVec 32) (r : BitVec 15) (x : ColTx), s.failed = false →
      (o.st = 1 → o.txs.find? (fun t => t.ref.q = b.toNat && t.ref.rank = r.toNat && t.sent) = some x → ∃ t, exec (.chunkResendTimeout i b r) s = .next t ∧ t.cop i = some { o with stalled := false } ∧ CopsBut s t i
        ∧ t.fget (F.colChcnt_RESEND (kChannel o.desc)) = min (s.fget (F.colChcnt_RESEND (kChannel o.desc)) + 1) 65535)
      ∧ (o.st = 1 → o.txs.find? (fun t => t.ref.q = b.toNat && t.ref.rank = r.toNat && !t.sent) = some x → ∃ t, exec (.creditRetry i b r) s = .next t ∧ t.cops = s.cops
        ∧ ∀ y m', Goes s (ctlMsg s o 3 b.toNat r.toNat (ctlData 0 x.ref.kind 0)) none y m' → Left s t s.outbox y m'))
    ∧ (∀ p st, s.failed = false → o.rel = [(9, p)] → o.decided = some st → ∃ t, exec (.agreementResend i) s = .next t ∧ t.cops = s.cops
        ∧ ∀ y m', Goes s (ctlMsg s o 9 0 p (ctlData st 0 0)) none y m' → Left s t s.outbox y m')

/-- R282-R284, R308, R311: the five group commands: READ shows the entry, WRITE loads an inactive one from the staged words and list, ACTIVATE reserves, DEACTIVATE releases, REFORM changes the members and steps the epoch. Model's readings it rests on: log entries 27, 93. -/
def Obligations.GroupCommands : Prop :=
  ∀ (q : Req) (g : Fin 4096) (s : State),
    let x := s.group g
    let staged := fun (t : State) (l : List Nat) => (t.group g).valid = s.fbit F.colGdata0_VALID ∧ (t.group g).part = s.fget F.colGdata0_PART ∧ (t.group g).stream = s.fget F.colGdata0_STREAM
      ∧ (t.group g).epoch = s.fget F.colGdata0_EPOCH ∧ (t.group g).members = l ∧ (t.group g).gseq = 0 ∧ (t.group g).sends = [] ∧ (t.group g).recvs = [] ∧ (t.group g).okNone = true ∧ (t.group g).active = x.active
    (GcmdReady s q 0 g → x.part < 8 → x.stream < 65536 → x.epoch < 65536 → x.members.length ≤ 32768 → x.gseq < 2 ^ 32 → x.lastOk < 2 ^ 32 → x.mlist < 2 ^ 48 → x.rank < 32768 → x.dims.1 ≤ 32 ∧ x.dims.2.1 ≤ 32 ∧ x.dims.2.2 ≤ 32 → ∃ t, exec (.colGcmdRead q g) s = .next t ∧ GcmdDone t 1
      ∧ t.fbit F.colGdata0_VALID = x.valid ∧ t.fbit F.colGdata0_ACTIVE = x.active ∧ t.fget F.colGdata0_PART = x.part ∧ t.fget F.colGdata0_STREAM = x.stream ∧ t.fget F.colGdata0_EPOCH = x.epoch
      ∧ t.fbit F.colGdata1_SHAPED = x.shape.isSome ∧ t.fget F.colGdata1_GXM1 = x.dims.1 - 1 ∧ t.fget F.colGdata1_GYM1 = x.dims.2.1 - 1 ∧ t.fget F.colGdata1_GZM1 = x.dims.2.2 - 1
      ∧ t.fget F.colGdata1_PM1 = x.members.length - 1 ∧ t.fget F.colGdata1_MYRANK = x.rank ∧ t.fget F.colGdata2_MLIST = x.mlist ∧ t.fget F.colGdata3_GSEQ = x.gseq ∧ t.fget F.colGdata3_LAST_OK = x.lastOk
      ∧ { t with regs := s.regs, resp := s.resp } = s)
    ∧ (∀ l, GcmdReady s q 1 g → ListReady s → x.active = false → s.gcmdList = (1, l) → ∃ t, exec (.colGcmdWrite q g) s = .next t ∧ GcmdDone t 1 ∧ staged t l ∧ (t.group g).lastOk = 0
      ∧ (∀ j, j ≠ g.val → t.group j = s.group j) ∧ { t with regs := s.regs, resp := s.resp, groups := s.groups } = s)
    ∧ (GcmdReady s q 1 g → ListReady s → x.active = true → ∃ t, exec (.colGcmdWrite q g) s = .next t ∧ GcmdDone t 5 ∧ t.groups = s.groups)
    ∧ (GcmdReady s q 2 g → x.valid = true → x.active = false → 2 ≤ s.poolFree → ∃ t, exec (.activate q g) s = .next t ∧ GcmdDone t 1 ∧ t.group g = { x with active := true }
      ∧ (∀ j, j ≠ g.val → t.group j = s.group j) ∧ { t with regs := s.regs, resp := s.resp, groups := s.groups } = s)
    ∧ (GcmdReady s q 2 g → x.valid = true → x.active = false → s.poolFree < 2 → ∃ t, exec (.activate q g) s = .next t ∧ GcmdDone t 4 ∧ t.groups = s.groups)
    ∧ (GcmdReady s q 3 g → s.groupOps g (· < 3) = [] → ∃ t, exec (.deactivate q g) s = .next t ∧ GcmdDone t 1 ∧ t.group g = { x with active := false }
      ∧ (∀ j, j ≠ g.val → t.group j = s.group j) ∧ { t with regs := s.regs, resp := s.resp, groups := s.groups } = s)
    ∧ (∀ l, GcmdReady s q 4 g → ListReady s → x.valid = true → s.fget F.colGdata0_EPOCH = (x.epoch + 1) % 65536 → s.gcmdList = (1, l) → s.groupOps g (fun _ => true) = [] → ∃ t, exec (.reform q g) s = .next t ∧ GcmdDone t 1
      ∧ staged t l ∧ (t.group g).lastOk = x.lastOk ∧ (∀ j, j ≠ g.val → t.group j = s.group j) ∧ t.cops = s.cops)

/-! ### Faults, records, the Umbra service, arbitration -/

/-- R313-R315, R317-R319, R412: a fatal-to-partition fault leaves its record and starts the partition reset, which ends the instances; a fatal-to-device fault leaves the device FAILED with its record, viral, ALERT_N, the Eclipse rail off and every trace stopped; an error ring is enabled once, and the first enable of ring 0 writes the records held for it. Model's readings it rests on: log entry 133. -/
def Obligations.FatalFaultsAndErrorRings : Prop :=
  ∀ (s : State),
    (∀ (p : Fin 8) (unit : UnitId) (code : BitVec 8) (addr : BitVec 64),
      (s.partState p ≠ 0 → s.failed = false → s.rstCovered 2 p = false → ∃ t, exec (.fatalToPartition p unit code addr) s = .next t
          ∧ Stored s t unit.word code.toNat 3 addr.toNat ∧ (∀ n ∈ s.partCores p, (t.core n).inst = none)
          ∧ ∃ j ∈ t.resets, j.level = 2 ∧ j.target = p.val ∧ j.cores = s.partCores p)
      ∧ (s.partState p = 0 → ∃ t, exec (.fatalToPartition p unit code addr) s = .next t
          ∧ Stored s t unit.word code.toNat 3 addr.toNat ∧ t.cores = s.cores ∧ t.resets = s.resets))
    ∧ (∀ (unit : UnitId) (code : BitVec 8) (addr : BitVec 64), ∃ t, exec (.fatalToDevice unit code addr) s = .next t ∧ t.failed = true
        ∧ Stored s t unit.word code.toNat 4 addr.toNat ∧ t.cores = s.cores
        ∧ (s.failed = false → t.eclRail = false ∧ bitAt (t.reg .safAlert) 3 = true ∧ Outbound.viral ∈ t.outbox
          ∧ ∀ b, b < 9 → s.fbit (F.trcBcfg_EN b) = true → t.fget (F.trcBstat_STATE b) ≠ 1 ∧ t.fget (F.trcBstat_STATE b) ≠ 2))
    ∧ (∀ (q : Req) (r : Fin 9) (v : BitVec 64), Reaches s q (.mgtErrbase r) v.toNat → inWord (F.mgtErrbase_EN r) v.toNat = 1 →
      let base := inWord (F.mgtErrbase_BASE r) v.toNat
      let log := inWord (F.mgtErrbase_LOG2N r) v.toNat
      6 ≤ log → log ≤ 16 →
      (s.fbit (F.mgtErrbase_EN r) = false → s.errRingOk r base log = true →
        ∃ t, exec (.errorRingEnable q r v) s = .next t ∧ t.resp = ⟨stOK, []⟩ ∧ t.reg (.mgtErrbase r) = s.merged q (.mgtErrbase r) v.toNat
          ∧ (r ≠ 0 ∨ s.err.everEn = true → RegsBut s t [(Reg.mgtErrbase r).off] ∧ { t with regs := s.regs, resp := s.resp } = s)
          ∧ (r = 0 → s.err.everEn = false → t.err.everEn = true ∧ t.err.held = []
            ∧ ∀ e : Bytes, s.err.held = [e] → e.length = 32 → MapOk s → s.fget (F.mgtErrstat_WRITTEN 0) = 0 → s.fget (F.mgtErrhead_HEAD 0) = 0 →
              t.getBytes base 32 = recPut e 3 (leBytes 1 (recField e 3 1 % 128 + 128)) ∧ t.fget (F.mgtErrstat_WRITTEN 0) = 1))
      ∧ (s.fbit (F.mgtErrbase_EN r) = true → exec (.errorRingEnable q r v) s = .next (s.answer stDenied [])))

/-- R326, R327, R330-R333, R343: a signal folds the next window with one REDUCE for each row and holder; a window all of whose REDUCEs agreed OK is applied, signals JSTREAM and moves the frontier, one that failed its check is folded again up to three times, any other holds the service; APPLY, DISCARD, REBUILD and RESUME; a write of UMB_SET starts or stops the service; ARB_COMMIT puts every shadow of its die in force; a row of the A feeder that a bank refuses has AGE 7 there and issues at its next decision. Model's readings it rests on: log entries 95, 160. -/
def Obligations.UmbraAndArbitration : Prop :=
  ∀ (q : Req) (p : Fin 8) (s : State), (s.umb p).rebuild = false → RingsOff s →
    let st := s.fget (F.umbStat_STATE p)
    let u := s.umb p
    let w := s.fget (F.umbStat_WINDOW p)
    let g := s.fget (F.umbSet_GROUP p)
    let js := s.fget (F.umbSet_JSTREAM p)
    let us := s.fget (F.umbSet_USTREAM p)
    let rows := s.fget (F.umbRows_ROWS p)
    let go := fun (c : Nat) => [(F.umbCmd_CMD p, c)]
    let may := fun (c : List (Fld × Nat)) => Starts s q (.umbCmd p) (F.umbCmd_GO p) c ∧ s.fw.transit = false
    let at' := fun (c : List (Fld × Nat)) => begun s q (.umbCmd p) (F.umbCmd_GO p) c
    let folding := fun (t : State) => t.fget (F.umbStat_STATE p) = 2 ∧ (t.umb p).pend = false ∧ t.mem = s.mem ∧ t.cores = s.cores
      ∧ ((s.group g).gseq < 2 ^ 32 → (t.group g).gseq = ((s.group g).gseq + (s.windowRows p w).length * s.umbS p) % 2 ^ 32)
    let held := fun (t : State) => t.fget (F.umbStat_STATE p) = 3 ∧ (t.umb p).pend = true ∧ t.mem = s.mem ∧ t.cops = s.cops
    (s.fbit (F.umbSet_EN p) = true → st = 1 → s.failed = false → s.fw.transit = false → u.seen < s.fget (F.strScnt_SCNT us) →
      (s.umbReady p = true → ∃ t, exec (.umbraFoldWindow p) s = .next t ∧ folding t ∧ (t.umb p).seen = u.seen + 1 ∧ (t.umb p).tries = 0)
      ∧ (s.umbReady p = false → ∃ t, exec (.umbraFoldWindow p) s = .next t ∧ held t ∧ (t.umb p).seen = u.seen + 1))
    ∧ (st = 2 → u.open' = [] → s.failed = false →
      (u.worst = stOK → s.colHeld (s.windowRanges p) = none → (s.windowPut p).1 = stOK → ∃ t, exec (.umbraWindowApply p) s = .next t ∧ t.fget (F.umbStat_STATE p) = 1 ∧ t.mem = (s.windowPut p).2.mem
        ∧ t.fget (F.umbStat_WINDOW p) = (if rows ≤ (w + 1) * s.fget (F.umbWin_NROWS p) then 0 else (w + 1) % 2 ^ 29)
        ∧ t.fget (F.strScnt_SCNT js) = (s.fget (F.strScnt_SCNT js) + 1) % 2 ^ 64)
      ∧ (u.worst = stCheckFail → u.tries < 3 → s.umbReady p = true → ∃ t, exec (.umbraWindowApply p) s = .next t ∧ folding t ∧ (t.umb p).tries = u.tries + 1)
      ∧ (u.worst ≠ stOK → u.worst ≠ stCheckFail ∨ 3 ≤ u.tries → ∃ t, exec (.umbraWindowApply p) s = .next t ∧ held t))
    ∧ (may (go 0) → st = 3 → u.pend = true → (at' (go 0)).colHeld ((at' (go 0)).windowRanges p) = none → ((at' (go 0)).windowPut p).1 = stOK → ∃ t, exec (.umbApply q p) s = .next t
        ∧ Ended t (F.umbCmd_GO p) (F.umbCmd_RESULT p) 1 ∧ (t.umb p).pend = false ∧ t.fget (F.umbStat_STATE p) = 3 ∧ t.mem = ((at' (go 0)).windowPut p).2.mem)
    ∧ (may (go 1) → st = 3 → u.pend = true → ∃ t, exec (.umbDiscard q p) s = .next t ∧ Ended t (F.umbCmd_GO p) (F.umbCmd_RESULT p) 1
        ∧ t.umb p = { u with pend := false } ∧ RegsBut s t [(Reg.umbCmd p).off] ∧ UmbraOnly s t p)
    ∧ (∀ idx : BitVec 4, let c := go 2 ++ [(F.umbCmd_IDX p, idx.toNat)]
        may c → st = 1 ∨ st = 3 → s.fget (F.umbRange_RFIRST p) + s.fget (F.umbRange_RCOUNT p) ≤ rows → (at' c).umbReady p = true → 0 < s.fget (F.umbRange_RCOUNT p) →
        ∃ t, exec (.umbRebuild q p idx) s = .next t ∧ t.resp = ⟨stOK, []⟩ ∧ t.mem = s.mem ∧ t.cores = s.cores
          ∧ ((s.group g).gseq < 2 ^ 32 → (t.group g).gseq = ((s.group g).gseq + s.fget (F.umbRange_RCOUNT p) * s.umbS p) % 2 ^ 32))
    ∧ (may (go 3) → st = 3 → (u.pend = false → ∃ t, exec (.umbResume q p) s = .next t ∧ Ended t (F.umbCmd_GO p) (F.umbCmd_RESULT p) 1
          ∧ t.fget (F.umbStat_STATE p) = 1 ∧ RegsBut s t [(Reg.umbCmd p).off, (Reg.umbStat p).off] ∧ { t with regs := s.regs, resp := s.resp } = s)
        ∧ (u.pend = true → (at' (go 3)).umbReady p = true → ∃ t, exec (.umbResume q p) s = .next t ∧ Ended t (F.umbCmd_GO p) (F.umbCmd_RESULT p) 1 ∧ folding t))
    ∧ (∀ row ∈ [(Instr.umbApply q p, 0), (Instr.umbDiscard q p, 1), (Instr.umbResume q p, 3)], may (go row.2) → st ≠ 3 → ∃ t, exec row.1 s = .next t
        ∧ Ended t (F.umbCmd_GO p) (F.umbCmd_RESULT p) 2 ∧ RegsBut s t [(Reg.umbCmd p).off] ∧ { t with regs := s.regs, resp := s.resp } = s)
    ∧ (∀ v : BitVec 64, Reaches s q (.umbSet p) v.toNat → inWord (F.umbSet_SM1 p) v.toNat ≠ 0 →
      let x := s.group (inWord (F.umbSet_GROUP p) v.toNat)
      let own := fun (k : Nat) => s.strPart k = p.val ∧ s.partState p ≠ 0
      (inWord (F.umbSet_EN p) v.toNat = 0 → ∃ t, exec (.umbSetWrite q p v) s = .next t ∧ t.resp = ⟨stOK, []⟩ ∧ t.fbit (F.umbSet_EN p) = false
        ∧ t.fget (F.umbStat_STATE p) = 0 ∧ t.umb p = .init ∧ RegsBut s t [(Reg.umbSet p).off, (Reg.umbStat p).off, (Reg.umbCmd p).off] ∧ UmbraOnly s t p
        ∧ (if s.fbit (F.umbCmd_GO p) = true then t.fget (F.umbCmd_RESULT p) = 4 ∧ t.fbit (F.umbCmd_GO p) = false else t.reg (.umbCmd p) = s.reg (.umbCmd p)))
      ∧ (inWord (F.umbSet_EN p) v.toNat = 1 → s.fbit (F.umbSet_EN p) = false → x.active = true → x.members.length = inWord (F.umbSet_SM1 p) v.toNat + 1 →
          own (inWord (F.umbSet_JSTREAM p) v.toNat) → own (inWord (F.umbSet_USTREAM p) v.toNat) →
          s.sealedAt p (s.fget (F.umbProt_BASE p)) = s.sealedAt p (s.fget (F.umbPar_BASE p)) →
          ∃ t, exec (.umbSetWrite q p v) s = .next t ∧ t.resp = ⟨stOK, []⟩ ∧ t.fbit (F.umbSet_EN p) = true ∧ t.fget (F.umbSet_MYIDX p) = x.rank % 16
            ∧ t.fget (F.umbStat_STATE p) = 1 ∧ t.umb p = { UmbS.init with seen := s.fget (F.strScnt_SCNT (inWord (F.umbSet_USTREAM p) v.toNat)) }
            ∧ RegsBut s t [(Reg.umbSet p).off, (Reg.umbStat p).off] ∧ UmbraOnly s t p))
    ∧ (∀ d : Fin 10, Reaches s q (.arbCommit d) (fields [(F.arbCommit_GO d, 1)]) → ∃ t, exec (.arbCommit q d) s = .next t ∧ t.resp = ⟨stOK, []⟩
        ∧ (∀ r ∈ arbWords d, Sparse.getD (fun o => (regReset o).toNat) t.arbCls r.off = s.reg r) ∧ t.fbit (F.arbCommit_PENDING d) = false
        ∧ t.fget (F.arbCommit_COMMITS d) = (s.fget (F.arbCommit_COMMITS d) + 1) % 2 ^ 32
        ∧ RegsBut s t [(Reg.arbCommit d).off] ∧ { t with regs := s.regs, resp := s.resp, arbCls := s.arbCls } = s)
    ∧ (∀ (n : Nat) (banks busy : List Nat), banks.Nodup → (∀ r ∈ busy, 0 < r ∧ r < arbN 0) → (s.rowAsk n banks busy).1 = false →
        let u := (s.rowAsk n banks busy).2
        (∀ b ∈ banks, (u.arb 0 b).ages.getD 0 0 = 7) ∧ (u.rowAsk n banks busy).1 = true)

/-! ### Partitions and the security module -/

/-- R345-R348, R360, R361, R373: CREATE maps the good cores of the clusters in ascending order and unfences them; SEAL freezes and measures the partition and empties its sealed regions and scratchpads; DESTROY resets the partition, and when the reset has ended frees it; ZERO empties a region; each asks for its STATE, and none starts while one runs. Model's readings it rests on: log entries 29, 33, 97. -/
def Obligations.PartitionsAreCreatedSealedDestroyed : Prop :=
  ∀ (q : Req) (p : Fin 8) (s : State),
    let st := s.partState p
    let f := fun (c : Nat) => [(F.prtCmd_CMD, c), (F.prtCmd_PART, p.val)]
    let may := fun (c : Nat) => Starts s q .prtCmd F.prtCmd_GO (f c) ∧ s.fw.transit = false
    let done := fun (t : State) (r : Nat) => Ended t F.prtCmd_GO F.prtCmd_RESULT r
    let good := s.goodOf p
    let n := s.fget (F.coreVcfg_VCOUNT p)
    (may 0 → st = 0 → s.fget (F.prtCfg_CLUSTERS p) ≠ 0 → (∀ r, r < 8 → r ≠ p.val → Nat.land (s.fget (F.prtCfg_CLUSTERS p)) (s.fget (F.prtCfg_CLUSTERS r)) = 0) →
      n + s.fget (F.coreVcfg_RSV p) ≤ good.length → ∃ t, exec (.prtCreate q p) s = .next t ∧ done t 1 ∧ t.partState p = 1
        ∧ (∀ v, v < n → t.vmap p v = some (good.getD v 0)) ∧ (∀ k ∈ good, t.fbit (F.coreFence_FENCE k) = false ∧ (t.core k).lastPart = some p.val
          ∧ ((s.core k).lastPart ≠ some p.val → SpmZero t k ∧ (t.core k).acc = [] ∧ (t.core k).vr = []))
        ∧ (∀ k, k ∉ good → t.core k = s.core k))
    ∧ (may 1 → st = 1 → s.fget F.secStat_MSTATE = 1 → (begun s q .prtCmd F.prtCmd_GO (f 1)).sealOk p = true → ∃ t, exec (.prtSeal q p) s = .next t ∧ done t 1 ∧ t.partState p = 2
        ∧ t.fget (F.prtStat_ALLOW_N p) = s.fget F.prtCmdarg_NALLOW ∧ (t.secPart p).key = some (s.keys + 1) ∧ t.keys = s.keys + 1
        ∧ (t.secPart p).mPart = (Config.shake256 (t.partRecord p)).toNat
        ∧ (t.secPart p).mProg = shake (s.getBytes (s.fget F.prtCmdarg_ADDR) (64 * s.fget F.prtCmdarg_NALLOW))
        ∧ (∀ r ∈ s.regions p, r.sealed = true → Emptied s t r) ∧ ∀ k ∈ s.partCores p, SpmZero t k)
    ∧ (may 1 → st = 1 → s.fget F.secStat_MSTATE ≠ 1 → ∃ t, exec (.prtSeal q p) s = .next t ∧ done t 5 ∧ RegsBut s t [Reg.prtCmd.off])
    ∧ (may 2 → st = 1 ∨ st = 2 → s.rstCovered 2 p = false → ∃ t, exec (.prtDestroy q p) s = .next t ∧ t.resp = ⟨stOK, []⟩ ∧ t.fbit F.prtCmd_GO = true ∧ t.partState p = 3
        ∧ t.prtRuns = s.prtRuns ++ [⟨p, 2, 0, 0, true⟩] ∧ (∀ k ∈ s.partCores p, (t.core k).inst = none) ∧ ∃ j ∈ t.resets, j.level = 2 ∧ j.target = p.val)
    ∧ (∀ r : PrtRun, s.prtRuns = [r] → r.part < 8 →
      (r.cmd = 2 → s.rstCovered 2 r.part = false → ∃ t, exec .destroyComplete s = .next t ∧ t.reg (.prtCfg r.part) = 0 ∧ t.prtRuns = [] ∧ t.secPart r.part = .init
        ∧ (∀ i, i < 4096 → bitAt (t.reg (.prtRgnA r.part i)) 63 = false) ∧ (∀ v, v < 384 → t.vmap r.part v = none) ∧ (∀ e ∈ s.regions r.part, e.sealed = true → Emptied s t e)
        ∧ (∀ k ∈ s.partCores r.part, SpmZero t k ∧ t.fbit (F.coreFence_FENCE k) = true ∧ (t.core k).lastPart = none)
        ∧ (r.go = true → t.fget F.prtCmd_RESULT = 1 ∧ t.fbit F.prtCmd_GO = false))
      ∧ (r.cmd = 3 → ∃ t, exec .zeroComplete s = .next t ∧ t.partState r.part = 1 ∧ t.prtRuns = [] ∧ t.fget F.prtCmd_RESULT = 1 ∧ t.fbit F.prtCmd_GO = false
        ∧ (∀ e ∈ t.mem, ∀ a, s.keyAddr e.1 = some a → a < r.lo ∨ r.hi ≤ a) ∧ (∀ e ∈ s.mem, (∀ a, s.keyAddr e.1 = some a → a < r.lo ∨ r.hi ≤ a) → e ∈ t.mem)))
    ∧ (∀ r : Rgn, may 3 → st = 1 → (s.regions p).find? (fun r => r.idx = s.fget F.prtCmdarg_ADDR % 4096 && decide (r.ty ≤ 1)) = some r →
        ∃ t, exec (.prtZero q p) s = .next t ∧ t.resp = ⟨stOK, []⟩ ∧ t.fbit F.prtCmd_GO = true ∧ t.partState p = 3 ∧ t.prtRuns = s.prtRuns ++ [⟨p, 3, r.base, r.limit + 1, true⟩]
          ∧ t.mem = s.mem ∧ t.cores = s.cores)
    ∧ (∀ row ∈ [(Instr.prtCreate q p, 0, st ≠ 0), (.prtSeal q p, 1, st ≠ 1), (.prtDestroy q p, 2, st ≠ 1 ∧ st ≠ 2), (.prtZero q p, 3, st ≠ 1)],
      (may row.2.1 → row.2.2 → ∃ t, exec row.1 s = .next t ∧ done t 2 ∧ RegsBut s t [Reg.prtCmd.off] ∧ { t with regs := s.regs, resp := s.resp } = s)
      ∧ (Reaches s q .prtCmd (fields ((F.prtCmd_GO, 1) :: f row.2.1)) → s.fbit F.prtCmd_GO = true →
          exec row.1 s = .next ((s.fset F.prtCmd_RESULT 4).answer stDenied [])))

/-- R351, R352, R364-R366, R371-R374: SEC_ZEROIZE ends every session and key and destroys the sealed partitions; a failed self-test leaves ERROR, no key and a FAILED device; ATTEST writes the signed report, GETCERT the certificate; UNSEAL of a sealed partition unwraps the key and runs, and its end writes the plaintext, or zeros after a tag failure; a mailbox answers DENIED while the module is not OPERATIONAL. Model's readings it rests on: log entries 61, 64, 98. -/
def Obligations.SecurityModuleAndMailboxes : Prop :=
  ∀ (q : Req) (f : Fin 9) (p : Fin 8) (s : State),
    let P := mbxPart f p
    let a := s.mbxArg f
    let done := fun (t : State) (st : Nat) => Ended t (F.mbxCmd_GO f) (F.mbxCmd_STATUS f) st
    let may := fun (c : List (Fld × Nat)) => Starts s q (.mbxCmd f) (F.mbxCmd_GO f) c
    let attestC := [(F.mbxCmd_CMD f, 0), (F.mbxCmd_PART f, p.val)]
    let cert := s.flashGet Config.identCert.1 (min Config.identCert.2 4096)
    let unsealC := [(F.mbxCmd_CMD f, 2), (F.mbxCmd_PART f, p.val)]
    let keyless := fun (t : State) => t.sessions = [] ∧ t.cxl.ide = none ∧ ∀ r, r < 8 → (t.secPart r).key = none
    (Reaches s q .secZeroize (fields [(F.secZeroize_GO, 1)]) → ∃ t, exec (.secZeroize q) s = .next t ∧ t.resp = ⟨stOK, []⟩ ∧ keyless t
        ∧ (∀ r, r < 8 → s.partState r = 2 → t.partState r = 3) ∧ Records s t 0xA000 0xC4)
    ∧ (∀ test : BitVec 64, ∃ t, exec (.secFail test) s = .next t ∧ keyless t ∧ t.fget F.secStat_MSTATE = 2 ∧ t.fbit F.secStat_APPROVED = false ∧ t.failed = true
        ∧ Stored s t 0xA000 0xC0 4 test.toNat ∧ ∀ l, l < 64 → (t.link l).txKey = none ∧ (t.link l).rxKey0 = none ∧ (t.link l).rxKey1 = none)
    ∧ (∀ row ∈ [(Instr.attest q f p, attestC), (.getcert q f, [(F.mbxCmd_CMD f, 1)]), (.unseal q f p, unsealC)], may row.2 → s.fget F.secStat_MSTATE ≠ 1 →
        ∃ t, exec row.1 s = .next t ∧ done t stDenied ∧ RegsBut s t [(Reg.mbxCmd f).off] ∧ { t with regs := s.regs, resp := s.resp } = s)
    ∧ (s.fget F.secStat_MSTATE = 1 → MapOk s →
      (may attestC → s.regFoot P (a 0) 64 (·.rd) = none → s.regFoot P (a 1) 2304 (·.wr) = none → SliceReady s (a 0) 64 false → SliceReady s (a 1) 2304 true →
        ∃ t, exec (.attest q f p) s = .next t ∧ done t stOK ∧ t.getBytes (a 1) 2304 = s.report P (s.getBytes (a 0) 64) ∧ BackedBut s t (a 1) 2304)
      ∧ (may [(F.mbxCmd_CMD f, 1)] → s.regFoot (mbxPart f 0) (a 0) cert.length (·.wr) = none → SliceReady s (a 0) cert.length true →
        ∃ t, exec (.getcert q f) s = .next t ∧ done t stOK ∧ t.getBytes (a 0) cert.length = cert ∧ BackedBut s t (a 0) cert.length)
      ∧ (may unsealC → s.partState P ≠ 2 → ∃ t, exec (.unseal q f p) s = .next t ∧ done t stDenied ∧ t.mem = s.mem)
      ∧ (may unsealC → s.partState P = 2 →
          let hdr := s.getBytes (a 1) 64
          let plen := recField hdr 8 8
          let seg := 2 ^ recField hdr 2 1
          let blen := 64 + plen + 16 * ceilDiv plen seg
          let rec' := s.getBytes (a 0) 1608
          let c := s.secPart P
          let kek := (leBytes 64 (shake (Config.kemDecaps (c.key.getD 0) (rec'.take 1568) ++ leBytes 64 c.mPart ++ leBytes 64 c.mProg))).take 32
          a 2 = blen → 0 < plen → recField hdr 0 2 = 1 → 16 ≤ recField hdr 2 1 → recField hdr 2 1 ≤ 20 →
          s.regFoot P (a 0) 1608 (·.rd) = none → s.regFoot P (a 1) blen (·.rd) = none → s.regFoot P (a 3) plen (fun e => e.wr && e.sealed) = none →
          SliceReady s (a 0) 1608 false → SliceReady s (a 1) blen false →
          (∀ key, Config.kwUnwrap kek ((rec'.drop 1568).take 40) = some key → ∃ t, exec (.unseal q f p) s = .next t ∧ t.resp = ⟨stOK, []⟩ ∧ t.fbit (F.mbxCmd_BUSY f) = true ∧ t.mem = s.mem
            ∧ let x := segments key ((hdr.drop 4).take 4) hdr seg (ceilDiv plen seg) 0 ((s.getBytes (a 1) blen).drop 64)
              Sparse.find t.unseals f = some ⟨P, a 3, x.1, x.2⟩)
          ∧ (Config.kwUnwrap kek ((rec'.drop 1568).take 40) = none → ∃ t, exec (.unseal q f p) s = .next t ∧ done t stCheckFail ∧ Records s t 0xA000 0xC1 ∧ (RingsOff s → t.mem = s.mem)))
      ∧ (∀ u : Unseal, Sparse.find s.unseals f = some u → s.flux = [⟨u.dst, u.dst + u.plain.length, u.plain⟩] → SliceReady { s with flux := [] } u.dst u.plain.length true → RingsOff s →
          ∃ t, exec (.unsealComplete f) s = .next t ∧ Sparse.find t.unseals f = none ∧ t.fbit (F.mbxCmd_BUSY f) = false ∧ t.fbit (F.mbxCmd_GO f) = false ∧ BackedBut s t u.dst u.plain.length
            ∧ (u.bad = none → t.fget (F.mbxCmd_STATUS f) = stOK ∧ t.getBytes u.dst u.plain.length = u.plain)
            ∧ (∀ i, u.bad = some i → t.fget (F.mbxCmd_STATUS f) = stCheckFail ∧ t.getBytes u.dst u.plain.length = zeroBytes u.plain.length ∧ Records s t 0xA000 0xC1)))

/-! ### Management sessions -/

/-- R354-R359: an OPEN with the operator's key, a good signature and a free number opens a session and answers ACCEPT; a wrong one is discarded and counted; a REQUEST with a good tag and a fresh number runs its accesses and gets a protected RESPONSE; CLOSE ends the session, as do 60 s of silence and 24 hours; a message with a bad tag is discarded; a message for another device is relayed, and the replies go back to the endpoint recorded for them. Model's readings it rests on: log entries 2, 61, 104. -/
def Obligations.ManagementSessions : Prop :=
  ∀ (ep : Endpoint) (m : Bytes) (s : State),
    let s0 := s.takeSession ep m
    let body := msgBody m
    let drops := fun (t : State) => t.sessions = s0.sessions ∧ t.fget F.secMsess_DISCARDED = min (s0.fget F.secMsess_DISCARDED + 1) (2 ^ 32 - 1)
    let good := msgLen m = 1778 ∧ msgSession m = 0 ∧ msgSeq m = 0 ∧ shake (body.take 57) = s0.opAuth
      ∧ Config.ed448Verify (body.take 57) (m.take 32 ++ body.take 1664) ((body.drop 1664).take 114) = true ∧ s0.sessions.length < 16
    (MsgHere s0 ep m →
      (msgKind m = 1 → good → ∃ t x out, exec (.openSession ep m) s = .next t ∧ t.sessions = s0.sessions ++ [x] ∧ x.num = s0.freeSession ∧ x.top = 0 ∧ x.tx = 1 ∧ x.pend = [] ∧ x.ep = ep ∧ x.opened = s0.now 8
        ∧ msgKind out = 2 ∧ msgSession out = x.num % 2 ^ 16 ∧ msgSeq out = 0 ∧ (isEth ep = true → Carried s0 ep out.length → t.outbox = s0.outbox ++ [.session ep out]))
      ∧ (msgKind m = 1 → ¬good → ∃ t, exec (.openSession ep m) s = .next t ∧ drops t)
      ∧ (∀ row ∈ [(Instr.sessionRead, 1), (.sessionWrite, 2), (.sessionWindow, 3), (.sessionNop, 4)], ∀ (x : Sess) (b : Bytes), msgKind m = 0x10 →
          s0.sessions.find? (·.num = msgSession m) = some x → sessOpen x m = some b → seqFresh x (msgSeq m) = true → recField b 0 1 = row.2 →
          let s1 := s0.setSess (seqTake x (msgSeq m) (s0.now 8))
          let r := s1.sessRun b
          ∀ y, r.2.2.sessions.find? (·.num = x.num) = some y → y.tx + 1 < 2 ^ 31 → y.top + 1 < 2 ^ 31 → y.pend = [] →
          let reply := responseBody (recField b 0 1) (recField b 1 1) (msgSeq m) r.1 r.2.1
          let out := sealedReply r.2.2 y reply
          (seqTurn y (msgSeq m) = true → ∃ t, exec (row.1 ep m) s = .next t ∧ t.sessions.find? (·.num = x.num) = some { y with tx := y.tx + 1, kept := ((msgSeq m, out) :: y.kept).take 16 }
            ∧ (isEth y.ep = true → Carried r.2.2 y.ep out.length → t.outbox = r.2.2.outbox ++ [.session y.ep out] ∧ { t with sessions := r.2.2.sessions, outbox := r.2.2.outbox } = r.2.2))
          ∧ (seqTurn y (msgSeq m) = false → ∃ t, exec (row.1 ep m) s = .next t ∧ t.sessions.find? (·.num = x.num) = some { y with pend := [(msgSeq m, reply)] } ∧ { t with sessions := r.2.2.sessions } = r.2.2)
          ∧ (row.2 = 4 → r = ([stOK], [], s1))
          ∧ (row.2 = 1 → recField b 1 1 = 1 → 16 ≤ b.length →
              let v := s1.regRead (.cap 12) (recField b 8 8 % 2 ^ 28) 8
              r = ([v.1], [leVal v.2.1], v.2.2))
          ∧ (row.2 = 2 → recField b 1 1 = 1 → 24 ≤ b.length →
              let v := s1.regWrite (.cap 12) (recField b 8 8 % 2 ^ 28) (recField b 16 8)
              r = ([if v.1 = stPending then stOK else v.1], [], v.2)))
      ∧ (∀ (x : Sess) (b : Bytes), msgKind m = 0x20 → s0.sessions.find? (·.num = msgSession m) = some x → sessOpen x m = some b → seqFresh x (msgSeq m) = true →
          ∃ t, exec (.closeSession ep m) s = .next t ∧ t.sessions = s0.sessions.filter (·.num ≠ x.num) ∧ { t with sessions := s0.sessions } = s0)
      ∧ (∀ row ∈ [Instr.sessionRead, .sessionWrite, .sessionWindow, .sessionNop, .closeSession], msgKind m = 0x10 ∨ msgKind m = 0x20 →
          (∀ x, s0.sessions.find? (·.num = msgSession m) = some x → sessOpen x m = none) → ∃ t, exec (row ep m) s = .next t ∧ drops t)
      ∧ (∀ row ∈ [Instr.acceptMsg, .responseMsg], msgKind m = 2 ∨ msgKind m = 0x11 → ∃ t, exec (row ep m) s = .next t ∧ drops t))
    ∧ (s0.mgmtUp = true → Carried s0 ep m.length → msgFormed m = false → 
        ∀ row ∈ [Instr.openSession, .acceptMsg, .responseMsg, .sessionRead, .sessionWrite, .sessionWindow, .sessionNop, .closeSession], ∃ t, exec (row ep m) s = .next t ∧ drops t)
    ∧ (s0.mgmtUp = true → Carried s0 ep m.length → msgFormed m = true → msgDst m ≠ s0.devid →
      (isEth ep = true → msgKind m = 1 → ∃ t, exec (.openSession ep m) s = .next t ∧ (msgDst m, m, ep) ∈ t.opens ∧ t.sessions = s0.sessions)
      ∧ (∀ e : Nat × Bytes × Endpoint, isEth ep = false → isEth e.2.2 = true → Carried s0 e.2.2 m.length → msgKind m = 2 →
          s0.opens.find? (fun e => e.1 = msgDst m && answersOpen e.2.1 m) = some e → ∃ t, exec (.acceptMsg ep m) s = .next t ∧ t.outbox = s0.outbox ++ [.session e.2.2 m]
            ∧ t.opens = s0.opens.erase e ∧ (msgDst m, msgSession m, e.2.2) ∈ t.relays ∧ t.sessions = s0.sessions)
      ∧ (∀ e : Nat × Nat × Endpoint, isEth ep = false → isEth e.2.2 = true → Carried s0 e.2.2 m.length → msgKind m = 0x11 →
          s0.relays.find? (fun e => e.1 = msgDst m && e.2.1 = msgSession m) = some e → ∃ t, exec (.responseMsg ep m) s = .next t
            ∧ t.outbox = s0.outbox ++ [.session e.2.2 m] ∧ { t with outbox := s0.outbox } = s0))
    ∧ (∀ (k : BitVec 16) (x : Sess), s.sessions.find? (·.num = k.toNat) = some x →
      let ended := { s with sessions := s.sessions.filter (·.num ≠ k.toNat) }
      exec (.sessionIdleTimeout k) s = .next (if x.last + 60 * 1200000000 ≤ s.now 8 then ended else s)
      ∧ exec (.sessionLifetimeExpiry k) s = .next (if x.opened + 86400 * 1200000000 ≤ s.now 8 then ended else s))

/-! ### Firmware -/

/-- R391-R395, R401: STAGE accepts an image whose header, rollback number, digests and interfaces pass, and names the check that fails; TRANSIT quiesces, and the commit exchanges the slots, or an abort leaves the old firmware running; the flash is rewritten with the header last, and three failures leave FLASH_INVALID; the window writes the staged slot. Model's readings it rests on: log entries 28, 107, 109. -/
def Obligations.FirmwareIsStagedAndCommitted : Prop :=
  ∀ (q : Req) (s : State),
    let fws := s.fget F.mgtFwstat_FWSTATE
    let may := fun (c : Nat) => Starts s q .mgtFwcmd F.mgtFwcmd_GO (if c = 0 then [] else [(F.mgtFwcmd_CMD, c)])
    let done := fun (t : State) (r : Nat) => Ended t F.mgtFwcmd_GO F.mgtFwcmd_RESULT r
    let h := s.stagedHdr
    let b := s.slotBase s.stagedSlot
    let readable := (s.read b 4096).1 = stOK ∧ hdrLayoutOk h = true ∧ hdrSigOk h = true
    let whole := (s.read b (hdrLen h)).1 = stOK ∧ compsMatch h (s.slotComp s.stagedSlot) = true
    let abi := hdrHaloAbi h = hdrHaloAbi s.fw.hdr ∧ hdrUcodeAbi h = hdrUcodeAbi s.fw.hdr
    let refused := fun (row : Nat) => ∃ t, exec (.fwStage q) s = .next t ∧ done t 3 ∧ t.fget F.mgtFwcmd_DETAIL = row ∧ RegsBut s t [Reg.mgtFwcmd.off]
    (may 0 → fws = 0 ∨ fws = 1 ∨ fws = 5 →
      (readable → s.fget F.mgtRollback_COUNT ≤ hdrSvn h → whole → abi → ∃ t, exec (.fwStage q) s = .next t ∧ done t 1 ∧ t.fget F.mgtFwstat_FWSTATE = 1
        ∧ RegsBut s t [Reg.mgtFwcmd.off, Reg.mgtFwstat.off] ∧ { t with regs := s.regs, resp := s.resp } = s)
      ∧ (¬readable → refused 5) ∧ (readable → hdrSvn h < s.fget F.mgtRollback_COUNT → refused 6)
      ∧ (readable → s.fget F.mgtRollback_COUNT ≤ hdrSvn h → ¬whole → refused 7)
      ∧ (readable → s.fget F.mgtRollback_COUNT ≤ hdrSvn h → whole → ¬abi → ∃ t, exec (.fwStage q) s = .next t ∧ done t 4 ∧ RegsBut s t [Reg.mgtFwcmd.off]))
    ∧ (∀ allow : Bool, Starts s q .mgtFwcmd F.mgtFwcmd_GO [(F.mgtFwcmd_CMD, 1), (F.mgtFwcmd_ALLOW_SEALED, if allow then 1 else 0)] → fws = 1 →
      ((∀ p, p < 8 → s.partState p ≠ 2) ∨ allow = true → ∃ t, exec (.fwTransit q allow) s = .next t ∧ t.resp = ⟨stOK, []⟩ ∧ t.fget F.mgtFwstat_FWSTATE = 2 ∧ t.fw.transit = true
        ∧ t.fbit F.mgtFwcmd_GO = true ∧ (∀ c ∈ mgmtCaps, ∃ body, Sparse.find t.fw.records c = some (handoverRec c (s.now 8) body)) ∧ t.cores = s.cores ∧ t.mem = s.mem)
      ∧ ((∃ p, p < 8 ∧ s.partState p = 2) → allow = false → ∃ t, exec (.fwTransit q allow) s = .next t ∧ done t 3 ∧ RegsBut s t [Reg.mgtFwcmd.off]))
    ∧ (s.fw.transit = true → s.deferred = [] → RingsOff s →
      (s.failed = false → ∃ t, exec (.transitCommit .ok) s = .next t ∧ t.fw.transit = false ∧ t.fw.slot = s.stagedSlot ∧ t.fw.hdr = h ∧ t.fw.rewrite = true
        ∧ t.fget F.mgtFwstat_FWSTATE = 3 ∧ t.fget F.mgtFwstat_FW_VERSION = hdrVersion h ∧ t.fget F.mgtFwcmd_RESULT = 1 ∧ t.fbit F.mgtFwcmd_GO = false
        ∧ t.fbit F.mgtFwstat_UCODE_PENDING = (List.range 384).any s.coreGood ∧ (∀ n, n < 384 → s.coreGood n = true → n ∈ t.fw.swaps) ∧ Records s t 0x8000 0xE3 ∧ t.cores = s.cores ∧ t.mem = s.mem)
      ∧ (s.failed = false → ∀ cap, ∃ t, exec (.transitCommit (.failed cap)) s = .next t ∧ t.fw = { s.fw with transit := false } ∧ t.fget F.mgtFwstat_FWSTATE = 1
        ∧ t.fget F.mgtFwcmd_RESULT = 5 ∧ t.fbit F.mgtFwcmd_GO = false ∧ Records s t 0x8000 0xE4 ∧ t.mem = s.mem)
      ∧ (Reaches s q .mgtFwcmd (fields [(F.mgtFwcmd_GO, 1), (F.mgtFwcmd_CMD, 2)]) → s.fbit F.mgtFwcmd_GO = true → ∃ t, exec (.fwAbort q) s = .next t ∧ done t 5
        ∧ t.fw = { s.fw with transit := false } ∧ t.fget F.mgtFwstat_FWSTATE = 1 ∧ Records s t 0x8000 0xE4 ∧ t.mem = s.mem))
    ∧ (may 3 → (fws = 5 → ∃ t, exec (.flashWrite q) s = .next t ∧ t.resp = ⟨stOK, []⟩ ∧ t.fw = { s.fw with rewrite := true, rewriteCmd := true } ∧ t.fbit F.mgtFwcmd_GO = true
        ∧ RegsBut s t [Reg.mgtFwcmd.off]) ∧ (fws ≠ 5 → ∃ t, exec (.flashWrite q) s = .next t ∧ done t 2 ∧ t.fw = s.fw))
    ∧ (∀ fails : FlashFails, s.fw.rewrite = true → s.fw.hdr.length = 4096 → 4096 < hdrLen s.fw.hdr →
      (((List.range 3).all fun i => fails.getD i false) = false → ∃ t, exec (.flashRewrite fails) s = .next t ∧ t.fget F.mgtFwstat_FWSTATE = 0 ∧ t.fw.rewrite = false
        ∧ t.flashGet 0x200000 4096 = s.fw.hdr ∧ t.flashGet 0x210000 (hdrLen s.fw.hdr - 4096) = s.getBytes (s.slotBase s.fw.slot + 4096) (hdrLen s.fw.hdr - 4096)
        ∧ (s.fw.rewriteCmd = true → t.fget F.mgtFwcmd_RESULT = 1 ∧ t.fbit F.mgtFwcmd_GO = false) ∧ t.mem = s.mem)
      ∧ (((List.range 3).all fun i => fails.getD i false) = true → ∃ t, exec (.flashRewrite fails) s = .next t ∧ t.fget F.mgtFwstat_FWSTATE = 5 ∧ Records s t 0x8000 0xE5
        ∧ t.flashGet 0x200000 4096 = List.replicate 4096 0xFF ∧ (s.fw.rewriteCmd = true → t.fget F.mgtFwcmd_RESULT = 7 ∧ t.fbit F.mgtFwcmd_GO = false)))
    ∧ (∀ (off : BitVec 16) (data : Bytes), data.length = 64 → off.toNat % 64 = 0 → badCap q = false → (∀ p, q ≠ .vf p) →
        let r := Reg.mgtFwwin (off.toNat / 8)
        let o := s.fget F.mgtFwarg_WOFF + off.toNat
        s.regUp q r = true → s.capMay q (0x1C10000 + off.toNat) r = true →
        (fws = 4 → ∃ t, exec (.fwWindowWrite q off data) s = .next t ∧ t.resp = ⟨stOK, []⟩ ∧ (∀ i, i < 64 → Sparse.getD (fun _ => 0) t.fw.rcBuf (o + i) = data.getD i 0)
          ∧ (∀ x, (x < o ∨ o + 64 ≤ x) → Sparse.getD (fun _ => 0) t.fw.rcBuf x = Sparse.getD (fun _ => 0) s.fw.rcBuf x) ∧ { t with fw := s.fw, resp := s.resp } = s)
        ∧ (fws ≠ 4 → SliceReady s (b + o) 64 true → MapOk s → ∃ t, exec (.fwWindowWrite q off data) s = .next t ∧ t.resp = ⟨stOK, []⟩ ∧ t.getBytes (b + o) 64 = data ∧ BackedBut s t (b + o) 64))
    ∧ (∀ (off : BitVec 16) (data : Bytes), data.length = 8 → off.toNat % 8 = 0 → Reaches s q (.mgtFwwin (off.toNat / 8)) (leVal data) → fws = 4 →
        ∃ t, exec (.fwWindowWrite q off data) s = .next t ∧ t.resp = ⟨stOK, []⟩ ∧ { t with fw := s.fw, resp := s.resp } = s
          ∧ ∀ i, i < 8 → Sparse.getD (fun _ => 0) t.fw.rcBuf (s.fget F.mgtFwarg_WOFF + off.toNat + i) = data.getD i 0)

/-- R382, R386, R389, R390, R392, R396, R397: recovery takes an image or a configuration block window by window and programs it when its checks pass; the rollback counter and the sealing policy step once and never back; a component restarts from its handover record, a second kernel fault within 600 s is fatal; the microcode broadcast sends its packets, collects NACKs, checks digests and fences what fails. Model's readings it rests on: log entries 110, 111, 112. -/
def Obligations.RecoveryCountersAndMicrocode : Prop :=
  ∀ (q : Req) (s : State),
    let mode := s.fget F.mgtFwstat_FWSTATE
    let w := s.fget F.mgtFwarg_WOFF
    let may := fun (c : Nat) => Reaches s q .mgtRcmd (fields [(F.mgtRcmd_GO, 1), (F.mgtRcmd_CMD, c)]) ∧ s.fbit F.mgtRcmd_BUSY = false
    let done := fun (t : State) (r : Nat) => Ended t F.mgtRcmd_GO F.mgtRcmd_RESULT r
    let h := s.rcBytes 0 4096
    let taken := fun (t : State) (a n : Nat) => ∀ i, i < n → t.rcBodyBytes (a + i) 1 = s.rcBytes (a + i) 1
    (may 0 → mode = 4 → w = 0 →
      (hdrLayoutOk h = true → hdrSigOk h = true → s.fuses.rollback ≤ hdrSvn h → ∃ t, exec (.beginImage q) s = .next t ∧ done t 1 ∧ t.fw.rcKind = 1 ∧ t.fw.rcNext = 0 ∧ taken t 0 4096
        ∧ t.flashGet 0x200000 65536 = List.replicate 65536 0xFF ∧ (∀ a, (a < 0x200000 ∨ 0x210000 ≤ a) → t.flashGet a 1 = s.flashGet a 1))
      ∧ (hdrLayoutOk h = false ∨ hdrSigOk h = false ∨ hdrSvn h < s.fuses.rollback → ∃ t, exec (.beginImage q) s = .next t ∧ done t 3 ∧ t.flash = s.flash ∧ t.fw = s.fw))
    ∧ (may 1 → mode = 4 → w = 0 → ∃ t, exec (.beginConfig q) s = .next t ∧ done t 1 ∧ t.fw.rcKind = 2 ∧ t.fw.rcNext = 65536 ∧ taken t 0 65536 ∧ t.flash = s.flash)
    ∧ (may 2 → mode = 4 → s.fw.rcKind ≠ 0 → w = s.fw.rcNext → w < rcLimit s.fw.rcKind → ∃ t, exec (.recoveryWrite q) s = .next t ∧ done t 1 ∧ t.fw.rcNext = w + 65536
      ∧ (s.fw.rcKind = 1 → let lo := max w 4096
          let n := min (w + 65536) (rcLimit 1) - lo
          taken t lo n ∧ t.flashGet (imagePlace lo) n = s.rcBytes lo n)
      ∧ (s.fw.rcKind ≠ 1 → taken t w 65536 ∧ t.flash = s.flash))
    ∧ (may 3 → mode = 4 →
      (s.fw.rcKind = 1 → let h := s.rcBodyBytes 0 4096
        (compsMatch h (fun c => s.rcBodyBytes c.off c.len) = true → ∃ t, exec (.recoveryEnd q) s = .next t ∧ done t 1 ∧ t.fw.rcKind = 0 ∧ t.flashGet 0x200000 4096 = h)
        ∧ (compsMatch h (fun c => s.rcBodyBytes c.off c.len) = false → ∃ t, exec (.recoveryEnd q) s = .next t ∧ done t 3 ∧ t.fw.rcKind = 0 ∧ t.flash = s.flash))
      ∧ (s.fw.rcKind = 2 → let b := s.rcBodyBytes 0 131072
        (cfgLayoutOk b = true → cfgSigOk b = true → s.ownerOk b = true → ∃ t, exec (.recoveryEnd q) s = .next t ∧ done t 1 ∧ t.fw.rcKind = 0
          ∧ t.flashGet 0x10000 (recField b 8 4) = b.take (recField b 8 4))))
    ∧ (may 4 → mode = 4 → ∃ t, exec (.recoveryReboot q) s = .next t ∧ t.resp = ⟨stOK, []⟩ ∧ AfterReset s t false)
    ∧ (may 5 → ∃ t, exec (.recoveryEnter q) s = .next t ∧ done t 1 ∧ t.fw = { s.fw with enter := true } ∧ RegsBut s t [Reg.mgtRcmd.off])
    ∧ (∀ row ∈ [(Instr.beginImage q, 0), (.beginConfig q, 1), (.recoveryWrite q, 2), (.recoveryEnd q, 3), (.recoveryReboot q, 4)], may row.2 → mode ≠ 4 → ∃ t, exec row.1 s = .next t
        ∧ done t 5 ∧ RegsBut s t [Reg.mgtRcmd.off] ∧ { t with regs := s.regs, resp := s.resp } = s)
    ∧ (∀ v : BitVec 64, Reaches s q .mgtRollback v.toNat → let c := inWord F.mgtRollback_COUNT v.toNat
      (c = s.fuses.rollback + 1 → c ≤ 64 → c ≤ hdrSvn s.fw.hdr → ∃ t, exec (.rollbackIncrement q v) s = .next t ∧ t.resp = ⟨stOK, []⟩ ∧ t.fuses = { s.fuses with rollback := c }
        ∧ t.fget F.mgtRollback_COUNT = c ∧ t.fget F.mgtLimits_ROLL_LEFT = 64 - c)
      ∧ (c ≠ s.fuses.rollback + 1 ∨ 64 < c ∨ hdrSvn s.fw.hdr < c → exec (.rollbackIncrement q v) s = .next (s.answer stDenied [])))
    ∧ (∀ v : BitVec 64, Reaches s q .secSealpol v.toNat → let new := v.toNat % 8
      let old := s.reg .secSealpol % 8
      let left := s.fget F.secSealpol_LEFT
      (new ≠ old → 0 < left → new % 2 = old % 2 ∨ (∀ p, p < 8 → s.partState p ≠ 2) → ∃ t, exec (.sealpolChange q v) s = .next t ∧ t.resp = ⟨stOK, []⟩
        ∧ t.fuses = { s.fuses with sealPol := new, sealUsed := s.fuses.sealUsed + 1 } ∧ t.reg .secSealpol % 8 = new ∧ t.fget F.secSealpol_LEFT = left - 1)
      ∧ (new = old → exec (.sealpolChange q v) s = .next (s.answer stOK [])) ∧ (new ≠ old → left = 0 → exec (.sealpolChange q v) s = .next (s.answer stDenied [])))
    ∧ (∀ cap : BitVec 4, (5 ≤ cap.toNat → cap.toNat ≤ 9 → ∃ t, exec (.fwComponentFault cap) s = .next t ∧ Reported s t ∧ Records s t (0x8000 + coreOfCap cap.toNat) 0xE0)
      ∧ ∀ body, (4 ≤ cap.toNat → cap.toNat ≤ 9 → ∃ t, exec (.handoverRecord cap body) s = .next t ∧ Sparse.find t.fw.records cap.toNat = some (handoverRec cap.toNat (s.now 8) body)
          ∧ { t with fw := s.fw } = s) ∧ (cap.toNat < 4 ∨ 9 < cap.toNat → exec (.handoverRecord cap body) s = .next s))
    ∧ (let late := ∀ x, s.fw.kernelAt = some x → x + 600 * 1200000000 ≤ s.now 8
      (late → ∃ t, exec .fwKernelRestart s = .next t ∧ Records s t 0x8000 0xE1 ∧ t.fw = { s.fw with kernelAt := some (s.now 8) } ∧ t.failed = s.failed)
      ∧ (¬late → ∃ t, exec .fwKernelRestart s = .next t ∧ t.failed = true))
    ∧ (∀ (n : Fin 384) (bad : Fin 4) (b : Bytes) (dig : Nat), n.val ∈ s.fw.swaps → (s.core n).inst = none → s.fw.transit = false →
      (bad < 3 → s.ucodeImage = some (b, dig) → shake b = dig → ∃ t, exec (.ucodeSwap n bad) s = .next t ∧ (∀ i, i < 1024 → (t.core n).bundle i = bundleAt b i)
        ∧ (t.core n).ucOk = true ∧ n.val ∉ t.fw.swaps ∧ CoresBut s t n ∧ t.mem = s.mem)
      ∧ (bad = 3 → (s.core n).fault = none → s.resetting.contains n.val = false → ∃ t, exec (.ucodeSwap n bad) s = .next t ∧ (t.core n).fenced = true ∧ t.fbit (F.coreFence_FENCE n) = true
        ∧ n.val ∉ t.fw.swaps ∧ t.coreGood n = false ∧ CoresBut s t n))
    ∧ (s.ucMay = true →
      (∀ (lost : LostPackets) (img : Bytes) (dig : Nat), s.fw.ucDue = false → s.ucodeImage = some (img, dig) →
        let cores := if s.fw.ucRound = 0 then s.fw.ucLoad else s.fw.ucNack
        cores ≠ [] → ∃ t, exec (.ucodeRound lost) s = .next t ∧ t.fw = { s.fw with ucRound := s.fw.ucRound + 1, ucDue := true, ucSend := 0, ucNack := [] }
          ∧ (∀ n ∈ cores, ∀ p, p < 65 → bitAt s.fw.ucSend p = true → (lost.any fun q => q.1.val = n && q.2.val = p) = false → bitAt (t.core n).ucMap p = true
            ∧ (bitAt (s.core n).ucMap p = false → p < 64 → ∀ i, i < 16 → (t.core n).bundle (16 * p + i) = bundleAt img (16 * p + i)))
          ∧ (∀ n, n ∉ cores → t.core n = s.core n) ∧ { t with fw := s.fw, cores := s.cores } = s)
      ∧ (∀ (bad : CoreList) (b : Bytes) (tm : StageTime) (used : Nat), s.fw.ucDue = true → s.ucodeImage = some (b, shake b) → s.fw.ucPark = false →
        let full := fun (n : Nat) => (s.core n).ucMap = 2 ^ 65 - 1
        ((∀ n ∈ s.fw.ucLoad, full n ∧ (bad.any fun m => m.val = n) = false) → s.boot.s5 = some (tm, used) → ∃ t, exec (.ucodeDigestCheck bad) s = .next t ∧ t.fw.ucLoad = [] ∧ t.fw.ucDue = false
          ∧ (∀ n ∈ s.fw.ucLoad, (t.core n).ucOk = true) ∧ t.boot.s5 = none ∧ t.fget F.bootStatus_STATE = 1)
        ∧ (s.fw.ucRound < 9 → (∃ n ∈ s.fw.ucLoad, ¬full n ∨ (bad.any fun m => m.val = n) = true) → ∃ t, exec (.ucodeDigestCheck bad) s = .next t ∧ t.fw.ucDue = false
          ∧ (∀ n ∈ s.fw.ucLoad, (full n ∧ (bad.any fun m => m.val = n) = false → (t.core n).ucOk = true ∧ n ∉ t.fw.ucLoad)
            ∧ (full n → (bad.any fun m => m.val = n) = true → (t.core n).ucMap = 0 ∧ n ∈ t.fw.ucLoad) ∧ (¬full n → t.core n = s.core n ∧ n ∈ t.fw.ucLoad)))
        ∧ (9 ≤ s.fw.ucRound → ∀ n ∈ s.fw.ucLoad, ¬full n → (s.core n).inst = none → (s.core n).fault = none → s.resetting.contains n = false → n < 384 →
            ∃ t, exec (.ucodeDigestCheck bad) s = .next t ∧ t.fbit (F.coreFence_FENCE n) = true))
      ∧ (∀ n : Fin 384, s.fw.ucDue = false → s.fw.ucRound ≠ 0 → n.val ∈ s.fw.ucLoad → n.val ∉ s.fw.ucNack → ∃ t, exec (.ucodeNack n) s = .next t ∧ t.fw.ucNack = s.fw.ucNack ++ [n.val]
          ∧ (∀ p, p < 65 → bitAt t.fw.ucSend p = (bitAt s.fw.ucSend p || !bitAt (s.core n).ucMap p)) ∧ t.cores = s.cores ∧ t.regs = s.regs))

/-! ### Bring-up, resets, power, Halo -/

/-- R375-R379, R381, R396, R402-R413: each stage starts when the one before has ended DONE; it ends DONE with its state, or FAILED with the code of its first failure and ALERT_N, or in recovery mode with its reason; the report says which. Model's readings it rests on: log entries 113, 114, 115, 116, 117, 118, 119. -/
def Obligations.BringUpStages : Prop :=
  ∀ (s : State) (tm : StageTime),
    let fails := fun (c : Instr) (k code : Nat) => ∃ t, exec c s = .next t ∧ StageEnd t k 2 code ∧ StageSaid t k 2 code tm ∧ bitAt (t.reg .safAlert) 4 = true
    let done := fun (t : State) (k code : Nat) => StageEnd t k 1 code ∧ t.reg (.bootReport k 1) = tm.t0.toNat ∧ t.reg (.bootReport k 2) = tm.t1.toNat
    (s.stageMay 0 = true → ∀ e : S0Env,
      let bad := if s.boot.cold = true ∧ e.haloOk = false then 0x10 else if s.boot.cold = true ∧ e.refOk = false then 0x11
        else if s.boot.cold = true ∧ e.pllOk = false then 0x12 else if e.secOk = false then 0x13 else 0
      (bad ≠ 0 → fails (.stageS0 e tm) 0 bad)
      ∧ (bad = 0 → ∃ t, exec (.stageS0 e tm) s = .next t ∧ done t 0 0 ∧ t.fget F.safStat_STATE = 1 ∧ t.fget F.secStat_MSTATE = 1 ∧ t.fbit F.secStat_APPROVED = true
        ∧ t.boot.dies = 2 ^ 8 ∧ (s.boot.cold = true → t.reg .safThr0 = thrDefault thr0Fields ∧ t.reg .safThr1 = thrDefault thr1Fields)))
    ∧ (s.stageMay 1 = true → ∀ e : S1Env,
      let recovers := fun (r code : Nat) => ∃ t, exec (.stageS1 e tm) s = .next t ∧ t.fget F.mgtFwstat_FWSTATE = 4 ∧ t.fget F.mgtFwstat_REASON = r ∧ t.fget F.bootStatus_CODE = code ∧ t.cxl.may = true
      let s0 := ((s.stageBegin 1).fuseLoad).identRestore
      let b := s0.flashGet 0x10000 0x20000
      let s1 := s0.logWalk.bindOwner b
      let h := s1.flashGet 0x200000 4096
      let block := cfgLayoutOk b = true ∧ cfgSigOk b = true
      let header := hdrLayoutOk h = true ∧ hdrSigOk h = true
      (s.fw.enter = true → recovers 9 0)
      ∧ (s.fw.enter = false →
        (e.flashOk = false → recovers 1 0x101)
        ∧ (e.flashOk = true → (¬block → recovers 2 0x102) ∧ (block → s0.ownerOk b = false → recovers 3 0x103)
          ∧ (block → s0.ownerOk b = true → (¬header → recovers 5 0x105) ∧ (header → hdrSvn h < s1.fuses.rollback → recovers 6 0x106)
            ∧ (header → s1.fuses.rollback ≤ hdrSvn h → compsMatch h s1.flashComp = false → recovers 7 0x107)
            ∧ (header → s1.fuses.rollback ≤ hdrSvn h → compsMatch h s1.flashComp = true → ∀ c, hdrComp h 5 = some c →
              let d := s1.cfgRun false s1.thrForce (chunksOf 16 (c.len / 16) (s1.flashComp c))
              let r := d.1.cfgRun true d.2.1 (chunksOf 16 (recField b 12 4) ((b.drop 128).take (16 * recField b 12 4)))
              (d.2.2 = false ∨ r.2.2 = false → recovers 4 0x104)
              ∧ (d.2.2 = true → r.2.2 = true → ∃ t, exec (.stageS1 e tm) s = .next t ∧ t.fget F.bootStatus_STATE = 1 ∧ t.fget F.bootStatus_CODE = 0 ∧ t.fw.hdr = h ∧ t.fw.haloDig = measHalo h
                ∧ t.fw.cfgDig = shake (b.take (recField b 8 4)) ∧ t.fget F.mgtFwstat_CFG_SEQ = recField b 16 4 % 65536 ∧ (s.fuses.owner = none → t.fuses.owner = some (cfgOwner b))))))))
    ∧ (s.stageMay 2 = true →
      (∀ d, fails (.stageS2 ⟨some d, none, none, none, []⟩ tm) 2 0x201 ∧ fails (.stageS2 ⟨none, some d, none, none, []⟩ tm) 2 0x202 ∧ fails (.stageS2 ⟨none, none, none, some d, []⟩ tm) 2 0x204)
      ∧ (∀ x, fails (.stageS2 ⟨none, none, some x, none, []⟩ tm) 2 0x203)
      ∧ ∃ t, exec (.stageS2 ⟨none, none, none, none, []⟩ tm) s = .next t ∧ done t 2 0 ∧ t.boot.dies = 2 ^ 10 - 1 ∧ (∀ i, i < 25 → t.fget (F.pwrVf_VMIN i) = Sparse.getD (fun _ => 0) s.fuses.vf (8 + i) % 1024)
        ∧ ∀ m, m < 768 → s.fuseOf (0x3000 + m) ≠ 0 → mchState t m = 3)
    ∧ (s.stageMay 3 = true →
      (∀ r, fails (.stageS3 ⟨some r, none, none⟩ tm) 3 0x301 ∧ fails (.stageS3 ⟨none, some r, none⟩ tm) 3 0x302) ∧ (∀ d, fails (.stageS3 ⟨none, none, some d⟩ tm) 3 0x303)
      ∧ ∃ t, exec (.stageS3 ⟨none, none, none⟩ tm) s = .next t ∧ done t 3 0 ∧ t.clockOn = true ∧ t.time = List.replicate 10 0 ∧ t.pow.vnow = s.vf 8 ∧ t.fget F.pwrStat_VCMD = s.vf 8
        ∧ t.pins.stkEn = true ∧ t.pins.optEn = true ∧ t.cxl.may = true)
    ∧ (s.stageMay 4 = true → ∀ temps,
      (∀ k bad, fails (.stageS4 ⟨some k, bad, temps⟩ tm) 4 0x401)
      ∧ (s.boot.cold = true →
        (16 < s.retiredCount → fails (.stageS4 ⟨none, [], temps⟩ tm) 4 0x402)
        ∧ (s.retiredCount ≤ 16 → ∃ t, exec (.stageS4 ⟨none, [], temps⟩ tm) s = .next t ∧ done t 4 0 ∧ (∀ m, m < 768 → mchState t m = if mchState s m = 3 then 3 else 0) ∧ t.poison = []
          ∧ (∀ e ∈ t.mem, 768 * 2 ^ 30 ≤ e.1) ∧ t.fget F.bootStatus_WARM = 0)
        ∧ (∀ (m : Fin 768) (pins : BadPins), mchState s m ≠ 3 → s.retiredCount ≤ 15 → 3 ≤ ((List.range 37).filter fun p => pins.any fun b => b.val = p).length →
          ∃ t, exec (.stageS4 ⟨none, [(m, pins)], temps⟩ tm) s = .next t ∧ done t 4 0 ∧ mchState t m = 3 ∧ t.mapN = (liveMchs t).length)))
    ∧ (s.stageMay 5 = true →
      (∃ t, exec (.stageS5 ⟨false, none⟩ tm) s = .next t ∧ StageEnd t 5 0 0x508 ∧ t.fget F.mgtFwstat_FWSTATE = 4 ∧ t.fget F.mgtFwstat_REASON = 8)
      ∧ (∀ c, fails (.stageS5 ⟨true, some c⟩ tm) 5 0x501)
      ∧ (let cores := (List.range 384).filter fun n => s.fuseOf (0x1000 + n) = 0 && !s.fdrHas (0x1000 + n) 1
        cores ≠ [] → ∃ t, exec (.stageS5 ⟨true, none⟩ tm) s = .next t ∧ StageEnd t 5 0 0 ∧ t.fw.comps = 0x3F0 ∧ t.fw.ucLoad = cores ∧ t.fw.ucRound = 0 ∧ t.fw.ucSend = 2 ^ 65 - 1 ∧ t.fw.ucDue = false
          ∧ t.fget F.mgtFwstat_FW_VERSION = hdrVersion s.fw.hdr))
    ∧ (s.stageMay 6 = true →
      (s.boot.cold = true → (∃ t, exec (.stageS6 ⟨[], 0⟩ tm) s = .next t ∧ done t 6 0 ∧ t.boot.failed = [])
        ∧ (fails (.stageS6 ⟨[0x7000], 0⟩ tm) 6 0x601)
        ∧ (∀ u : BitVec 16, u.toNat ∈ karUnits → s.fuseOf u.toNat = 0 → s.fdrUsed < 255 → ∃ t, exec (.stageS6 ⟨[u], 0⟩ tm) s = .next t ∧ done t 6 0 ∧ u.toNat ∈ t.boot.failed ∧ t.defect u.toNat = true
          ∧ t.usable u.toNat = false))
      ∧ (s.boot.cold = false → ∀ e w, s.boot.warm = some w → ∃ t, exec (.stageS6 e tm) s = .next t ∧ done t 6 0 ∧ t.boot.failed = w.failed))
    ∧ (s.stageMay 7 = true → ∃ t, exec (.stageS7 tm) s = .next t ∧ done t 7 0 ∧ t.eclRail = s.pins.vddEcl ∧ t.reg .safLaser = 0
      ∧ ∀ l, l < 64 → s.linkState l = 0 → s.fbit (F.lnkCfg_EN l) = true → s.fbit F.safStat_WDOG = false → s.tripped = false → s.usable (0x4000 + l) = true →
          (∀ p, pairOf l = some p → s.pins.vddEcl = true ∧ s.fbit (F.lnkEcl_FORCE p) = false) → t.linkState l = 1)
    ∧ (s.stageMay 8 = true → ∃ t, exec (.stageS8 tm) s = .next t ∧ (∀ n, n < 384 → t.coreGood n = s.coreUsable n ∧ (s.coreUsable n = true → t.fbit (F.coreFence_FENCE n) = false))
      ∧ let few := ((List.range 384).filter s.coreUsable).length < 368
        done t 8 (if few then 0x801 else 0x800) ∧ (t.fbit F.bootStatus_BELOW = true ↔ few))

/-- R414-R420, R472, R473, R481, R493, R494: RST_CMD refuses a busy target and one that a reset covers, and starts a core, cluster or partition reset; the end of a reset leaves its cores with nothing and counts it; a device reset and PKG_RST_N take bring-up back before S0; an assertion under 1 µs has no effect; the supply of Halo holds everything. Model's readings it rests on: log entries 99, 100, 134. -/
def Obligations.ResetsAndPins : Prop :=
  ∀ (q : Req) (s : State),
    let may := fun (l t : Nat) => Starts s q .rstCmd F.rstCmd_GO [(F.rstCmd_LEVEL, l), (F.rstCmd_TARGET, t)]
    let done := fun (t : State) (r : Nat) => Ended t F.rstCmd_GO F.rstCmd_RESULT r
    let refused := fun (c : Instr) (r : Nat) => ∃ t, exec c s = .next t ∧ done t r ∧ RegsBut s t [Reg.rstCmd.off] ∧ { t with regs := s.regs, resp := s.resp } = s
    let free := fun (cores : List Nat) => ∀ j ∈ s.resets, ∀ n ∈ cores, n ∉ j.cores
    let starts := fun (c : Instr) (l k : Nat) (cores : List Nat) => ∃ t, exec c s = .next t ∧ t.resp = ⟨stOK, []⟩ ∧ t.fbit F.rstCmd_GO = true
      ∧ (∃ j ∈ t.resets, j.level = l ∧ j.target = k ∧ j.cmd = true ∧ j.cores = cores) ∧ (free cores → ∀ n ∈ cores, (t.core n).inst = none ∧ n ∈ t.resetting)
    (∀ k : Fin 384, may 0 k → (s.rstCovered 0 k = true → refused (.resetCore q k) 5)
      ∧ (s.rstCovered 0 k = false → (s.coreBusy k = true → refused (.resetCore q k) 2) ∧ (s.coreBusy k = false → starts (.resetCore q k) 0 k [k.val])))
    ∧ (∀ k : Fin 32, may 1 k → (s.rstCovered 1 k = true → refused (.resetCluster q k) 5)
      ∧ (s.rstCovered 1 k = false → (s.rstRefused 1 k = true → refused (.resetCluster q k) 2) ∧ (s.rstRefused 1 k = false → starts (.resetCluster q k) 1 k (clusterCores k))))
    ∧ (∀ k : Fin 8, may 2 k → (s.rstCovered 2 k = true → refused (.resetPartition q k) 5) ∧ (s.rstCovered 2 k = false → starts (.resetPartition q k) 2 k (s.partCores k)))
    ∧ (Starts s q .rstCmd F.rstCmd_GO [(F.rstCmd_LEVEL, 3)] → ∃ t, exec (.resetDevice q) s = .next t ∧ t.resp = ⟨stOK, []⟩ ∧ AfterReset s t false ∧ t.err.halo = s.err.halo)
    ∧ (Reaches s q .rstCmd (fields [(F.rstCmd_GO, 1), (F.rstCmd_LEVEL, 3)]) → s.fbit F.rstCmd_GO = true → exec (.resetDevice q) s = .next ((s.fset F.rstCmd_RESULT 4).answer stDenied []))
    ∧ (∀ j : RstJob, s.resets = [j] → j.waits = false → j.level ≤ 1 → (∀ n ∈ j.cores, n < 384) → RingsOff s → ∃ t, exec .resetDone s = .next t ∧ t.resets = [] ∧ t.resetting = []
        ∧ t.fget F.rstStat_LOCAL_RESETS = min (s.fget F.rstStat_LOCAL_RESETS + 1) 65535 ∧ (j.cmd = true → t.fbit F.rstCmd_GO = false ∧ t.fget F.rstCmd_RESULT = 1)
        ∧ (∀ n ∈ j.cores, (t.core n).inst = none ∧ (t.core n).r = [] ∧ (t.core n).vr = [] ∧ (t.core n).pc = 0 ∧ SpmZero t n) ∧ ∀ n, n ∉ j.cores → t.core n = s.core n)
    ∧ (∀ ns, (ns < 1000 → exec (.pkgRstNAssert ns) s = .next s)
      ∧ (1000 ≤ ns → s.thermtrip = false → s.pins.vddHalo = true → ∃ t, exec (.pkgRstNAssert ns) s = .next t ∧ AfterReset s t true ∧ t.pins.pkgRst = true ∧ t.pins.stkEn = false ∧ t.pins.optEn = false))
    ∧ exec .pkgRstNDeassert s = .next { s with pins := { s.pins with pkgRst := false } }
    ∧ (∃ t, exec .vddHaloLow s = .next t ∧ AfterReset s t true ∧ t.thermtrip = false ∧ t.tripped = false ∧ t.pins.vddHalo = false)
    ∧ exec .vddHaloUp s = .next { s with pins := { s.pins with vddHalo := true, pkgRst := true } }

/-- R421, R423: a write of a setpoint by its own source with a good mode and watts is stored, the moment being recorded from which its lease runs, and every other one completes with DENIED and changes nothing. -/
def Obligations.SetpointWrites : Prop :=
  ∀ (s : State) (q : Req) (k : Fin 3) (v : BitVec 64), Reaches s q (.pwrSp k) v.toNat →
      let mode := inWord (F.pwrSp_MODE k) v.toNat
      let watts := inWord (F.pwrSp_WATTS k) v.toNat
      let own := (k = 0 ∧ q = .i3c) ∨ (k = 1 ∧ q = .pf0) ∨ (k = 2 ∧ (q = .cap 8 ∨ q = .cap 12))
      let good := own ∧ mode ≠ 3 ∧ (mode = 1 → 300 ≤ watts ∧ watts ≤ 2200)
      (good → ∃ t, exec (.setpointWrite q k v) s = .next t ∧ t.resp = ⟨stOK, []⟩ ∧ t.reg (.pwrSp k) = s.merged q (.pwrSp k) v.toNat ∧ RegsBut s t [(Reg.pwrSp k).off]
        ∧ t.pow = { s.pow with spAt := putAt s.pow.spAt k (s.now 8) } ∧ { t with regs := s.regs, resp := s.resp, pow := s.pow } = s)
      ∧ (¬good → exec (.setpointWrite q k v) s = .next (s.answer stDenied []))

/-- R421, R422, R424, R426-R434, R480: a lease that has run out writes MODE NONE; a tick follows the request in force and sets the greatest G, then the least d, whose power fits the budget, or 32 and 0; a window moves the ceiling and the gain and holds DMIN after a violation; Park gates the cores and puts the stacks to sleep; the polls read the rails, and three misses are a rail fault; holds and DMIN end. Model's readings it rests on: log entries 2, 121, 122, 123, 124, 125. -/
def Obligations.PowerFollowing : Prop :=
  ∀ (s : State), s.haloRuns = true → s.failed = false → s.tripped = false → s.clockOn = true →
    let dmin := s.fget F.pwrGov_DMIN
    (∀ ps pd src watts, s.fget F.pwrStat_PARK = 0 →
      (s.powerReq = (1, src, watts) →
        let s1 : State := if s.fget F.pwrStat_G = 0 then s else
          { s with pow := { s.pow with pdN := s.pow.gainN * pd, pdD := s.pow.gainD, d0 := s.fget F.pwrStat_D, g0 := s.fget F.pwrStat_G, v0 := s.pow.vnow } }
        let target := min watts (s.fget F.safThr1_PKG_LIMIT)
        let lo := max 8 (max dmin (s.dvOf s.pow.vnow))
        let fits := fun (d g : Nat) => s1.powerFits (s.pow.gainN * ps) s.pow.gainD (min (target * 1000) s.pow.ceil) d g s.pow.vnow
        ∃ t d g, exec (.governorTick ps pd) s = .next t ∧ t.fget F.pwrStat_D = d ∧ t.fget F.pwrStat_G = g ∧ t.fget F.pwrStat_MODE = 1 ∧ t.fget F.pwrStat_SRC = src ∧ t.fget F.pwrStat_TARGET = target
          ∧ ((fits d g = true ∧ lo ≤ d ∧ d ≤ 32 ∧ g ≤ 16) ∨ (d = 32 ∧ g = 0)) ∧ (∀ d' g', g < g' ∨ (g' = g ∧ d' < d) → g' ≤ 16 → lo ≤ d' → d' ≤ 32 → fits d' g' = false) ∧ t.cores = s.cores ∧ t.mem = s.mem)
      ∧ (s.powerReq = (2, src, watts) → ∃ t, exec (.governorTick ps pd) s = .next t ∧ t.fget F.pwrStat_PARK = 1 ∧ t.fget F.pwrStat_D = s.fget F.pwrStat_D ∧ t.fget F.pwrStat_G = s.fget F.pwrStat_G ∧ t.cores = s.cores))
    ∧ (∀ est meas, 0 < est →
      let a := s.pow.gainN * est / s.pow.gainD
      let ru := s.fget F.safThr1_RAMP_UP
      let viol := ∃ p, s.pow.mean = some p ∧ p + 1500 * ru + 20000 < meas ∧ s.fget F.pwrStat_PARK ≠ 3
      ∃ t, exec (.rampWindow est meas) s = .next t ∧ t.pow.mean = some a ∧ t.pow.ceil = a + ru * 1000 ∧ t.fget F.pwrStat_CEIL = min ((a + ru * 1000) / 1000) 4095 ∧ t.fget F.pwrTel_MEAS = min (meas / 1000) 65535
        ∧ t.pow.gainN * (16 * s.pow.gainD * est) = t.pow.gainD * (15 * s.pow.gainN * est + meas * s.pow.gainD)
        ∧ (viol → t.fget F.pwrGov_DMIN = 32 ∧ t.pow.hold = some (s.now 8) ∧ bitAt (t.reg .safAlert) 1 = true) ∧ (¬viol → t.fget F.pwrGov_DMIN = dmin ∧ t.pow.hold = s.pow.hold))
    ∧ (s.fget F.pwrStat_PARK = 1 → (s.pow.gatesOff = false → s.cores.all (fun e => e.2.stopped) = true → ∃ t, exec .parkGate s = .next t ∧ t.pow.gatesOff = true
        ∧ ∀ n, n < 384 → (t.core n).inst = (s.core n).inst ∧ (t.core n).imem = [] ∧ (t.core n).ucOk = false ∧ (t.core n).vr = [] ∧ SpmZero t n)
      ∧ (s.pow.gatesOff = true → ∀ k : Fin 12, let m := setBit s.pow.selfRef k true
          (m % 4096 ≠ 4095 → exec (.stackSelfRefresh k) s = .next { s with pow := { s.pow with selfRef := m } })
          ∧ (m % 4096 = 4095 → s.fget F.pwrStat_MODE = 2 → ∃ t, exec (.stackSelfRefresh k) s = .next t ∧ t.pow.selfRef = m ∧ t.fget F.pwrStat_PARK = 2 ∧ t.cores = s.cores)))
    ∧ (∀ (rails : RailReads), (∀ r, r < 16 → ∃ mv ma, rails.getD r none = some (mv, ma) ∧ mv.toNat * 100 ≤ s.railCmd r * 105 ∧ s.railCmd r * 95 ≤ mv.toNat * 100) → (∀ r, s.pow.missed.getD r 0 < 3) → ∃ t, exec (.avsbusPoll rails) s = .next t ∧ t.failed = false
        ∧ t.pow.vnow = s.vStep ∧ ∀ r mv ma, r < 16 → rails.getD r none = some (mv, ma) → s.railPolled r = true → t.fget (F.pwrRail_MV r) = mv.toNat ∧ t.fget (F.pwrRail_MA r) = ma.toNat)
    ∧ (∀ (rails : RailReads) r, r < 16 → rails.getD r none = none → s.railPolled r = true → s.pow.missed.getD r 0 = 2 → ∃ t, exec (.avsbusPoll rails) s = .next t ∧ t.failed = true ∧ t.shutReq = true)
    ∧ (∀ k : Fin 3, let l := s.fget (F.pwrSp_LEASE_MS k)
      exec (.leaseExpiry k) s = .next (if s.fget (F.pwrSp_MODE k) ≠ 0 ∧ l ≠ 0 ∧ s.pow.spAt.getD k 0 + l * 1200000 ≤ s.now 8 then s.fset (F.pwrSp_MODE k) 0 else s))
    ∧ exec .dminRelease s = .next (if 8 < dmin ∧ s.pow.cool = true ∧ s.pow.hold = none then s.fset F.pwrGov_DMIN (dmin - 1) else s)
    ∧ (∀ x, s.pow.hold = some x → exec .overcurrentHoldEnd s = .next (if x + 10 * 1200000 ≤ s.now 8 then { s with pow := { s.pow with hold := none } } else s))

/-- R431, R434-R440, R471, R477, R483: the samples of the sensors throttle, hold and trip; every way into the safe state; SAF_REQ takes thresholds in range and burns a step for a raise; open-fibre control takes a laser off and probes it; the Eclipse rail; the board's accesses; the test port. Model's readings it rests on: log entries 65, 126, 127, 129. -/
def Obligations.HaloSafety : Prop :=
  ∀ (s : State),
    let dmin := s.fget F.pwrGov_DMIN
    (∀ e : TempReads, s.haloRuns = true → SensorsGood e →
      (BelowTrips s e → BelowThresholds s e → ∃ t, exec (.haloTempSample e) s = .next t ∧ t.fget F.pwrGov_DMIN = dmin ∧ t.tripped = s.tripped ∧ t.failed = s.failed ∧ t.pow.hold = s.pow.hold ∧ t.cores = s.cores)
      ∧ (BelowTrips s e → (∀ c ∈ e.cur.toList, c < s.fget F.safThr0_OC_THR_PCT) → (∃ x ∈ (e.tj.toList.take 4).map dieReads, 2 * (s.fget F.safThr0_TJ_THR : Int) ≤ x) ∨ (∃ x ∈ e.stk.toList, (s.fget F.safThr0_STK_THR : Int) ≤ x) →
          ∃ t, exec (.haloTempSample e) s = .next t ∧ t.fget F.pwrGov_DMIN = min (dmin + 1) 32 ∧ bitAt (t.reg .safAlert) 0 = true ∧ t.tripped = s.tripped ∧ t.failed = s.failed)
      ∧ (BelowTrips s e → (∃ c ∈ e.cur.toList, s.fget F.safThr0_OC_THR_PCT ≤ c) → ∃ t, exec (.haloTempSample e) s = .next t ∧ t.fget F.pwrGov_DMIN = 32 ∧ t.pow.hold = some (s.now 8) ∧ t.tripped = s.tripped)
      ∧ ((∃ x ∈ (e.tj.toList.take 4).map dieReads, 2 * (s.fget F.safThr0_TJ_TRIP : Int) ≤ x) ∨ (∃ c ∈ e.cur.toList, s.fget F.safThr0_OC_TRIP_PCT ≤ c) → s.thermtrip = false →
          ∃ t, exec (.haloTempSample e) s = .next t ∧ t.failed = true ∧ t.tripped = true ∧ t.thermtrip = true))
    ∧ (s.pins.vddHalo = true → s.thermtrip = false →
      (∀ c ∈ [Instr.lockstepMismatch, .hclkFault, .safetySelfCheck false true, .safetySelfCheck false false, .safetySelfCheck true false], ∃ t, exec c s = .next t ∧ Safe t ∧ t.cores = s.cores ∧ t.mem = s.mem)
      ∧ (s.haloRuns = true → s.clockOn = false ∨ s.pow.kick + 2 * 1200000 ≤ s.now 8 → ∃ t, exec .watchdogExpiry s = .next t ∧ Safe t ∧ t.fbit F.safStat_WDOG = true))
    ∧ (s.clockOn = true → s.now 8 < s.pow.kick + 2 * 1200000 → exec .watchdogExpiry s = .next s)
    ∧ exec (.safetySelfCheck true true) s = .next s ∧ exec .watchdogKick s = .next { s with pow := { s.pow with kick := s.now 8 } }
    ∧ (∀ d, s.haloRuns = true → ∃ t, exec (.clockFault d) s = .next t ∧ t.failed = true ∧ t.shutReq = true ∧ Stored s t 0x9000 0xD7 4 d.val ∧ t.cores = s.cores)
    ∧ (∀ q, Starts s q .safReq F.safReq_GO [] →
      let raise := thrRaises (s.reg .safThr0) (s.reg .safThr1) (s.reg .safProp0) (s.reg .safProp1)
      let ok := thrOk (s.reg .safProp0) (s.reg .safProp1) = true
      (ok → raise = false ∨ s.fuses.haloUsed < 16 → ∃ t, exec (.safReq q) s = .next t ∧ Ended t F.safReq_GO F.safReq_RESULT 1 ∧ t.reg .safThr0 = s.reg .safProp0 ∧ t.reg .safThr1 = s.reg .safProp1
        ∧ t.fuses = { s.fuses with haloUsed := if raise then s.fuses.haloUsed + 1 else s.fuses.haloUsed })
      ∧ (¬ok → ∃ t, exec (.safReq q) s = .next t ∧ Ended t F.safReq_GO F.safReq_RESULT 3 ∧ RegsBut s t [Reg.safReq.off] ∧ t.fuses = s.fuses)
      ∧ (ok → raise = true → 16 ≤ s.fuses.haloUsed → ∃ t, exec (.safReq q) s = .next t ∧ Ended t F.safReq_GO F.safReq_RESULT 4 ∧ RegsBut s t [Reg.safReq.off] ∧ t.fuses = s.fuses))
    ∧ (∀ l : Fin 64, s.haloRuns = true →
      (bitAt (s.reg .safLaser) l = false → ∃ t, exec (.openFibreDetect l) s = .next t ∧ bitAt (t.reg .safLaser) l = true ∧ bitAt t.pow.probing l = true ∧ t.linkState l = 0 ∧ bitAt (t.reg .safAlert) 6 = true)
      ∧ (bitAt s.pow.probing l = true → ∃ t, exec (.ofcProbe l true) s = .next t ∧ bitAt (t.reg .safLaser) l = false ∧ bitAt t.pow.probing l = false ∧ RegsBut s t [Reg.safLaser.off] ∧ { t with regs := s.regs, pow := s.pow } = s)
      ∧ exec (.ofcProbe l false) s = .next s)
    ∧ (∃ t, exec .vddEclLoss s = .next t ∧ t.eclRail = false ∧ t.pins.vddEcl = false ∧ (∀ p, p < 30 → t.fget (F.lnkEcl_STATE p) = if s.fget (F.lnkEcl_STATE p) = 1 then 1 else 2) ∧ t.cores = s.cores)
    ∧ (∀ off : BitVec 28, (s.i3cServes = false → exec (.i3cRead off) s = .next s ∧ ∀ v, exec (.i3cWrite off v) s = .next s)
      ∧ (s.i3cServes = true → off.toNat % 8 = 0 →
        (Reg.ofOff off.toNat = none → (∃ t, exec (.i3cRead off) s = .next t ∧ t.resp.status = stOutOfBounds) ∧ ∀ v, exec (.i3cWrite off v) s = .next (s.answer stOutOfBounds []))
        ∧ (∀ r, Reg.ofOff off.toNat = some r → (i3cReads r = true → ∃ t, exec (.i3cRead off) s = .next t ∧ t.resp = ⟨stOK, leBytes 8 (s.regWord r)⟩ ∧ RegsBut s t [r.off] ∧ { t with regs := s.regs, resp := s.resp } = s)
          ∧ (i3cReads r = false → ∃ t, exec (.i3cRead off) s = .next t ∧ t.resp.status = stDenied ∧ { t with resp := s.resp } = s)
          ∧ (i3cWrites r = false → s.regResetting r = false → ∀ v, exec (.i3cWrite off v) s = .next (s.answer stDenied []))
          ∧ (r = .safAlert → ∀ v : BitVec 64, Reaches s .i3c r v.toNat → ∃ t, exec (.i3cWrite off v) s = .next t ∧ t.resp = ⟨stOK, []⟩ ∧ t.reg .safAlert % 256 = Nat.land (s.reg .safAlert % 256) (255 - v.toNat % 256)
            ∧ RegsBut s t [r.off]))))
    ∧ (∀ a, s.pins.vddHalo = true → s.pins.pkgRst = false → exec (.entdaa a) s = .next { s with pins := { s.pins with i3c := some a.toNat } })
    ∧ (∀ i, exec (.jtagInstructionLoad i) s = .next { s with pins := { s.pins with jtag := if i ∈ [JtagIns.extest, .intest, .clamp] ∧ s.pins.pkgRst = false then .bypass else i } })

/-! ### Trace, sampler, debug -/

/-- R446-R452, R454, R456, R458-R460, R463, R466: a packet that its buffer's bucket takes is written in the main area, and in the crash reserve until it is frozen, else it is counted; a trigger, the end of its window, the freeze, the SYNC packets and the commands of TRC_BCFG and TRC_BCTL; a snapshot of a sampler ring; the clear of the numeric watch; halt, resume, step and register writes of a debugged core. The SRC of a SYNC or software TRIGGER packet is free. Model's readings it rests on: log entries 20, 76, 131, 132. -/
def Obligations.TraceSamplerAndDebug : Prop :=
  ∀ (s : State),
    (∀ (b : Fin 9) (pkt : TailPkt) (e : TailQ), let fifo := Sparse.getD (fun _ => []) s.tailq pkt.src.toNat
      let left := (fifo.map fun x => if x = e then { x with bufs := setBit x.bufs b false } else x).filter (·.bufs ≠ 0)
      let taken := { s with tailq := Sparse.setD (fun _ => []) s.tailq pkt.src.toNat left }
      let base := s.fget (F.trcBbase_BASE b)
      let pos := s.fget (F.trcBstat_WRPOS b)
      let frozen := s.fbit (F.trcBstat_FROZEN b)
      fifo.find? (fun e => bitAt e.bufs b) = some e → e.pkt = pkt →
      (s.fbit (F.trcBcfg_EN b) = false → exec (.tailPacketAdmit b pkt) s = .next taken)
      ∧ (s.fbit (F.trcBcfg_EN b) = true → Sparse.getD (fun _ => (0, 0)) (s.tbuf b).drops pkt.src.toNat = (0, 0) →
        (s.bucket pkt.die.toNat < 96 → ∃ t, exec (.tailPacketAdmit b pkt) s = .next t ∧ t.reg (.trcBloss b) = min (s.reg (.trcBloss b) + 1) (2 ^ 64 - 1)
          ∧ Sparse.getD (fun _ => (0, 0)) (t.tbuf b).drops pkt.src.toNat = (1, pkt.ts.toNat) ∧ RegsBut s t [(Reg.trcBloss b).off] ∧ t.mem = s.mem ∧ t.tailq = taken.tailq)
        ∧ (96 ≤ s.bucket pkt.die.toNat → s.fget (F.trcBstat_STATE b) = 1 → (s.tbuf b).post = none → pos + 16 < s.mainHi b → Clean s (base + pos) 16
          → (frozen = false → Clean s (base + (s.tbuf b).rsv) 16 ∧ (s.tbuf b).rsv + 16 ≤ pos) →
          let fires := [0, 1, 2, 3].any fun i => comparatorFires (s.reg (.trcTrig b i)) pkt
          ((fires = false ∨ s.fget (F.trcBcfg_MODE b) ≠ 2) → ∃ t, exec (.tailPacketAdmit b pkt) s = .next t ∧ t.fget (F.trcBstat_WRPOS b) = pos + 16 ∧ t.fget (F.trcBstat_STATE b) = 1
            ∧ t.getBytes (base + pos) 16 = pktBytes pkt ∧ (frozen = false → t.getBytes (base + (s.tbuf b).rsv) 16 = pktBytes pkt ∧ t.fget (F.trcBtrig_CRASHPOS b) = (s.tbuf b).rsv % 2 ^ 32)
            ∧ (t.tbuf b).freezing = ((s.tbuf b).freezing || (pkt.kind = 0 && pkt.event = 0x70 && s.fget (F.trcBcfg_CRASH_CLASS b) ≤ bitsOf pkt.payload.toNat 26 24 && !frozen))
            ∧ t.tailq = taken.tailq ∧ t.cores = s.cores ∧ BackedBut s t base (s.bufZ b))
          ∧ (fires = true → s.fget (F.trcBcfg_MODE b) = 2 → ∃ t, exec (.tailPacketAdmit b pkt) s = .next t ∧ t.fget (F.trcBstat_STATE b) = 2 ∧ t.fget (F.trcBtrig_TRIGPOS b) = pos + 16
            ∧ (t.tbuf b).post = some (s.fget (F.trcBcfg_POST_MIB b) * 2 ^ 20)))))
    ∧ (∀ b : Fin 9,
      let ends := s.fget (F.trcBstat_STATE b) = 2 ∧ (s.tbuf b).post = some 0
      let sum := s.fget (F.trcBbase_BASE b) + s.mainHi b
      (¬ends → exec (.postWindowEnd b) s = .next s)
      ∧ (ends → Clean s sum (16 * ((s.tbuf b).drops.length + 10)) → ∃ t, exec (.postWindowEnd b) s = .next t ∧ t.fget (F.trcBstat_STATE b) = 3 ∧ (t.tbuf b).drops = [] ∧ (t.tbuf b).post = none
        ∧ (∀ i e, (s.tbuf b).drops[i]? = some e → t.getBytes (sum + 16 * i) 16 = packet 1 e.1 0 (dieOfSrc e.1) none (s.now (dieOfSrc e.1) % 2 ^ 32) (e.2.1 + e.2.2 * 2 ^ 32))
        ∧ (∀ d, d < 10 → ∃ src, t.getBytes (sum + 16 * ((s.tbuf b).drops.length + d)) 16 = packet 3 src 0 d none (s.now d % 2 ^ 32) (s.now d)))
      ∧ ((s.tbuf b).freezing = false → exec (.crashFreeze b) s = .next s)
      ∧ ((s.tbuf b).freezing = true → ∃ t, exec (.crashFreeze b) s = .next t ∧ t.fbit (F.trcBstat_FROZEN b) = true ∧ (t.tbuf b).freezing = false ∧ RegsBut s t [(Reg.trcBstat b).off] ∧ t.mem = s.mem))
    ∧ (∀ d : Fin 10, let takes := fun (b : Nat) => s.fbit (F.trcBcfg_EN b) && s.bufDie b d
      ((∀ b, b < 9 → takes b = false) → exec (.syncPacket d) s = .next s)
      ∧ (∀ b, b < 9 → (∀ j, j < 9 → takes j = decide (j = b)) → s.fget (F.trcBstat_STATE b) = 1 → (s.tbuf b).post = none → s.fbit (F.trcBstat_FROZEN b) = true → s.fget (F.trcBstat_WRPOS b) + 16 < s.mainHi b
          → Clean s (s.fget (F.trcBbase_BASE b) + s.fget (F.trcBstat_WRPOS b)) 16 →
          ∃ t src, exec (.syncPacket d) s = .next t ∧ t.getBytes (s.fget (F.trcBbase_BASE b) + s.fget (F.trcBstat_WRPOS b)) 16 = packet 3 src 0 d none (s.now d % 2 ^ 32) (s.now d)))
    ∧ (∀ (q : Req) (b : Fin 9) (v : BitVec 64),
      let on := with1 [F.trcBcfg_EN b] v.toNat
      let off := with0 [F.trcBcfg_EN b] v.toNat
      let fits := fun (w : Nat) => inWord (F.trcBcfg_MODE b) w ≠ 3 ∧ 26 ≤ inWord (F.trcBcfg_LOG2SZ b) w ∧ inWord (F.trcBcfg_LOG2SZ b) w ≤ 32 ∧ 1 ≤ inWord (F.trcBcfg_CRASH_CLASS b) w ∧ inWord (F.trcBcfg_CRASH_CLASS b) w ≤ 4
      (Reaches s q (.trcBcfg b) on → fits (s.merged q (.trcBcfg b) on) →
        let good := s.fbit (F.trcBcfg_EN b) = false ∧ s.tailOk b ⟨q, .trcBcfg b, s.rawOf q (.trcBcfg b) on, s.merged q (.trcBcfg b) on⟩ = true
        (good → ∃ t, exec (.trcEnable q b v) s = .next t ∧ t.resp = ⟨stOK, []⟩ ∧ t.fbit (F.trcBcfg_EN b) = true ∧ t.fget (F.trcBstat_STATE b) = 1 ∧ t.fbit (F.trcBstat_WRAPPED b) = false
          ∧ t.fbit (F.trcBstat_FROZEN b) = false ∧ (t.tbuf b).drops = [])
        ∧ (¬good → exec (.trcEnable q b v) s = .next (s.answer stDenied [])))
      ∧ (Reaches s q (.trcBcfg b) off → fits (s.merged q (.trcBcfg b) off) →
        ∃ t, exec (.trcStop q b v) s = .next t ∧ t.resp = ⟨stOK, []⟩ ∧ t.fbit (F.trcBcfg_EN b) = false
          ∧ t.fget (F.trcBstat_STATE b) = if s.fbit (F.trcBcfg_EN b) && s.mainOn b then 3 else s.fget (F.trcBstat_STATE b))
      ∧ (Reaches s q (.trcBctl b) (fields [(F.trcBctl_REARM b, 1)]) →
        (s.fbit (F.trcBcfg_EN b) = false → exec (.trcRearm q b) s = .next (s.answer stOK []))
        ∧ (s.fbit (F.trcBcfg_EN b) = true → 26 ≤ s.fget (F.trcBcfg_LOG2SZ b) → ∃ t, exec (.trcRearm q b) s = .next t ∧ t.resp = ⟨stOK, []⟩ ∧ t.fget (F.trcBstat_STATE b) = 1 ∧ (t.tbuf b).drops = [] ∧ (t.tbuf b).post = none))
      ∧ (Reaches s q (.trcBctl b) (fields [(F.trcBctl_TRIGGER b, 1)]) →
        let armed := s.fget (F.trcBcfg_MODE b) = 2 ∧ s.fget (F.trcBstat_STATE b) = 1
        (armed → ∃ t, exec (.trcTrigger q b) s = .next t ∧ t.resp = ⟨stOK, []⟩ ∧ t.fget (F.trcBstat_STATE b) = 2 ∧ t.fget (F.trcBtrig_TRIGPOS b) = s.fget (F.trcBstat_WRPOS b)
          ∧ (t.tbuf b).post = some (s.fget (F.trcBcfg_POST_MIB b) * 2 ^ 20))
        ∧ (¬armed → ∃ t, exec (.trcTrigger q b) s = .next t ∧ t.resp = ⟨stOK, []⟩ ∧ { t with free := s.free, resp := s.resp } = s)))
    ∧ (∀ (q : Req) (r : Fin 9) (v : BitVec 64), let w := with1 [F.cntScfg_EN r] v.toNat
      let m := s.merged q (.cntScfg r) w
      let n := inWord (F.cntScfg_NCNT r) m
      Reaches s q (.cntScfg r) w →
      let sized := 4 ≤ inWord (F.cntScfg_LOG2N r) m ∧ inWord (F.cntScfg_LOG2N r) m ≤ 16 ∧ 1 ≤ n ∧ n ≤ 1024 ∧ (if r = 0 then 1024 else 1200000) ≤ inWord (F.cntScfg_INTERVAL r) m
      (∀ l, sized → s.fbit (F.cntScfg_EN r) = false → s.sampleList r (s.fget (F.cntSlist_LIST r)) n = some l → s.sampleOk r l = true
          → s.samplePlace r (s.fget (F.cntSbase_BASE r)) (slotBytes n * 2 ^ inWord (F.cntScfg_LOG2N r) m) = true →
          ∃ t, exec (.samplerEnable q r v) s = .next t ∧ t.resp = ⟨stOK, []⟩ ∧ t.fbit (F.cntScfg_EN r) = true ∧ Sparse.getD (fun _ => Samp.init) t.samps r = ⟨l, 0, 0⟩ ∧ RegsBut s t [(Reg.cntScfg r).off])
      ∧ (¬sized ∨ s.fbit (F.cntScfg_EN r) = true ∨ s.sampleList r (s.fget (F.cntSlist_LIST r)) n = none → exec (.samplerEnable q r v) s = .next (s.answer stDenied [])))
    ∧ (∀ r : Fin 9, let k := Sparse.getD (fun _ => Samp.init) s.samps r
      let size := 2 ^ s.fget (F.cntScfg_LOG2N r)
      let wr := s.fget (F.cntSstat_WRITTEN r)
      let full := (wr + 2 ^ 32 - s.fget (F.cntShead_HEAD r)) % 2 ^ 32 = size
      (s.fbit (F.cntScfg_EN r) = false → exec (.samplerSnapshot r) s = .next s)
      ∧ (s.fbit (F.cntScfg_EN r) = true → full → ∃ t, exec (.samplerSnapshot r) s = .next t ∧ t.fget (F.cntSstat_LOST r) = min (s.fget (F.cntSstat_LOST r) + 1) (2 ^ 32 - 1)
        ∧ Sparse.getD (fun _ => Samp.init) t.samps r = { k with num := k.num + 1, gap := k.gap + 1 } ∧ RegsBut s t [(Reg.cntSstat r).off] ∧ { t with regs := s.regs, samps := s.samps } = s)
      ∧ (s.fbit (F.cntScfg_EN r) = true → ¬full → ∃ t, exec (.samplerSnapshot r) s = .next t ∧ t.fget (F.cntSstat_WRITTEN r) = (wr + 1) % 2 ^ 32 ∧ t.fget (F.cntSstat_LOST r) = s.fget (F.cntSstat_LOST r)
        ∧ Sparse.getD (fun _ => Samp.init) t.samps r = { k with num := k.num + 1, gap := 0 } ∧ RegsBut s t [(Reg.cntSstat r).off]
        ∧ (let slot := s.fget (F.cntSbase_BASE r) + wr % size * slotBytes k.list.length
           r = 0 → Clean s slot (32 + 8 * k.list.length) → t.getBytes slot (32 + 8 * k.list.length) = snapRecord k.num (s.now 8) ((if k.gap = 0 then 0 else 1) + (if s.fget F.pwrStat_PARK = 2 then 4 else 0))
            (k.list.map fun o => match Reg.ofOff o with | some g => s.regWord g | none => 0))))
    ∧ (∀ (q : Req) (v : BitVec 64), let w := with1 [F.cntNwclr_GO] v.toNat
      let m := s.merged q .cntNwclr w
      let p := match q with | .vf p => p.val | _ => inWord F.cntNwclr_PART m
      let (lo, hi) := if inWord F.cntNwclr_ALL m = 1 then (0, 4096) else (inWord F.cntNwclr_TENSOR m, inWord F.cntNwclr_TENSOR m + 1)
      Reaches s q .cntNwclr w → s.fbit F.cntNwclr_GO = false → ∃ t, exec (.numericWatchClear q v) s = .next t ∧ Ended t F.cntNwclr_GO F.cntNwclr_RESULT 1
        ∧ (∀ x i, lo ≤ x → x < hi → i < 8 → t.reg (.cntNw p x i) = 0)
        ∧ (∀ o, o ≠ Reg.cntNwclr.off → o < (Reg.cntNw p lo 0).off ∨ (Reg.cntNw p hi 0).off ≤ o → word t o = word s o) ∧ { t with regs := s.regs, resp := s.resp } = s)
    ∧ (∀ (q : Req) (n : Fin 384), let touched := fun (t : State) => ∀ p, s.partOfCore n = some p → s.partState p = 2 → t.fbit (F.prtStat_DEBUG_TOUCHED p) = true
      (Reaches s q (.coreDbg n) (dbgWord s n [(F.coreDbg_HALT n, 1)]) → ∃ t, exec (.debugHalt q n) s = .next t ∧ t.resp = ⟨stOK, []⟩ ∧ t.halted n = true ∧ CoresBut s t n ∧ (t.core n).inst = (s.core n).inst
        ∧ (t.core n).pc = (s.core n).pc ∧ (t.core n).r = (s.core n).r ∧ (s.halted n = false → t.fget (F.coreDbg_CAUSE n) = 1 ∧ touched t))
      ∧ (Reaches s q (.coreDbg n) (dbgWord s n []) → ∃ t, exec (.debugResume q n) s = .next t ∧ t.resp = ⟨stOK, []⟩ ∧ t.halted n = false ∧ RegsBut s t [(Reg.coreDbg n).off] ∧ CoresBut s t n
        ∧ (s.halted n = true → t.fget (F.coreDbg_CAUSE n) = 0 ∧ t.core n = { s.core n with step := false }))
      ∧ (Reaches s q (.coreDbg n) (dbgWord s n [(F.coreDbg_HALT n, 1), (F.coreDbg_STEP n, 1)]) →
        (s.halted n = true → ∃ t, exec (.debugStep q n) s = .next t ∧ t.resp = ⟨stOK, []⟩ ∧ t.halted n = true ∧ t.core n = { s.core n with step := true } ∧ CoresBut s t n ∧ touched t)
        ∧ (s.halted n = false → exec (.debugStep q n) s = .next (s.answer stDenied [])))
      ∧ (∀ (i : Fin 145) (v : BitVec 64), Reaches s q (.coreDreg n i) v.toNat →
        (s.halted n = true → ∃ t, exec (.coreDregWrite q n i v) s = .next t ∧ t.resp = ⟨stOK, []⟩ ∧ t.core n = (s.core n).setDreg i v.toNat ∧ (t.core n).dreg i = (if i = 0 then 0 else if i = 144 then v.toNat % 8192 else v.toNat)
          ∧ CoresBut s t n ∧ touched t)
        ∧ (s.halted n = false → exec (.coreDregWrite q n i v) s = .next (s.answer stDenied []))))

/-! ### The register space -/

/-- R13-R15, R169, R333, R369, R384, R440, R490, R491: a register write, a read and a partition's read of a counter complete: a write of 8 aligned bytes goes to the register of its offset by the access codes of its fields, a read gives the word and clears its RC fields, a partition reads its counters from a snapshot that holds for 1 ms, without their low 8 bits; an unassigned offset takes nothing; other lengths are DENIED but for MGT_FWWIN's 64 bytes; a refused capability is counted, and so is every refused write of a register of Halo's; a block in reset answers TARGET_RESET; an access to the PRT_ block waits for an outstanding region write of its requester; offsets name one register each. Model's readings it rests on: log entries 105, 106. -/
def Obligations.RegisterAccessRules : Prop :=
  (∀ (q : Req) (off : BitVec 28) (data : Bytes) (r : Reg) (s : State), off.toNat = r.off → data.length = 8 → Reaches s q r (leVal data) → takesFields r = true →
    ∃ t, exec (.registerWrite q off data) s = .next t ∧ t.resp = ⟨stOK, []⟩ ∧ t.reg r = s.merged q r (leVal data) ∧ RegsBut s t [r.off] ∧ { t with regs := s.regs, resp := s.resp } = s)
  ∧ (∀ (q : Req) (off : BitVec 28) (r : Reg) (s : State), badCap q = false → s.prtWaits q off.toNat = false → off.toNat % 8 = 0 → Reg.ofOff off.toNat = some r → (∀ p, q ≠ .vf p) →
    s.regUp q r = true → s.mayRead q r = true → (∀ w, r ≠ .trcRdwin w) → ∃ t, exec (.rcRead q off 8) s = .next t ∧ t.resp = ⟨stOK, leBytes 8 (s.regWord r)⟩ ∧ RegsBut s t [r.off]
      ∧ { t with regs := s.regs, resp := s.resp, mchs := s.mchs } = s
      ∧ ((∀ m, r ≠ .memMchPin m) → t.mchs = s.mchs ∧ ∀ f ∈ r.layout, bitsOf (t.reg r) f.hi f.lo = if readClears q = true ∧ f.op = .rc then 0 else bitsOf (s.reg r) f.hi f.lo)
      ∧ ∀ m, r = .memMchPin m → readClears q = true → t.fget (F.memMchPin_COUNT m) = 0 ∧ t.fget (F.memMchPin_PIN m) = 0)
  ∧ (∀ (p : Fin 8) (off : BitVec 28) (r : Reg) (s : State), s.prtWaits (.vf p) off.toNat = false → Reg.ofOff off.toNat = some r → off.toNat % 8 = 0 → s.regUp (.vf p) r = true → s.partSees p r = true →
    (counterFields r = [] → exec (.partitionCounterRead p off) s = .next (s.answer stOK (leBytes 8 (s.regWord r))))
    ∧ (counterFields r ≠ [] →
      (∀ o x, Sparse.find s.coarse (p.val * 2 ^ 28 + r.off) = some (o, x) → s.now 8 < x + 1200000 → ∃ t v, exec (.partitionCounterRead p off) s = .next t ∧ t.resp = ⟨stOK, leBytes 8 v⟩ ∧ { t with resp := s.resp } = s
          ∧ ∀ f ∈ counterFields r, bitsOf v f.1 f.2 = bitsOf o f.1 f.2)
      ∧ ((∀ o x, Sparse.find s.coarse (p.val * 2 ^ 28 + r.off) = some (o, x) → x + 1200000 ≤ s.now 8) → ∃ t, exec (.partitionCounterRead p off) s = .next t ∧ t.resp = ⟨stOK, leBytes 8 (coarsen r (s.regWord r))⟩
          ∧ Sparse.find t.coarse (p.val * 2 ^ 28 + r.off) = some (coarsen r (s.regWord r), s.now 8) ∧ (∀ f ∈ counterFields r, bitsOf (coarsen r (s.regWord r)) (f.2 + 7) f.2 = 0) ∧ { t with coarse := s.coarse, resp := s.resp } = s)))
  ∧ (∀ (o : Nat) (r : Reg), Reg.ofOff o = some r → r.off = o)
  ∧ ∀ (q : Req) (off : BitVec 28) (s : State),
    (badCap q = true → ∀ data len, exec (.registerWrite q off data) s = .next s.badMessage ∧ exec (.rcRead q off len) s = .next s.badMessage)
    ∧ (badCap q = false → s.prtWaits q off.toNat = true →
      (∀ data : Bytes, data.length = 8 → exec (.registerWrite q off data) s = .next { s with prtq := s.prtq ++ [⟨q, off.toNat, .write (leBytes 8 (leVal data))⟩] })
      ∧ ∀ len, exec (.rcRead q off len) s = .next { s with prtq := s.prtq ++ [⟨q, off.toNat, .read len⟩] })
    ∧ (badCap q = false → s.prtWaits q off.toNat = false →
      (∀ data : Bytes, data.length ≠ 8 → data.length ≠ 64 ∨ off.toNat % 64 ≠ 0 ∨ inFwwin off.toNat = false → exec (.registerWrite q off data) s = .next (s.answer stDenied []))
      ∧ (∀ data : Bytes, data.length = 8 → off.toNat % 8 ≠ 0 → exec (.registerWrite q off data) s = .next (s.answer stDenied []))
      ∧ (∀ len, len ≠ 8 → len < 16 ∨ 64 < len ∨ len % 8 ≠ 0 ∨ off.toNat % len ≠ 0 → exec (.rcRead q off len) s = .next (s.answer stDenied []))
      ∧ (off.toNat % 8 = 0 → Reg.ofOff off.toNat = none →
        let st := if q = .i3c then stOutOfBounds else stOK
        (∀ data : Bytes, data.length = 8 → exec (.registerWrite q off data) s = .next (s.answer st [])) ∧ exec (.rcRead q off 8) s = .next (s.answer st (leBytes 8 0)))
      ∧ (∀ r, off.toNat % 8 = 0 → Reg.ofOff off.toNat = some r →
        (s.regUp q r = false → (∀ data : Bytes, data.length = 8 → exec (.registerWrite q off data) s = .next (s.answer stTargetReset [])) ∧ ∃ t, exec (.rcRead q off 8) s = .next t ∧ t.resp.status = stTargetReset ∧ { t with resp := s.resp } = s)
        ∧ (∀ data : Bytes, data.length = 8 → s.regUp q r = true → s.regResetting r = false → isRwh r = true → s.isHalo q = false → ∃ t, exec (.registerWrite q off data) s = .next t ∧ t.resp = ⟨stDenied, []⟩
            ∧ t.fget F.safStat_DENIED = min (s.fget F.safStat_DENIED + 1) 65535 ∧ (∀ o, o ∉ Reg.safStat.off :: Reg.mgtCapstat.off :: reportOffs → word t o = word s o)
            ∧ (s.capMay q r.off r = true → RegsBut s t [Reg.safStat.off] ∧ { t with regs := s.regs, resp := s.resp } = s))
        ∧ (∀ c, q = .cap c → s.regUp q r = true → s.regResetting r = false → s.capMay q r.off r = false → (isRwh r = true → s.isHalo q = true) → ∀ data : Bytes, data.length = 8 → ∃ t, exec (.registerWrite q off data) s = .next t ∧ t.resp = ⟨stDenied, []⟩
            ∧ t.fget F.mgtCapstat_VIOL = min (s.fget F.mgtCapstat_VIOL + 1) (2 ^ 32 - 1) ∧ ∀ o, o ∉ F.mgtCapstat_VIOL.reg.off :: reportOffs → word t o = word s o)
        ∧ (∀ data : Bytes, data.length = 8 → s.regUp q r = true → s.regResetting r = false → (∀ p, q = .vf p → s.partSees p r = true) → s.capMay q r.off r = true → (isRwh r = true → s.isHalo q = true) →
            (s.setLocked r = true → exec (.registerWrite q off data) s = .next (s.answer stDenied []))
            ∧ (s.setLocked r = false → (r.layout.any fun f => (s.accOf q r f).writes) = false → exec (.registerWrite q off data) s = .next (s.answer stOK []))
            ∧ (∀ k, r = .strCqhead k → (s.str k).cqWait = [] → exec (.registerWrite q off data) s = .next ((s.setReg r (s.merged q r (leVal data))).answer stOK [])))
        ∧ (∀ p, q = .vf p → s.regUp q r = true → s.partSees p r = false → (∀ data : Bytes, data.length = 8 → s.regResetting r = false → isRwh r = false → exec (.registerWrite q off data) s = .next (s.answer stDenied []))
            ∧ ∃ t, exec (.partitionCounterRead p off) s = .next t ∧ t.resp.status = stDenied ∧ { t with resp := s.resp } = s)))

/-! ### The whole device -/

/-- R206, R482: the state that reset leaves: every assigned register's field at its Reset column value, nothing in memory, no command waiting, bring-up before S0, no core running, no link up, no session; with an empty queue a step moves only the timestamps. The model's own choices here: a column that gives no number stands at 0 (log entry 3), and a step on an empty queue is a tick of the timestamps (log entry 1). -/
def Obligations.ResetState : Prop :=
  (∀ (r : Reg), r.inRange = true → (∀ x, r ≠ .nocXstat x) → (∀ l, r ≠ .lnkMap l) → (∀ c, r ≠ .colChcfg c) → (∀ d k j, r ≠ .arbCls d k j) → ∀ f ∈ r.layout, bitsOf (State.reset.reg r) f.hi f.lo = f.rst)
  ∧ (∀ x, x < 12 → State.reset.fget (F.nocXstat_MODULES x) = if x < 4 then 40 else if x < 8 then 24 else 12) ∧ (∀ l, l < 64 → State.reset.fget (F.lnkMap_PHYS l) = l)
  ∧ State.reset.mem = [] ∧ State.reset.pending = [] ∧ (∀ n, (State.reset.core n).inst = none) ∧ StageEnd State.reset 0 0 0 ∧ (∀ l, l < 64 → State.reset.linkState l = 0) ∧ State.reset.sessions = []
  ∧ (∀ k, State.reset.str k = StreamS.init) ∧ State.reset.failed = false ∧ State.reset.fget F.safStat_STATE = 0 ∧ State.reset.fget F.secStat_MSTATE = 0
  ∧ (∀ s : State, s.pending = [] → ∃ t, Machine.step s = .next t ∧ { t with time := s.time } = s)

/-- The canonical form of memory holds after reset. Model's readings it rests on: log entry 6. -/
def Obligations.ResetMemoryCanonical : Prop := MemCanonical State.reset

/-- Every step keeps the memory of the device in its canonical form. Model's readings it rests on: log entries 5, 6. -/
def Obligations.EveryStepKeepsMemoryCanonical : Prop :=
  ∀ s t : State, MemCanonical s → Machine.step s = .next t → MemCanonical t

/-- R382, R397: no step makes a write-limited counter of the fuses smaller, and none changes an OWNER that is fused (R379). -/
def Obligations.WriteLimitedCountersNeverDecrease : Prop :=
  ∀ s t : State, Machine.step s = .next t → FusesGrow s t
end

