-- ==== Sys2Proof/Laws/Sparse.lean ====
section
/-! SUPPORT. The laws of the canonical maps: a read after a write, what a write leaves alone, and that every operation keeps the canonical form. -/

namespace Sys2Proof.Machine

variable {β : Type}

theorem Sparse.find_erase_self (m : Sparse β) (k : Nat) : (m.erase k).find k = none := by
  induction m with
  | nil => rfl
  | cons e m ih =>
    obtain ⟨a, b⟩ := e
    by_cases h : a = k <;> simp [Sparse.erase, Sparse.find, h, ih]

theorem Sparse.find_erase_ne (m : Sparse β) {k j : Nat} (h : j ≠ k) : (m.erase k).find j = m.find j := by
  induction m with
  | nil => rfl
  | cons e m ih =>
    obtain ⟨a, b⟩ := e
    by_cases ha : a = k
    · simp [Sparse.erase, Sparse.find, ha, ih, Ne.symm h]
    · by_cases hj : a = j <;> simp [Sparse.erase, Sparse.find, ha, hj, ih]
      subst hj; simp [ha, Sparse.find]

theorem Sparse.find_insert_self (m : Sparse β) (k : Nat) (v : β) : (m.insert k v).find k = some v := by
  induction m with
  | nil => simp [Sparse.insert, Sparse.find]
  | cons e m ih =>
    obtain ⟨a, b⟩ := e
    simp only [Sparse.insert]
    split
    · rename_i h
      have : a ≠ k := by omega
      simp [Sparse.find, this, ih]
    · split <;> simp [Sparse.find]

theorem Sparse.find_insert_ne (m : Sparse β) {k j : Nat} (v : β) (h : j ≠ k) : (m.insert k v).find j = m.find j := by
  induction m with
  | nil => simp [Sparse.insert, Sparse.find, Ne.symm h]
  | cons e m ih =>
    obtain ⟨a, b⟩ := e
    simp only [Sparse.insert]
    split
    · simp [Sparse.find, ih]
    · split
      · rename_i ha; subst ha; simp [Sparse.find, Ne.symm h]
      · simp [Sparse.find, Ne.symm h]

/-- A read of the key written gives the value written. -/
@[simp] theorem Sparse.getD_setD_self [DecidableEq β] (d : Nat → β) (m : Sparse β) (k : Nat) (v : β) :
    Sparse.getD d (Sparse.setD d m k v) k = v := by
  simp only [Sparse.setD, Sparse.getD]
  split
  · rename_i h; simp [Sparse.find_erase_self, h]
  · simp [Sparse.find_insert_self]

/-- A write leaves every other key alone. -/
theorem Sparse.getD_setD_ne [DecidableEq β] (d : Nat → β) (m : Sparse β) {k j : Nat} (v : β) (h : j ≠ k) :
    Sparse.getD d (Sparse.setD d m k v) j = Sparse.getD d m j := by
  simp only [Sparse.setD, Sparse.getD]
  split
  · simp [Sparse.find_erase_ne m h]
  · simp [Sparse.find_insert_ne m v h]

theorem Sparse.getD_setD [DecidableEq β] (d : Nat → β) (m : Sparse β) (k j : Nat) (v : β) :
    Sparse.getD d (Sparse.setD d m k v) j = if j = k then v else Sparse.getD d m j := by
  split
  · rename_i h; subst h; simp
  · rename_i h; exact Sparse.getD_setD_ne d m v h

/-- An erased key reads as its default. -/
@[simp] theorem Sparse.getD_erase_self (d : Nat → β) (m : Sparse β) (k : Nat) : Sparse.getD d (m.erase k) k = d k := by
  simp [Sparse.getD, Sparse.find_erase_self]

theorem Sparse.getD_erase_ne (d : Nat → β) (m : Sparse β) {k j : Nat} (h : j ≠ k) :
    Sparse.getD d (m.erase k) j = Sparse.getD d m j := by
  simp [Sparse.getD, Sparse.find_erase_ne m h]

theorem Sparse.find_filter_key (m : Sparse β) (p : Nat → Bool) (k : Nat) :
    Sparse.find (m.filter fun e => p e.1) k = if p k then m.find k else none := by
  induction m with
  | nil => simp [Sparse.find]
  | cons e m ih =>
    obtain ⟨a, b⟩ := e
    by_cases hp : p a = true
    · by_cases h : a = k
      · subst h; simp [hp, Sparse.find]
      · simp [hp, Sparse.find, h, ih]
    · by_cases h : a = k
      · subst h; simp [hp, ih]
      · simp [hp, Sparse.find, h, ih]

/-- What a cleared range leaves: the default inside, the map outside. -/
theorem Sparse.getD_clearRange (d : Nat → β) (m : Sparse β) (lo hi k : Nat) :
    Sparse.getD d (m.clearRange lo hi) k = if lo ≤ k ∧ k < hi then d k else Sparse.getD d m k := by
  have e : Sparse.find (m.clearRange lo hi) k = if (decide (k < lo) || decide (hi ≤ k)) then m.find k else none :=
    Sparse.find_filter_key m (fun x => decide (x < lo) || decide (hi ≤ x)) k
  unfold Sparse.getD
  rw [e]
  by_cases h : lo ≤ k ∧ k < hi
  · have h1 : ¬ k < lo := by omega
    have h2 : ¬ hi ≤ k := by omega
    simp [h, h1, h2]
  · have : k < lo ∨ hi ≤ k := by omega
    rcases this with h1 | h1 <;> simp [h, h1]

/-! ### The canonical form -/

/-- A bound that a key lies above. -/
def Sparse.above (lo : Option Nat) (a : Nat) : Prop := ∀ l, lo = some l → l < a

theorem Sparse.wfFrom_cons [DecidableEq β] (d : Nat → β) (lo : Option Nat) (a : Nat) (b : β) (m : Sparse β) :
    Sparse.wfFrom d lo ((a, b) :: m) = true ↔ Sparse.above lo a ∧ b ≠ d a ∧ Sparse.wfFrom d (some a) m = true := by
  cases lo <;> simp [Sparse.wfFrom, Sparse.above, and_assoc]

theorem Sparse.wfFrom_weaken [DecidableEq β] (d : Nat → β) {lo lo' : Option Nat} (m : Sparse β)
    (h : Sparse.wfFrom d lo m = true) (hl : ∀ a, Sparse.above lo a → Sparse.above lo' a) : Sparse.wfFrom d lo' m = true := by
  cases m with
  | nil => rfl
  | cons e m =>
    obtain ⟨a, b⟩ := e
    rw [Sparse.wfFrom_cons] at h ⊢
    exact ⟨hl _ h.1, h.2⟩

theorem Sparse.wfFrom_erase [DecidableEq β] (d : Nat → β) (k : Nat) (m : Sparse β) (lo : Option Nat)
    (h : Sparse.wfFrom d lo m = true) : Sparse.wfFrom d lo (m.erase k) = true := by
  induction m generalizing lo with
  | nil => rfl
  | cons e m ih =>
    obtain ⟨a, b⟩ := e
    rw [Sparse.wfFrom_cons] at h
    simp only [Sparse.erase]
    split
    · exact Sparse.wfFrom_weaken d _ (ih _ h.2.2) fun x hx l hl => Nat.lt_trans (h.1 l hl) (hx a rfl)
    · rw [Sparse.wfFrom_cons]; exact ⟨h.1, h.2.1, ih _ h.2.2⟩

theorem Sparse.wfFrom_insert [DecidableEq β] (d : Nat → β) (k : Nat) (v : β) (hv : v ≠ d k) (m : Sparse β) (lo : Option Nat)
    (hk : Sparse.above lo k) (h : Sparse.wfFrom d lo m = true) : Sparse.wfFrom d lo (m.insert k v) = true := by
  induction m generalizing lo with
  | nil => rw [Sparse.insert, Sparse.wfFrom_cons]; exact ⟨hk, hv, rfl⟩
  | cons e m ih =>
    obtain ⟨a, b⟩ := e
    rw [Sparse.wfFrom_cons] at h
    simp only [Sparse.insert]
    split
    · rename_i hak
      rw [Sparse.wfFrom_cons]
      exact ⟨h.1, h.2.1, ih _ (fun l hl => by cases hl; exact hak) h.2.2⟩
    · split
      · rename_i hne; subst hne
        rw [Sparse.wfFrom_cons]; exact ⟨hk, hv, h.2.2⟩
      · rw [Sparse.wfFrom_cons, Sparse.wfFrom_cons]
        exact ⟨hk, hv, fun l hl => by cases hl; omega, h.2⟩

/-- Writing keeps the canonical form. -/
theorem Sparse.wf_setD [DecidableEq β] (d : Nat → β) (m : Sparse β) (k : Nat) (v : β) (h : Sparse.wf d m = true) :
    Sparse.wf d (Sparse.setD d m k v) = true := by
  unfold Sparse.setD
  split
  · exact Sparse.wfFrom_erase d k m none h
  · rename_i hv; exact Sparse.wfFrom_insert d k v hv m none (fun _ hl => by cases hl) h

/-- Erasing keeps the canonical form. -/
theorem Sparse.wf_erase [DecidableEq β] (d : Nat → β) (m : Sparse β) (k : Nat) (h : Sparse.wf d m = true) :
    Sparse.wf d (m.erase k) = true := Sparse.wfFrom_erase d k m none h

theorem Sparse.wfFrom_filter [DecidableEq β] (d : Nat → β) (p : Nat × β → Bool) (m : Sparse β) (lo : Option Nat)
    (h : Sparse.wfFrom d lo m = true) : Sparse.wfFrom d lo (m.filter p : Sparse β) = true := by
  induction m generalizing lo with
  | nil => rfl
  | cons e m ih =>
    obtain ⟨a, b⟩ := e
    rw [Sparse.wfFrom_cons] at h
    by_cases hp : p (a, b) = true
    · rw [List.filter_cons_of_pos hp, Sparse.wfFrom_cons]; exact ⟨h.1, h.2.1, ih _ h.2.2⟩
    · rw [List.filter_cons_of_neg hp]
      exact Sparse.wfFrom_weaken d _ (ih _ h.2.2) fun x hx l hl => Nat.lt_trans (h.1 l hl) (hx a rfl)

/-- Filtering keeps the canonical form. -/
theorem Sparse.wf_filter [DecidableEq β] (d : Nat → β) (p : Nat × β → Bool) (m : Sparse β) (h : Sparse.wf d m = true) :
    Sparse.wf d (m.filter p : Sparse β) = true := Sparse.wfFrom_filter d p m none h

/-- Clearing a range keeps the canonical form. -/
theorem Sparse.wf_clearRange [DecidableEq β] (d : Nat → β) (m : Sparse β) (lo hi : Nat) (h : Sparse.wf d m = true) :
    Sparse.wf d (m.clearRange lo hi) = true := Sparse.wf_filter d _ m h

@[simp] theorem Sparse.wf_nil [DecidableEq β] (d : Nat → β) : Sparse.wf d ([] : Sparse β) = true := rfl

end Sys2Proof.Machine
end

