-- ==== Sys2Proof/Laws/State.lean ====
section
/-! SUPPORT. What each update of State leaves: one lemma per field and update, true by unfolding, and the laws of registers, fields, cores and bytes. -/

namespace Sys2Proof.Machine

/-! ### Fields an update leaves alone -/

@[simp] theorem State.setReg_pending (s : State) (r : Reg) (v : Nat) : (s.setReg r v).pending = s.pending := rfl
@[simp] theorem State.setReg_mem (s : State) (r : Reg) (v : Nat) : (s.setReg r v).mem = s.mem := rfl
@[simp] theorem State.setReg_poison (s : State) (r : Reg) (v : Nat) : (s.setReg r v).poison = s.poison := rfl
@[simp] theorem State.setReg_spw (s : State) (r : Reg) (v : Nat) : (s.setReg r v).spw = s.spw := rfl
@[simp] theorem State.setReg_llc (s : State) (r : Reg) (v : Nat) : (s.setReg r v).llc = s.llc := rfl
@[simp] theorem State.setReg_plru (s : State) (r : Reg) (v : Nat) : (s.setReg r v).plru = s.plru := rfl
@[simp] theorem State.setReg_snoop (s : State) (r : Reg) (v : Nat) : (s.setReg r v).snoop = s.snoop := rfl
@[simp] theorem State.setReg_hlc (s : State) (r : Reg) (v : Nat) : (s.setReg r v).hlc = s.hlc := rfl
@[simp] theorem State.setReg_mchs (s : State) (r : Reg) (v : Nat) : (s.setReg r v).mchs = s.mchs := rfl
@[simp] theorem State.setReg_mslots (s : State) (r : Reg) (v : Nat) : (s.setReg r v).mslots = s.mslots := rfl
@[simp] theorem State.setReg_cores (s : State) (r : Reg) (v : Nat) : (s.setReg r v).cores = s.cores := rfl
@[simp] theorem State.setReg_evrem (s : State) (r : Reg) (v : Nat) : (s.setReg r v).evrem = s.evrem := rfl
@[simp] theorem State.setReg_bars (s : State) (r : Reg) (v : Nat) : (s.setReg r v).bars = s.bars := rfl
@[simp] theorem State.setReg_arbs (s : State) (r : Reg) (v : Nat) : (s.setReg r v).arbs = s.arbs := rfl
@[simp] theorem State.setReg_xq (s : State) (r : Reg) (v : Nat) : (s.setReg r v).xq = s.xq := rfl
@[simp] theorem State.setReg_strTurn (s : State) (r : Reg) (v : Nat) : (s.setReg r v).strTurn = s.strTurn := rfl
@[simp] theorem State.setReg_strs (s : State) (r : Reg) (v : Nat) : (s.setReg r v).strs = s.strs := rfl
@[simp] theorem State.setReg_err (s : State) (r : Reg) (v : Nat) : (s.setReg r v).err = s.err := rfl
@[simp] theorem State.setReg_tailq (s : State) (r : Reg) (v : Nat) : (s.setReg r v).tailq = s.tailq := rfl
@[simp] theorem State.setReg_tbufs (s : State) (r : Reg) (v : Nat) : (s.setReg r v).tbufs = s.tbufs := rfl
@[simp] theorem State.setReg_tokens (s : State) (r : Reg) (v : Nat) : (s.setReg r v).tokens = s.tokens := rfl
@[simp] theorem State.setReg_resp (s : State) (r : Reg) (v : Nat) : (s.setReg r v).resp = s.resp := rfl
@[simp] theorem State.setReg_outbox (s : State) (r : Reg) (v : Nat) : (s.setReg r v).outbox = s.outbox := rfl
@[simp] theorem State.setReg_time (s : State) (r : Reg) (v : Nat) : (s.setReg r v).time = s.time := rfl
@[simp] theorem State.setReg_free (s : State) (r : Reg) (v : Nat) : (s.setReg r v).free = s.free := rfl
@[simp] theorem State.setReg_failed (s : State) (r : Reg) (v : Nat) : (s.setReg r v).failed = s.failed := rfl
@[simp] theorem State.setReg_tripped (s : State) (r : Reg) (v : Nat) : (s.setReg r v).tripped = s.tripped := rfl
@[simp] theorem State.setReg_arbCls (s : State) (r : Reg) (v : Nat) : (s.setReg r v).arbCls = s.arbCls := rfl
@[simp] theorem State.setReg_rtq (s : State) (r : Reg) (v : Nat) : (s.setReg r v).rtq = s.rtq := rfl
@[simp] theorem State.setReg_rtRun (s : State) (r : Reg) (v : Nat) : (s.setReg r v).rtRun = s.rtRun := rfl
@[simp] theorem State.setReg_bisnp (s : State) (r : Reg) (v : Nat) : (s.setReg r v).bisnp = s.bisnp := rfl
@[simp] theorem State.setReg_snpq (s : State) (r : Reg) (v : Nat) : (s.setReg r v).snpq = s.snpq := rfl
@[simp] theorem State.setReg_rgnLim (s : State) (r : Reg) (v : Nat) : (s.setReg r v).rgnLim = s.rgnLim := rfl
@[simp] theorem State.setReg_rgnq (s : State) (r : Reg) (v : Nat) : (s.setReg r v).rgnq = s.rgnq := rfl
@[simp] theorem State.setReg_prtq (s : State) (r : Reg) (v : Nat) : (s.setReg r v).prtq = s.prtq := rfl
@[simp] theorem State.setReg_cxl (s : State) (r : Reg) (v : Nat) : (s.setReg r v).cxl = s.cxl := rfl
@[simp] theorem State.setReg_llcOp (s : State) (r : Reg) (v : Nat) : (s.setReg r v).llcOp = s.llcOp := rfl
@[simp] theorem State.setReg_resetting (s : State) (r : Reg) (v : Nat) : (s.setReg r v).resetting = s.resetting := rfl
@[simp] theorem State.setReg_flash (s : State) (r : Reg) (v : Nat) : (s.setReg r v).flash = s.flash := rfl
@[simp] theorem State.setReg_eclRail (s : State) (r : Reg) (v : Nat) : (s.setReg r v).eclRail = s.eclRail := rfl
@[simp] theorem State.setReg_thermtrip (s : State) (r : Reg) (v : Nat) : (s.setReg r v).thermtrip = s.thermtrip := rfl
@[simp] theorem State.setReg_shutReq (s : State) (r : Reg) (v : Nat) : (s.setReg r v).shutReq = s.shutReq := rfl
@[simp] theorem State.setReg_gated (s : State) (r : Reg) (v : Nat) : (s.setReg r v).gated = s.gated := rfl
@[simp] theorem State.setReg_clockOn (s : State) (r : Reg) (v : Nat) : (s.setReg r v).clockOn = s.clockOn := rfl
@[simp] theorem State.setReg_hbAt (s : State) (r : Reg) (v : Nat) : (s.setReg r v).hbAt = s.hbAt := rfl
@[simp] theorem State.setReg_clog (s : State) (r : Reg) (v : Nat) : (s.setReg r v).clog = s.clog := rfl
@[simp] theorem State.setReg_clogOvf (s : State) (r : Reg) (v : Nat) : (s.setReg r v).clogOvf = s.clogOvf := rfl
@[simp] theorem State.setReg_qps (s : State) (r : Reg) (v : Nat) : (s.setReg r v).qps = s.qps := rfl
@[simp] theorem State.setReg_allow (s : State) (r : Reg) (v : Nat) : (s.setReg r v).allow = s.allow := rfl
@[simp] theorem State.setReg_links (s : State) (r : Reg) (v : Nat) : (s.setReg r v).links = s.links := rfl
@[simp] theorem State.setReg_rte (s : State) (r : Reg) (v : Nat) : (s.setReg r v).rte = s.rte := rfl
@[simp] theorem State.setReg_freq (s : State) (r : Reg) (v : Nat) : (s.setReg r v).freq = s.freq := rfl
@[simp] theorem State.setReg_certs (s : State) (r : Reg) (v : Nat) : (s.setReg r v).certs = s.certs := rfl
@[simp] theorem State.setReg_mapSwap (s : State) (r : Reg) (v : Nat) : (s.setReg r v).mapSwap = s.mapSwap := rfl
@[simp] theorem State.setReg_groups (s : State) (r : Reg) (v : Nat) : (s.setReg r v).groups = s.groups := rfl
@[simp] theorem State.setReg_cops (s : State) (r : Reg) (v : Nat) : (s.setReg r v).cops = s.cops := rfl
@[simp] theorem State.setReg_cdem (s : State) (r : Reg) (v : Nat) : (s.setReg r v).cdem = s.cdem := rfl
@[simp] theorem State.setReg_early (s : State) (r : Reg) (v : Nat) : (s.setReg r v).early = s.early := rfl
@[simp] theorem State.setReg_umbra (s : State) (r : Reg) (v : Nat) : (s.setReg r v).umbra = s.umbra := rfl
@[simp] theorem State.setReg_flux (s : State) (r : Reg) (v : Nat) : (s.setReg r v).flux = s.flux := rfl
@[simp] theorem State.setReg_resets (s : State) (r : Reg) (v : Nat) : (s.setReg r v).resets = s.resets := rfl
@[simp] theorem State.setReg_prtRuns (s : State) (r : Reg) (v : Nat) : (s.setReg r v).prtRuns = s.prtRuns := rfl
@[simp] theorem State.setReg_secp (s : State) (r : Reg) (v : Nat) : (s.setReg r v).secp = s.secp := rfl
@[simp] theorem State.setReg_keys (s : State) (r : Reg) (v : Nat) : (s.setReg r v).keys = s.keys := rfl
@[simp] theorem State.setReg_unseals (s : State) (r : Reg) (v : Nat) : (s.setReg r v).unseals = s.unseals := rfl
@[simp] theorem State.setReg_sessions (s : State) (r : Reg) (v : Nat) : (s.setReg r v).sessions = s.sessions := rfl
@[simp] theorem State.setReg_relays (s : State) (r : Reg) (v : Nat) : (s.setReg r v).relays = s.relays := rfl
@[simp] theorem State.setReg_opens (s : State) (r : Reg) (v : Nat) : (s.setReg r v).opens = s.opens := rfl
@[simp] theorem State.setReg_fw (s : State) (r : Reg) (v : Nat) : (s.setReg r v).fw = s.fw := rfl
@[simp] theorem State.setReg_deferred (s : State) (r : Reg) (v : Nat) : (s.setReg r v).deferred = s.deferred := rfl
@[simp] theorem State.setReg_fuses (s : State) (r : Reg) (v : Nat) : (s.setReg r v).fuses = s.fuses := rfl
@[simp] theorem State.setReg_boot (s : State) (r : Reg) (v : Nat) : (s.setReg r v).boot = s.boot := rfl
@[simp] theorem State.setReg_pow (s : State) (r : Reg) (v : Nat) : (s.setReg r v).pow = s.pow := rfl
@[simp] theorem State.setReg_pins (s : State) (r : Reg) (v : Nat) : (s.setReg r v).pins = s.pins := rfl
@[simp] theorem State.setReg_samps (s : State) (r : Reg) (v : Nat) : (s.setReg r v).samps = s.samps := rfl
@[simp] theorem State.setReg_coarse (s : State) (r : Reg) (v : Nat) : (s.setReg r v).coarse = s.coarse := rfl

@[simp] theorem State.fset_pending (s : State) (f : Fld) (v : Nat) : (s.fset f v).pending = s.pending := rfl
@[simp] theorem State.fset_mem (s : State) (f : Fld) (v : Nat) : (s.fset f v).mem = s.mem := rfl
@[simp] theorem State.fset_poison (s : State) (f : Fld) (v : Nat) : (s.fset f v).poison = s.poison := rfl
@[simp] theorem State.fset_spw (s : State) (f : Fld) (v : Nat) : (s.fset f v).spw = s.spw := rfl
@[simp] theorem State.fset_llc (s : State) (f : Fld) (v : Nat) : (s.fset f v).llc = s.llc := rfl
@[simp] theorem State.fset_plru (s : State) (f : Fld) (v : Nat) : (s.fset f v).plru = s.plru := rfl
@[simp] theorem State.fset_snoop (s : State) (f : Fld) (v : Nat) : (s.fset f v).snoop = s.snoop := rfl
@[simp] theorem State.fset_hlc (s : State) (f : Fld) (v : Nat) : (s.fset f v).hlc = s.hlc := rfl
@[simp] theorem State.fset_mchs (s : State) (f : Fld) (v : Nat) : (s.fset f v).mchs = s.mchs := rfl
@[simp] theorem State.fset_mslots (s : State) (f : Fld) (v : Nat) : (s.fset f v).mslots = s.mslots := rfl
@[simp] theorem State.fset_cores (s : State) (f : Fld) (v : Nat) : (s.fset f v).cores = s.cores := rfl
@[simp] theorem State.fset_evrem (s : State) (f : Fld) (v : Nat) : (s.fset f v).evrem = s.evrem := rfl
@[simp] theorem State.fset_bars (s : State) (f : Fld) (v : Nat) : (s.fset f v).bars = s.bars := rfl
@[simp] theorem State.fset_arbs (s : State) (f : Fld) (v : Nat) : (s.fset f v).arbs = s.arbs := rfl
@[simp] theorem State.fset_xq (s : State) (f : Fld) (v : Nat) : (s.fset f v).xq = s.xq := rfl
@[simp] theorem State.fset_strTurn (s : State) (f : Fld) (v : Nat) : (s.fset f v).strTurn = s.strTurn := rfl
@[simp] theorem State.fset_strs (s : State) (f : Fld) (v : Nat) : (s.fset f v).strs = s.strs := rfl
@[simp] theorem State.fset_err (s : State) (f : Fld) (v : Nat) : (s.fset f v).err = s.err := rfl
@[simp] theorem State.fset_tailq (s : State) (f : Fld) (v : Nat) : (s.fset f v).tailq = s.tailq := rfl
@[simp] theorem State.fset_tbufs (s : State) (f : Fld) (v : Nat) : (s.fset f v).tbufs = s.tbufs := rfl
@[simp] theorem State.fset_tokens (s : State) (f : Fld) (v : Nat) : (s.fset f v).tokens = s.tokens := rfl
@[simp] theorem State.fset_resp (s : State) (f : Fld) (v : Nat) : (s.fset f v).resp = s.resp := rfl
@[simp] theorem State.fset_outbox (s : State) (f : Fld) (v : Nat) : (s.fset f v).outbox = s.outbox := rfl
@[simp] theorem State.fset_time (s : State) (f : Fld) (v : Nat) : (s.fset f v).time = s.time := rfl
@[simp] theorem State.fset_free (s : State) (f : Fld) (v : Nat) : (s.fset f v).free = s.free := rfl
@[simp] theorem State.fset_failed (s : State) (f : Fld) (v : Nat) : (s.fset f v).failed = s.failed := rfl
@[simp] theorem State.fset_tripped (s : State) (f : Fld) (v : Nat) : (s.fset f v).tripped = s.tripped := rfl
@[simp] theorem State.fset_arbCls (s : State) (f : Fld) (v : Nat) : (s.fset f v).arbCls = s.arbCls := rfl
@[simp] theorem State.fset_rtq (s : State) (f : Fld) (v : Nat) : (s.fset f v).rtq = s.rtq := rfl
@[simp] theorem State.fset_rtRun (s : State) (f : Fld) (v : Nat) : (s.fset f v).rtRun = s.rtRun := rfl
@[simp] theorem State.fset_bisnp (s : State) (f : Fld) (v : Nat) : (s.fset f v).bisnp = s.bisnp := rfl
@[simp] theorem State.fset_snpq (s : State) (f : Fld) (v : Nat) : (s.fset f v).snpq = s.snpq := rfl
@[simp] theorem State.fset_rgnLim (s : State) (f : Fld) (v : Nat) : (s.fset f v).rgnLim = s.rgnLim := rfl
@[simp] theorem State.fset_rgnq (s : State) (f : Fld) (v : Nat) : (s.fset f v).rgnq = s.rgnq := rfl
@[simp] theorem State.fset_prtq (s : State) (f : Fld) (v : Nat) : (s.fset f v).prtq = s.prtq := rfl
@[simp] theorem State.fset_cxl (s : State) (f : Fld) (v : Nat) : (s.fset f v).cxl = s.cxl := rfl
@[simp] theorem State.fset_llcOp (s : State) (f : Fld) (v : Nat) : (s.fset f v).llcOp = s.llcOp := rfl
@[simp] theorem State.fset_resetting (s : State) (f : Fld) (v : Nat) : (s.fset f v).resetting = s.resetting := rfl
@[simp] theorem State.fset_flash (s : State) (f : Fld) (v : Nat) : (s.fset f v).flash = s.flash := rfl
@[simp] theorem State.fset_eclRail (s : State) (f : Fld) (v : Nat) : (s.fset f v).eclRail = s.eclRail := rfl
@[simp] theorem State.fset_thermtrip (s : State) (f : Fld) (v : Nat) : (s.fset f v).thermtrip = s.thermtrip := rfl
@[simp] theorem State.fset_shutReq (s : State) (f : Fld) (v : Nat) : (s.fset f v).shutReq = s.shutReq := rfl
@[simp] theorem State.fset_gated (s : State) (f : Fld) (v : Nat) : (s.fset f v).gated = s.gated := rfl
@[simp] theorem State.fset_clockOn (s : State) (f : Fld) (v : Nat) : (s.fset f v).clockOn = s.clockOn := rfl
@[simp] theorem State.fset_hbAt (s : State) (f : Fld) (v : Nat) : (s.fset f v).hbAt = s.hbAt := rfl
@[simp] theorem State.fset_clog (s : State) (f : Fld) (v : Nat) : (s.fset f v).clog = s.clog := rfl
@[simp] theorem State.fset_clogOvf (s : State) (f : Fld) (v : Nat) : (s.fset f v).clogOvf = s.clogOvf := rfl
@[simp] theorem State.fset_qps (s : State) (f : Fld) (v : Nat) : (s.fset f v).qps = s.qps := rfl
@[simp] theorem State.fset_allow (s : State) (f : Fld) (v : Nat) : (s.fset f v).allow = s.allow := rfl
@[simp] theorem State.fset_links (s : State) (f : Fld) (v : Nat) : (s.fset f v).links = s.links := rfl
@[simp] theorem State.fset_rte (s : State) (f : Fld) (v : Nat) : (s.fset f v).rte = s.rte := rfl
@[simp] theorem State.fset_freq (s : State) (f : Fld) (v : Nat) : (s.fset f v).freq = s.freq := rfl
@[simp] theorem State.fset_certs (s : State) (f : Fld) (v : Nat) : (s.fset f v).certs = s.certs := rfl
@[simp] theorem State.fset_mapSwap (s : State) (f : Fld) (v : Nat) : (s.fset f v).mapSwap = s.mapSwap := rfl
@[simp] theorem State.fset_groups (s : State) (f : Fld) (v : Nat) : (s.fset f v).groups = s.groups := rfl
@[simp] theorem State.fset_cops (s : State) (f : Fld) (v : Nat) : (s.fset f v).cops = s.cops := rfl
@[simp] theorem State.fset_cdem (s : State) (f : Fld) (v : Nat) : (s.fset f v).cdem = s.cdem := rfl
@[simp] theorem State.fset_early (s : State) (f : Fld) (v : Nat) : (s.fset f v).early = s.early := rfl
@[simp] theorem State.fset_umbra (s : State) (f : Fld) (v : Nat) : (s.fset f v).umbra = s.umbra := rfl
@[simp] theorem State.fset_flux (s : State) (f : Fld) (v : Nat) : (s.fset f v).flux = s.flux := rfl
@[simp] theorem State.fset_resets (s : State) (f : Fld) (v : Nat) : (s.fset f v).resets = s.resets := rfl
@[simp] theorem State.fset_prtRuns (s : State) (f : Fld) (v : Nat) : (s.fset f v).prtRuns = s.prtRuns := rfl
@[simp] theorem State.fset_secp (s : State) (f : Fld) (v : Nat) : (s.fset f v).secp = s.secp := rfl
@[simp] theorem State.fset_keys (s : State) (f : Fld) (v : Nat) : (s.fset f v).keys = s.keys := rfl
@[simp] theorem State.fset_unseals (s : State) (f : Fld) (v : Nat) : (s.fset f v).unseals = s.unseals := rfl
@[simp] theorem State.fset_sessions (s : State) (f : Fld) (v : Nat) : (s.fset f v).sessions = s.sessions := rfl
@[simp] theorem State.fset_relays (s : State) (f : Fld) (v : Nat) : (s.fset f v).relays = s.relays := rfl
@[simp] theorem State.fset_opens (s : State) (f : Fld) (v : Nat) : (s.fset f v).opens = s.opens := rfl
@[simp] theorem State.fset_fw (s : State) (f : Fld) (v : Nat) : (s.fset f v).fw = s.fw := rfl
@[simp] theorem State.fset_deferred (s : State) (f : Fld) (v : Nat) : (s.fset f v).deferred = s.deferred := rfl
@[simp] theorem State.fset_fuses (s : State) (f : Fld) (v : Nat) : (s.fset f v).fuses = s.fuses := rfl
@[simp] theorem State.fset_boot (s : State) (f : Fld) (v : Nat) : (s.fset f v).boot = s.boot := rfl
@[simp] theorem State.fset_pow (s : State) (f : Fld) (v : Nat) : (s.fset f v).pow = s.pow := rfl
@[simp] theorem State.fset_pins (s : State) (f : Fld) (v : Nat) : (s.fset f v).pins = s.pins := rfl
@[simp] theorem State.fset_samps (s : State) (f : Fld) (v : Nat) : (s.fset f v).samps = s.samps := rfl
@[simp] theorem State.fset_coarse (s : State) (f : Fld) (v : Nat) : (s.fset f v).coarse = s.coarse := rfl

@[simp] theorem State.fsat_pending (s : State) (f : Fld) (n : Nat) : (s.fsat f n).pending = s.pending := rfl
@[simp] theorem State.fsat_mem (s : State) (f : Fld) (n : Nat) : (s.fsat f n).mem = s.mem := rfl
@[simp] theorem State.fsat_poison (s : State) (f : Fld) (n : Nat) : (s.fsat f n).poison = s.poison := rfl
@[simp] theorem State.fsat_spw (s : State) (f : Fld) (n : Nat) : (s.fsat f n).spw = s.spw := rfl
@[simp] theorem State.fsat_llc (s : State) (f : Fld) (n : Nat) : (s.fsat f n).llc = s.llc := rfl
@[simp] theorem State.fsat_plru (s : State) (f : Fld) (n : Nat) : (s.fsat f n).plru = s.plru := rfl
@[simp] theorem State.fsat_snoop (s : State) (f : Fld) (n : Nat) : (s.fsat f n).snoop = s.snoop := rfl
@[simp] theorem State.fsat_hlc (s : State) (f : Fld) (n : Nat) : (s.fsat f n).hlc = s.hlc := rfl
@[simp] theorem State.fsat_mchs (s : State) (f : Fld) (n : Nat) : (s.fsat f n).mchs = s.mchs := rfl
@[simp] theorem State.fsat_mslots (s : State) (f : Fld) (n : Nat) : (s.fsat f n).mslots = s.mslots := rfl
@[simp] theorem State.fsat_cores (s : State) (f : Fld) (n : Nat) : (s.fsat f n).cores = s.cores := rfl
@[simp] theorem State.fsat_evrem (s : State) (f : Fld) (n : Nat) : (s.fsat f n).evrem = s.evrem := rfl
@[simp] theorem State.fsat_bars (s : State) (f : Fld) (n : Nat) : (s.fsat f n).bars = s.bars := rfl
@[simp] theorem State.fsat_arbs (s : State) (f : Fld) (n : Nat) : (s.fsat f n).arbs = s.arbs := rfl
@[simp] theorem State.fsat_xq (s : State) (f : Fld) (n : Nat) : (s.fsat f n).xq = s.xq := rfl
@[simp] theorem State.fsat_strTurn (s : State) (f : Fld) (n : Nat) : (s.fsat f n).strTurn = s.strTurn := rfl
@[simp] theorem State.fsat_strs (s : State) (f : Fld) (n : Nat) : (s.fsat f n).strs = s.strs := rfl
@[simp] theorem State.fsat_err (s : State) (f : Fld) (n : Nat) : (s.fsat f n).err = s.err := rfl
@[simp] theorem State.fsat_tailq (s : State) (f : Fld) (n : Nat) : (s.fsat f n).tailq = s.tailq := rfl
@[simp] theorem State.fsat_tbufs (s : State) (f : Fld) (n : Nat) : (s.fsat f n).tbufs = s.tbufs := rfl
@[simp] theorem State.fsat_tokens (s : State) (f : Fld) (n : Nat) : (s.fsat f n).tokens = s.tokens := rfl
@[simp] theorem State.fsat_resp (s : State) (f : Fld) (n : Nat) : (s.fsat f n).resp = s.resp := rfl
@[simp] theorem State.fsat_outbox (s : State) (f : Fld) (n : Nat) : (s.fsat f n).outbox = s.outbox := rfl
@[simp] theorem State.fsat_time (s : State) (f : Fld) (n : Nat) : (s.fsat f n).time = s.time := rfl
@[simp] theorem State.fsat_free (s : State) (f : Fld) (n : Nat) : (s.fsat f n).free = s.free := rfl
@[simp] theorem State.fsat_failed (s : State) (f : Fld) (n : Nat) : (s.fsat f n).failed = s.failed := rfl
@[simp] theorem State.fsat_tripped (s : State) (f : Fld) (n : Nat) : (s.fsat f n).tripped = s.tripped := rfl
@[simp] theorem State.fsat_arbCls (s : State) (f : Fld) (n : Nat) : (s.fsat f n).arbCls = s.arbCls := rfl
@[simp] theorem State.fsat_rtq (s : State) (f : Fld) (n : Nat) : (s.fsat f n).rtq = s.rtq := rfl
@[simp] theorem State.fsat_rtRun (s : State) (f : Fld) (n : Nat) : (s.fsat f n).rtRun = s.rtRun := rfl
@[simp] theorem State.fsat_bisnp (s : State) (f : Fld) (n : Nat) : (s.fsat f n).bisnp = s.bisnp := rfl
@[simp] theorem State.fsat_snpq (s : State) (f : Fld) (n : Nat) : (s.fsat f n).snpq = s.snpq := rfl
@[simp] theorem State.fsat_rgnLim (s : State) (f : Fld) (n : Nat) : (s.fsat f n).rgnLim = s.rgnLim := rfl
@[simp] theorem State.fsat_rgnq (s : State) (f : Fld) (n : Nat) : (s.fsat f n).rgnq = s.rgnq := rfl
@[simp] theorem State.fsat_prtq (s : State) (f : Fld) (n : Nat) : (s.fsat f n).prtq = s.prtq := rfl
@[simp] theorem State.fsat_cxl (s : State) (f : Fld) (n : Nat) : (s.fsat f n).cxl = s.cxl := rfl
@[simp] theorem State.fsat_llcOp (s : State) (f : Fld) (n : Nat) : (s.fsat f n).llcOp = s.llcOp := rfl
@[simp] theorem State.fsat_resetting (s : State) (f : Fld) (n : Nat) : (s.fsat f n).resetting = s.resetting := rfl
@[simp] theorem State.fsat_flash (s : State) (f : Fld) (n : Nat) : (s.fsat f n).flash = s.flash := rfl
@[simp] theorem State.fsat_eclRail (s : State) (f : Fld) (n : Nat) : (s.fsat f n).eclRail = s.eclRail := rfl
@[simp] theorem State.fsat_thermtrip (s : State) (f : Fld) (n : Nat) : (s.fsat f n).thermtrip = s.thermtrip := rfl
@[simp] theorem State.fsat_shutReq (s : State) (f : Fld) (n : Nat) : (s.fsat f n).shutReq = s.shutReq := rfl
@[simp] theorem State.fsat_gated (s : State) (f : Fld) (n : Nat) : (s.fsat f n).gated = s.gated := rfl
@[simp] theorem State.fsat_clockOn (s : State) (f : Fld) (n : Nat) : (s.fsat f n).clockOn = s.clockOn := rfl
@[simp] theorem State.fsat_hbAt (s : State) (f : Fld) (n : Nat) : (s.fsat f n).hbAt = s.hbAt := rfl
@[simp] theorem State.fsat_clog (s : State) (f : Fld) (n : Nat) : (s.fsat f n).clog = s.clog := rfl
@[simp] theorem State.fsat_clogOvf (s : State) (f : Fld) (n : Nat) : (s.fsat f n).clogOvf = s.clogOvf := rfl
@[simp] theorem State.fsat_qps (s : State) (f : Fld) (n : Nat) : (s.fsat f n).qps = s.qps := rfl
@[simp] theorem State.fsat_allow (s : State) (f : Fld) (n : Nat) : (s.fsat f n).allow = s.allow := rfl
@[simp] theorem State.fsat_links (s : State) (f : Fld) (n : Nat) : (s.fsat f n).links = s.links := rfl
@[simp] theorem State.fsat_rte (s : State) (f : Fld) (n : Nat) : (s.fsat f n).rte = s.rte := rfl
@[simp] theorem State.fsat_freq (s : State) (f : Fld) (n : Nat) : (s.fsat f n).freq = s.freq := rfl
@[simp] theorem State.fsat_certs (s : State) (f : Fld) (n : Nat) : (s.fsat f n).certs = s.certs := rfl
@[simp] theorem State.fsat_mapSwap (s : State) (f : Fld) (n : Nat) : (s.fsat f n).mapSwap = s.mapSwap := rfl
@[simp] theorem State.fsat_groups (s : State) (f : Fld) (n : Nat) : (s.fsat f n).groups = s.groups := rfl
@[simp] theorem State.fsat_cops (s : State) (f : Fld) (n : Nat) : (s.fsat f n).cops = s.cops := rfl
@[simp] theorem State.fsat_cdem (s : State) (f : Fld) (n : Nat) : (s.fsat f n).cdem = s.cdem := rfl
@[simp] theorem State.fsat_early (s : State) (f : Fld) (n : Nat) : (s.fsat f n).early = s.early := rfl
@[simp] theorem State.fsat_umbra (s : State) (f : Fld) (n : Nat) : (s.fsat f n).umbra = s.umbra := rfl
@[simp] theorem State.fsat_flux (s : State) (f : Fld) (n : Nat) : (s.fsat f n).flux = s.flux := rfl
@[simp] theorem State.fsat_resets (s : State) (f : Fld) (n : Nat) : (s.fsat f n).resets = s.resets := rfl
@[simp] theorem State.fsat_prtRuns (s : State) (f : Fld) (n : Nat) : (s.fsat f n).prtRuns = s.prtRuns := rfl
@[simp] theorem State.fsat_secp (s : State) (f : Fld) (n : Nat) : (s.fsat f n).secp = s.secp := rfl
@[simp] theorem State.fsat_keys (s : State) (f : Fld) (n : Nat) : (s.fsat f n).keys = s.keys := rfl
@[simp] theorem State.fsat_unseals (s : State) (f : Fld) (n : Nat) : (s.fsat f n).unseals = s.unseals := rfl
@[simp] theorem State.fsat_sessions (s : State) (f : Fld) (n : Nat) : (s.fsat f n).sessions = s.sessions := rfl
@[simp] theorem State.fsat_relays (s : State) (f : Fld) (n : Nat) : (s.fsat f n).relays = s.relays := rfl
@[simp] theorem State.fsat_opens (s : State) (f : Fld) (n : Nat) : (s.fsat f n).opens = s.opens := rfl
@[simp] theorem State.fsat_fw (s : State) (f : Fld) (n : Nat) : (s.fsat f n).fw = s.fw := rfl
@[simp] theorem State.fsat_deferred (s : State) (f : Fld) (n : Nat) : (s.fsat f n).deferred = s.deferred := rfl
@[simp] theorem State.fsat_fuses (s : State) (f : Fld) (n : Nat) : (s.fsat f n).fuses = s.fuses := rfl
@[simp] theorem State.fsat_boot (s : State) (f : Fld) (n : Nat) : (s.fsat f n).boot = s.boot := rfl
@[simp] theorem State.fsat_pow (s : State) (f : Fld) (n : Nat) : (s.fsat f n).pow = s.pow := rfl
@[simp] theorem State.fsat_pins (s : State) (f : Fld) (n : Nat) : (s.fsat f n).pins = s.pins := rfl
@[simp] theorem State.fsat_samps (s : State) (f : Fld) (n : Nat) : (s.fsat f n).samps = s.samps := rfl
@[simp] theorem State.fsat_coarse (s : State) (f : Fld) (n : Nat) : (s.fsat f n).coarse = s.coarse := rfl

@[simp] theorem State.finc_pending (s : State) (f : Fld) (n : Nat) : (s.finc f n).pending = s.pending := rfl
@[simp] theorem State.finc_mem (s : State) (f : Fld) (n : Nat) : (s.finc f n).mem = s.mem := rfl
@[simp] theorem State.finc_poison (s : State) (f : Fld) (n : Nat) : (s.finc f n).poison = s.poison := rfl
@[simp] theorem State.finc_spw (s : State) (f : Fld) (n : Nat) : (s.finc f n).spw = s.spw := rfl
@[simp] theorem State.finc_llc (s : State) (f : Fld) (n : Nat) : (s.finc f n).llc = s.llc := rfl
@[simp] theorem State.finc_plru (s : State) (f : Fld) (n : Nat) : (s.finc f n).plru = s.plru := rfl
@[simp] theorem State.finc_snoop (s : State) (f : Fld) (n : Nat) : (s.finc f n).snoop = s.snoop := rfl
@[simp] theorem State.finc_hlc (s : State) (f : Fld) (n : Nat) : (s.finc f n).hlc = s.hlc := rfl
@[simp] theorem State.finc_mchs (s : State) (f : Fld) (n : Nat) : (s.finc f n).mchs = s.mchs := rfl
@[simp] theorem State.finc_mslots (s : State) (f : Fld) (n : Nat) : (s.finc f n).mslots = s.mslots := rfl
@[simp] theorem State.finc_cores (s : State) (f : Fld) (n : Nat) : (s.finc f n).cores = s.cores := rfl
@[simp] theorem State.finc_evrem (s : State) (f : Fld) (n : Nat) : (s.finc f n).evrem = s.evrem := rfl
@[simp] theorem State.finc_bars (s : State) (f : Fld) (n : Nat) : (s.finc f n).bars = s.bars := rfl
@[simp] theorem State.finc_arbs (s : State) (f : Fld) (n : Nat) : (s.finc f n).arbs = s.arbs := rfl
@[simp] theorem State.finc_xq (s : State) (f : Fld) (n : Nat) : (s.finc f n).xq = s.xq := rfl
@[simp] theorem State.finc_strTurn (s : State) (f : Fld) (n : Nat) : (s.finc f n).strTurn = s.strTurn := rfl
@[simp] theorem State.finc_strs (s : State) (f : Fld) (n : Nat) : (s.finc f n).strs = s.strs := rfl
@[simp] theorem State.finc_err (s : State) (f : Fld) (n : Nat) : (s.finc f n).err = s.err := rfl
@[simp] theorem State.finc_tailq (s : State) (f : Fld) (n : Nat) : (s.finc f n).tailq = s.tailq := rfl
@[simp] theorem State.finc_tbufs (s : State) (f : Fld) (n : Nat) : (s.finc f n).tbufs = s.tbufs := rfl
@[simp] theorem State.finc_tokens (s : State) (f : Fld) (n : Nat) : (s.finc f n).tokens = s.tokens := rfl
@[simp] theorem State.finc_resp (s : State) (f : Fld) (n : Nat) : (s.finc f n).resp = s.resp := rfl
@[simp] theorem State.finc_outbox (s : State) (f : Fld) (n : Nat) : (s.finc f n).outbox = s.outbox := rfl
@[simp] theorem State.finc_time (s : State) (f : Fld) (n : Nat) : (s.finc f n).time = s.time := rfl
@[simp] theorem State.finc_free (s : State) (f : Fld) (n : Nat) : (s.finc f n).free = s.free := rfl
@[simp] theorem State.finc_failed (s : State) (f : Fld) (n : Nat) : (s.finc f n).failed = s.failed := rfl
@[simp] theorem State.finc_tripped (s : State) (f : Fld) (n : Nat) : (s.finc f n).tripped = s.tripped := rfl
@[simp] theorem State.finc_arbCls (s : State) (f : Fld) (n : Nat) : (s.finc f n).arbCls = s.arbCls := rfl
@[simp] theorem State.finc_rtq (s : State) (f : Fld) (n : Nat) : (s.finc f n).rtq = s.rtq := rfl
@[simp] theorem State.finc_rtRun (s : State) (f : Fld) (n : Nat) : (s.finc f n).rtRun = s.rtRun := rfl
@[simp] theorem State.finc_bisnp (s : State) (f : Fld) (n : Nat) : (s.finc f n).bisnp = s.bisnp := rfl
@[simp] theorem State.finc_snpq (s : State) (f : Fld) (n : Nat) : (s.finc f n).snpq = s.snpq := rfl
@[simp] theorem State.finc_rgnLim (s : State) (f : Fld) (n : Nat) : (s.finc f n).rgnLim = s.rgnLim := rfl
@[simp] theorem State.finc_rgnq (s : State) (f : Fld) (n : Nat) : (s.finc f n).rgnq = s.rgnq := rfl
@[simp] theorem State.finc_prtq (s : State) (f : Fld) (n : Nat) : (s.finc f n).prtq = s.prtq := rfl
@[simp] theorem State.finc_cxl (s : State) (f : Fld) (n : Nat) : (s.finc f n).cxl = s.cxl := rfl
@[simp] theorem State.finc_llcOp (s : State) (f : Fld) (n : Nat) : (s.finc f n).llcOp = s.llcOp := rfl
@[simp] theorem State.finc_resetting (s : State) (f : Fld) (n : Nat) : (s.finc f n).resetting = s.resetting := rfl
@[simp] theorem State.finc_flash (s : State) (f : Fld) (n : Nat) : (s.finc f n).flash = s.flash := rfl
@[simp] theorem State.finc_eclRail (s : State) (f : Fld) (n : Nat) : (s.finc f n).eclRail = s.eclRail := rfl
@[simp] theorem State.finc_thermtrip (s : State) (f : Fld) (n : Nat) : (s.finc f n).thermtrip = s.thermtrip := rfl
@[simp] theorem State.finc_shutReq (s : State) (f : Fld) (n : Nat) : (s.finc f n).shutReq = s.shutReq := rfl
@[simp] theorem State.finc_gated (s : State) (f : Fld) (n : Nat) : (s.finc f n).gated = s.gated := rfl
@[simp] theorem State.finc_clockOn (s : State) (f : Fld) (n : Nat) : (s.finc f n).clockOn = s.clockOn := rfl
@[simp] theorem State.finc_hbAt (s : State) (f : Fld) (n : Nat) : (s.finc f n).hbAt = s.hbAt := rfl
@[simp] theorem State.finc_clog (s : State) (f : Fld) (n : Nat) : (s.finc f n).clog = s.clog := rfl
@[simp] theorem State.finc_clogOvf (s : State) (f : Fld) (n : Nat) : (s.finc f n).clogOvf = s.clogOvf := rfl
@[simp] theorem State.finc_qps (s : State) (f : Fld) (n : Nat) : (s.finc f n).qps = s.qps := rfl
@[simp] theorem State.finc_allow (s : State) (f : Fld) (n : Nat) : (s.finc f n).allow = s.allow := rfl
@[simp] theorem State.finc_links (s : State) (f : Fld) (n : Nat) : (s.finc f n).links = s.links := rfl
@[simp] theorem State.finc_rte (s : State) (f : Fld) (n : Nat) : (s.finc f n).rte = s.rte := rfl
@[simp] theorem State.finc_freq (s : State) (f : Fld) (n : Nat) : (s.finc f n).freq = s.freq := rfl
@[simp] theorem State.finc_certs (s : State) (f : Fld) (n : Nat) : (s.finc f n).certs = s.certs := rfl
@[simp] theorem State.finc_mapSwap (s : State) (f : Fld) (n : Nat) : (s.finc f n).mapSwap = s.mapSwap := rfl
@[simp] theorem State.finc_groups (s : State) (f : Fld) (n : Nat) : (s.finc f n).groups = s.groups := rfl
@[simp] theorem State.finc_cops (s : State) (f : Fld) (n : Nat) : (s.finc f n).cops = s.cops := rfl
@[simp] theorem State.finc_cdem (s : State) (f : Fld) (n : Nat) : (s.finc f n).cdem = s.cdem := rfl
@[simp] theorem State.finc_early (s : State) (f : Fld) (n : Nat) : (s.finc f n).early = s.early := rfl
@[simp] theorem State.finc_umbra (s : State) (f : Fld) (n : Nat) : (s.finc f n).umbra = s.umbra := rfl
@[simp] theorem State.finc_flux (s : State) (f : Fld) (n : Nat) : (s.finc f n).flux = s.flux := rfl
@[simp] theorem State.finc_resets (s : State) (f : Fld) (n : Nat) : (s.finc f n).resets = s.resets := rfl
@[simp] theorem State.finc_prtRuns (s : State) (f : Fld) (n : Nat) : (s.finc f n).prtRuns = s.prtRuns := rfl
@[simp] theorem State.finc_secp (s : State) (f : Fld) (n : Nat) : (s.finc f n).secp = s.secp := rfl
@[simp] theorem State.finc_keys (s : State) (f : Fld) (n : Nat) : (s.finc f n).keys = s.keys := rfl
@[simp] theorem State.finc_unseals (s : State) (f : Fld) (n : Nat) : (s.finc f n).unseals = s.unseals := rfl
@[simp] theorem State.finc_sessions (s : State) (f : Fld) (n : Nat) : (s.finc f n).sessions = s.sessions := rfl
@[simp] theorem State.finc_relays (s : State) (f : Fld) (n : Nat) : (s.finc f n).relays = s.relays := rfl
@[simp] theorem State.finc_opens (s : State) (f : Fld) (n : Nat) : (s.finc f n).opens = s.opens := rfl
@[simp] theorem State.finc_fw (s : State) (f : Fld) (n : Nat) : (s.finc f n).fw = s.fw := rfl
@[simp] theorem State.finc_deferred (s : State) (f : Fld) (n : Nat) : (s.finc f n).deferred = s.deferred := rfl
@[simp] theorem State.finc_fuses (s : State) (f : Fld) (n : Nat) : (s.finc f n).fuses = s.fuses := rfl
@[simp] theorem State.finc_boot (s : State) (f : Fld) (n : Nat) : (s.finc f n).boot = s.boot := rfl
@[simp] theorem State.finc_pow (s : State) (f : Fld) (n : Nat) : (s.finc f n).pow = s.pow := rfl
@[simp] theorem State.finc_pins (s : State) (f : Fld) (n : Nat) : (s.finc f n).pins = s.pins := rfl
@[simp] theorem State.finc_samps (s : State) (f : Fld) (n : Nat) : (s.finc f n).samps = s.samps := rfl
@[simp] theorem State.finc_coarse (s : State) (f : Fld) (n : Nat) : (s.finc f n).coarse = s.coarse := rfl

@[simp] theorem State.clearReg_pending (s : State) (r : Reg) : (s.clearReg r).pending = s.pending := rfl
@[simp] theorem State.clearReg_mem (s : State) (r : Reg) : (s.clearReg r).mem = s.mem := rfl
@[simp] theorem State.clearReg_poison (s : State) (r : Reg) : (s.clearReg r).poison = s.poison := rfl
@[simp] theorem State.clearReg_spw (s : State) (r : Reg) : (s.clearReg r).spw = s.spw := rfl
@[simp] theorem State.clearReg_llc (s : State) (r : Reg) : (s.clearReg r).llc = s.llc := rfl
@[simp] theorem State.clearReg_plru (s : State) (r : Reg) : (s.clearReg r).plru = s.plru := rfl
@[simp] theorem State.clearReg_snoop (s : State) (r : Reg) : (s.clearReg r).snoop = s.snoop := rfl
@[simp] theorem State.clearReg_hlc (s : State) (r : Reg) : (s.clearReg r).hlc = s.hlc := rfl
@[simp] theorem State.clearReg_mchs (s : State) (r : Reg) : (s.clearReg r).mchs = s.mchs := rfl
@[simp] theorem State.clearReg_mslots (s : State) (r : Reg) : (s.clearReg r).mslots = s.mslots := rfl
@[simp] theorem State.clearReg_cores (s : State) (r : Reg) : (s.clearReg r).cores = s.cores := rfl
@[simp] theorem State.clearReg_evrem (s : State) (r : Reg) : (s.clearReg r).evrem = s.evrem := rfl
@[simp] theorem State.clearReg_bars (s : State) (r : Reg) : (s.clearReg r).bars = s.bars := rfl
@[simp] theorem State.clearReg_arbs (s : State) (r : Reg) : (s.clearReg r).arbs = s.arbs := rfl
@[simp] theorem State.clearReg_xq (s : State) (r : Reg) : (s.clearReg r).xq = s.xq := rfl
@[simp] theorem State.clearReg_strTurn (s : State) (r : Reg) : (s.clearReg r).strTurn = s.strTurn := rfl
@[simp] theorem State.clearReg_strs (s : State) (r : Reg) : (s.clearReg r).strs = s.strs := rfl
@[simp] theorem State.clearReg_err (s : State) (r : Reg) : (s.clearReg r).err = s.err := rfl
@[simp] theorem State.clearReg_tailq (s : State) (r : Reg) : (s.clearReg r).tailq = s.tailq := rfl
@[simp] theorem State.clearReg_tbufs (s : State) (r : Reg) : (s.clearReg r).tbufs = s.tbufs := rfl
@[simp] theorem State.clearReg_tokens (s : State) (r : Reg) : (s.clearReg r).tokens = s.tokens := rfl
@[simp] theorem State.clearReg_resp (s : State) (r : Reg) : (s.clearReg r).resp = s.resp := rfl
@[simp] theorem State.clearReg_outbox (s : State) (r : Reg) : (s.clearReg r).outbox = s.outbox := rfl
@[simp] theorem State.clearReg_time (s : State) (r : Reg) : (s.clearReg r).time = s.time := rfl
@[simp] theorem State.clearReg_free (s : State) (r : Reg) : (s.clearReg r).free = s.free := rfl
@[simp] theorem State.clearReg_failed (s : State) (r : Reg) : (s.clearReg r).failed = s.failed := rfl
@[simp] theorem State.clearReg_tripped (s : State) (r : Reg) : (s.clearReg r).tripped = s.tripped := rfl
@[simp] theorem State.clearReg_arbCls (s : State) (r : Reg) : (s.clearReg r).arbCls = s.arbCls := rfl
@[simp] theorem State.clearReg_rtq (s : State) (r : Reg) : (s.clearReg r).rtq = s.rtq := rfl
@[simp] theorem State.clearReg_rtRun (s : State) (r : Reg) : (s.clearReg r).rtRun = s.rtRun := rfl
@[simp] theorem State.clearReg_bisnp (s : State) (r : Reg) : (s.clearReg r).bisnp = s.bisnp := rfl
@[simp] theorem State.clearReg_snpq (s : State) (r : Reg) : (s.clearReg r).snpq = s.snpq := rfl
@[simp] theorem State.clearReg_rgnLim (s : State) (r : Reg) : (s.clearReg r).rgnLim = s.rgnLim := rfl
@[simp] theorem State.clearReg_rgnq (s : State) (r : Reg) : (s.clearReg r).rgnq = s.rgnq := rfl
@[simp] theorem State.clearReg_prtq (s : State) (r : Reg) : (s.clearReg r).prtq = s.prtq := rfl
@[simp] theorem State.clearReg_cxl (s : State) (r : Reg) : (s.clearReg r).cxl = s.cxl := rfl
@[simp] theorem State.clearReg_llcOp (s : State) (r : Reg) : (s.clearReg r).llcOp = s.llcOp := rfl
@[simp] theorem State.clearReg_resetting (s : State) (r : Reg) : (s.clearReg r).resetting = s.resetting := rfl
@[simp] theorem State.clearReg_flash (s : State) (r : Reg) : (s.clearReg r).flash = s.flash := rfl
@[simp] theorem State.clearReg_eclRail (s : State) (r : Reg) : (s.clearReg r).eclRail = s.eclRail := rfl
@[simp] theorem State.clearReg_thermtrip (s : State) (r : Reg) : (s.clearReg r).thermtrip = s.thermtrip := rfl
@[simp] theorem State.clearReg_shutReq (s : State) (r : Reg) : (s.clearReg r).shutReq = s.shutReq := rfl
@[simp] theorem State.clearReg_gated (s : State) (r : Reg) : (s.clearReg r).gated = s.gated := rfl
@[simp] theorem State.clearReg_clockOn (s : State) (r : Reg) : (s.clearReg r).clockOn = s.clockOn := rfl
@[simp] theorem State.clearReg_hbAt (s : State) (r : Reg) : (s.clearReg r).hbAt = s.hbAt := rfl
@[simp] theorem State.clearReg_clog (s : State) (r : Reg) : (s.clearReg r).clog = s.clog := rfl
@[simp] theorem State.clearReg_clogOvf (s : State) (r : Reg) : (s.clearReg r).clogOvf = s.clogOvf := rfl
@[simp] theorem State.clearReg_qps (s : State) (r : Reg) : (s.clearReg r).qps = s.qps := rfl
@[simp] theorem State.clearReg_allow (s : State) (r : Reg) : (s.clearReg r).allow = s.allow := rfl
@[simp] theorem State.clearReg_links (s : State) (r : Reg) : (s.clearReg r).links = s.links := rfl
@[simp] theorem State.clearReg_rte (s : State) (r : Reg) : (s.clearReg r).rte = s.rte := rfl
@[simp] theorem State.clearReg_freq (s : State) (r : Reg) : (s.clearReg r).freq = s.freq := rfl
@[simp] theorem State.clearReg_certs (s : State) (r : Reg) : (s.clearReg r).certs = s.certs := rfl
@[simp] theorem State.clearReg_mapSwap (s : State) (r : Reg) : (s.clearReg r).mapSwap = s.mapSwap := rfl
@[simp] theorem State.clearReg_groups (s : State) (r : Reg) : (s.clearReg r).groups = s.groups := rfl
@[simp] theorem State.clearReg_cops (s : State) (r : Reg) : (s.clearReg r).cops = s.cops := rfl
@[simp] theorem State.clearReg_cdem (s : State) (r : Reg) : (s.clearReg r).cdem = s.cdem := rfl
@[simp] theorem State.clearReg_early (s : State) (r : Reg) : (s.clearReg r).early = s.early := rfl
@[simp] theorem State.clearReg_umbra (s : State) (r : Reg) : (s.clearReg r).umbra = s.umbra := rfl
@[simp] theorem State.clearReg_flux (s : State) (r : Reg) : (s.clearReg r).flux = s.flux := rfl
@[simp] theorem State.clearReg_resets (s : State) (r : Reg) : (s.clearReg r).resets = s.resets := rfl
@[simp] theorem State.clearReg_prtRuns (s : State) (r : Reg) : (s.clearReg r).prtRuns = s.prtRuns := rfl
@[simp] theorem State.clearReg_secp (s : State) (r : Reg) : (s.clearReg r).secp = s.secp := rfl
@[simp] theorem State.clearReg_keys (s : State) (r : Reg) : (s.clearReg r).keys = s.keys := rfl
@[simp] theorem State.clearReg_unseals (s : State) (r : Reg) : (s.clearReg r).unseals = s.unseals := rfl
@[simp] theorem State.clearReg_sessions (s : State) (r : Reg) : (s.clearReg r).sessions = s.sessions := rfl
@[simp] theorem State.clearReg_relays (s : State) (r : Reg) : (s.clearReg r).relays = s.relays := rfl
@[simp] theorem State.clearReg_opens (s : State) (r : Reg) : (s.clearReg r).opens = s.opens := rfl
@[simp] theorem State.clearReg_fw (s : State) (r : Reg) : (s.clearReg r).fw = s.fw := rfl
@[simp] theorem State.clearReg_deferred (s : State) (r : Reg) : (s.clearReg r).deferred = s.deferred := rfl
@[simp] theorem State.clearReg_fuses (s : State) (r : Reg) : (s.clearReg r).fuses = s.fuses := rfl
@[simp] theorem State.clearReg_boot (s : State) (r : Reg) : (s.clearReg r).boot = s.boot := rfl
@[simp] theorem State.clearReg_pow (s : State) (r : Reg) : (s.clearReg r).pow = s.pow := rfl
@[simp] theorem State.clearReg_pins (s : State) (r : Reg) : (s.clearReg r).pins = s.pins := rfl
@[simp] theorem State.clearReg_samps (s : State) (r : Reg) : (s.clearReg r).samps = s.samps := rfl
@[simp] theorem State.clearReg_coarse (s : State) (r : Reg) : (s.clearReg r).coarse = s.coarse := rfl

@[simp] theorem State.setCore_pending (s : State) (n : Nat) (c : CoreS) : (s.setCore n c).pending = s.pending := rfl
@[simp] theorem State.setCore_regs (s : State) (n : Nat) (c : CoreS) : (s.setCore n c).regs = s.regs := rfl
@[simp] theorem State.setCore_mem (s : State) (n : Nat) (c : CoreS) : (s.setCore n c).mem = s.mem := rfl
@[simp] theorem State.setCore_poison (s : State) (n : Nat) (c : CoreS) : (s.setCore n c).poison = s.poison := rfl
@[simp] theorem State.setCore_spw (s : State) (n : Nat) (c : CoreS) : (s.setCore n c).spw = s.spw := rfl
@[simp] theorem State.setCore_llc (s : State) (n : Nat) (c : CoreS) : (s.setCore n c).llc = s.llc := rfl
@[simp] theorem State.setCore_plru (s : State) (n : Nat) (c : CoreS) : (s.setCore n c).plru = s.plru := rfl
@[simp] theorem State.setCore_snoop (s : State) (n : Nat) (c : CoreS) : (s.setCore n c).snoop = s.snoop := rfl
@[simp] theorem State.setCore_hlc (s : State) (n : Nat) (c : CoreS) : (s.setCore n c).hlc = s.hlc := rfl
@[simp] theorem State.setCore_mchs (s : State) (n : Nat) (c : CoreS) : (s.setCore n c).mchs = s.mchs := rfl
@[simp] theorem State.setCore_mslots (s : State) (n : Nat) (c : CoreS) : (s.setCore n c).mslots = s.mslots := rfl
@[simp] theorem State.setCore_evrem (s : State) (n : Nat) (c : CoreS) : (s.setCore n c).evrem = s.evrem := rfl
@[simp] theorem State.setCore_bars (s : State) (n : Nat) (c : CoreS) : (s.setCore n c).bars = s.bars := rfl
@[simp] theorem State.setCore_arbs (s : State) (n : Nat) (c : CoreS) : (s.setCore n c).arbs = s.arbs := rfl
@[simp] theorem State.setCore_xq (s : State) (n : Nat) (c : CoreS) : (s.setCore n c).xq = s.xq := rfl
@[simp] theorem State.setCore_strTurn (s : State) (n : Nat) (c : CoreS) : (s.setCore n c).strTurn = s.strTurn := rfl
@[simp] theorem State.setCore_strs (s : State) (n : Nat) (c : CoreS) : (s.setCore n c).strs = s.strs := rfl
@[simp] theorem State.setCore_err (s : State) (n : Nat) (c : CoreS) : (s.setCore n c).err = s.err := rfl
@[simp] theorem State.setCore_tailq (s : State) (n : Nat) (c : CoreS) : (s.setCore n c).tailq = s.tailq := rfl
@[simp] theorem State.setCore_tbufs (s : State) (n : Nat) (c : CoreS) : (s.setCore n c).tbufs = s.tbufs := rfl
@[simp] theorem State.setCore_tokens (s : State) (n : Nat) (c : CoreS) : (s.setCore n c).tokens = s.tokens := rfl
@[simp] theorem State.setCore_resp (s : State) (n : Nat) (c : CoreS) : (s.setCore n c).resp = s.resp := rfl
@[simp] theorem State.setCore_outbox (s : State) (n : Nat) (c : CoreS) : (s.setCore n c).outbox = s.outbox := rfl
@[simp] theorem State.setCore_time (s : State) (n : Nat) (c : CoreS) : (s.setCore n c).time = s.time := rfl
@[simp] theorem State.setCore_free (s : State) (n : Nat) (c : CoreS) : (s.setCore n c).free = s.free := rfl
@[simp] theorem State.setCore_failed (s : State) (n : Nat) (c : CoreS) : (s.setCore n c).failed = s.failed := rfl
@[simp] theorem State.setCore_tripped (s : State) (n : Nat) (c : CoreS) : (s.setCore n c).tripped = s.tripped := rfl
@[simp] theorem State.setCore_arbCls (s : State) (n : Nat) (c : CoreS) : (s.setCore n c).arbCls = s.arbCls := rfl
@[simp] theorem State.setCore_rtq (s : State) (n : Nat) (c : CoreS) : (s.setCore n c).rtq = s.rtq := rfl
@[simp] theorem State.setCore_rtRun (s : State) (n : Nat) (c : CoreS) : (s.setCore n c).rtRun = s.rtRun := rfl
@[simp] theorem State.setCore_bisnp (s : State) (n : Nat) (c : CoreS) : (s.setCore n c).bisnp = s.bisnp := rfl
@[simp] theorem State.setCore_snpq (s : State) (n : Nat) (c : CoreS) : (s.setCore n c).snpq = s.snpq := rfl
@[simp] theorem State.setCore_rgnLim (s : State) (n : Nat) (c : CoreS) : (s.setCore n c).rgnLim = s.rgnLim := rfl
@[simp] theorem State.setCore_rgnq (s : State) (n : Nat) (c : CoreS) : (s.setCore n c).rgnq = s.rgnq := rfl
@[simp] theorem State.setCore_prtq (s : State) (n : Nat) (c : CoreS) : (s.setCore n c).prtq = s.prtq := rfl
@[simp] theorem State.setCore_cxl (s : State) (n : Nat) (c : CoreS) : (s.setCore n c).cxl = s.cxl := rfl
@[simp] theorem State.setCore_llcOp (s : State) (n : Nat) (c : CoreS) : (s.setCore n c).llcOp = s.llcOp := rfl
@[simp] theorem State.setCore_resetting (s : State) (n : Nat) (c : CoreS) : (s.setCore n c).resetting = s.resetting := rfl
@[simp] theorem State.setCore_flash (s : State) (n : Nat) (c : CoreS) : (s.setCore n c).flash = s.flash := rfl
@[simp] theorem State.setCore_eclRail (s : State) (n : Nat) (c : CoreS) : (s.setCore n c).eclRail = s.eclRail := rfl
@[simp] theorem State.setCore_thermtrip (s : State) (n : Nat) (c : CoreS) : (s.setCore n c).thermtrip = s.thermtrip := rfl
@[simp] theorem State.setCore_shutReq (s : State) (n : Nat) (c : CoreS) : (s.setCore n c).shutReq = s.shutReq := rfl
@[simp] theorem State.setCore_gated (s : State) (n : Nat) (c : CoreS) : (s.setCore n c).gated = s.gated := rfl
@[simp] theorem State.setCore_clockOn (s : State) (n : Nat) (c : CoreS) : (s.setCore n c).clockOn = s.clockOn := rfl
@[simp] theorem State.setCore_hbAt (s : State) (n : Nat) (c : CoreS) : (s.setCore n c).hbAt = s.hbAt := rfl
@[simp] theorem State.setCore_clog (s : State) (n : Nat) (c : CoreS) : (s.setCore n c).clog = s.clog := rfl
@[simp] theorem State.setCore_clogOvf (s : State) (n : Nat) (c : CoreS) : (s.setCore n c).clogOvf = s.clogOvf := rfl
@[simp] theorem State.setCore_qps (s : State) (n : Nat) (c : CoreS) : (s.setCore n c).qps = s.qps := rfl
@[simp] theorem State.setCore_allow (s : State) (n : Nat) (c : CoreS) : (s.setCore n c).allow = s.allow := rfl
@[simp] theorem State.setCore_links (s : State) (n : Nat) (c : CoreS) : (s.setCore n c).links = s.links := rfl
@[simp] theorem State.setCore_rte (s : State) (n : Nat) (c : CoreS) : (s.setCore n c).rte = s.rte := rfl
@[simp] theorem State.setCore_freq (s : State) (n : Nat) (c : CoreS) : (s.setCore n c).freq = s.freq := rfl
@[simp] theorem State.setCore_certs (s : State) (n : Nat) (c : CoreS) : (s.setCore n c).certs = s.certs := rfl
@[simp] theorem State.setCore_mapSwap (s : State) (n : Nat) (c : CoreS) : (s.setCore n c).mapSwap = s.mapSwap := rfl
@[simp] theorem State.setCore_groups (s : State) (n : Nat) (c : CoreS) : (s.setCore n c).groups = s.groups := rfl
@[simp] theorem State.setCore_cops (s : State) (n : Nat) (c : CoreS) : (s.setCore n c).cops = s.cops := rfl
@[simp] theorem State.setCore_cdem (s : State) (n : Nat) (c : CoreS) : (s.setCore n c).cdem = s.cdem := rfl
@[simp] theorem State.setCore_early (s : State) (n : Nat) (c : CoreS) : (s.setCore n c).early = s.early := rfl
@[simp] theorem State.setCore_umbra (s : State) (n : Nat) (c : CoreS) : (s.setCore n c).umbra = s.umbra := rfl
@[simp] theorem State.setCore_flux (s : State) (n : Nat) (c : CoreS) : (s.setCore n c).flux = s.flux := rfl
@[simp] theorem State.setCore_resets (s : State) (n : Nat) (c : CoreS) : (s.setCore n c).resets = s.resets := rfl
@[simp] theorem State.setCore_prtRuns (s : State) (n : Nat) (c : CoreS) : (s.setCore n c).prtRuns = s.prtRuns := rfl
@[simp] theorem State.setCore_secp (s : State) (n : Nat) (c : CoreS) : (s.setCore n c).secp = s.secp := rfl
@[simp] theorem State.setCore_keys (s : State) (n : Nat) (c : CoreS) : (s.setCore n c).keys = s.keys := rfl
@[simp] theorem State.setCore_unseals (s : State) (n : Nat) (c : CoreS) : (s.setCore n c).unseals = s.unseals := rfl
@[simp] theorem State.setCore_sessions (s : State) (n : Nat) (c : CoreS) : (s.setCore n c).sessions = s.sessions := rfl
@[simp] theorem State.setCore_relays (s : State) (n : Nat) (c : CoreS) : (s.setCore n c).relays = s.relays := rfl
@[simp] theorem State.setCore_opens (s : State) (n : Nat) (c : CoreS) : (s.setCore n c).opens = s.opens := rfl
@[simp] theorem State.setCore_fw (s : State) (n : Nat) (c : CoreS) : (s.setCore n c).fw = s.fw := rfl
@[simp] theorem State.setCore_deferred (s : State) (n : Nat) (c : CoreS) : (s.setCore n c).deferred = s.deferred := rfl
@[simp] theorem State.setCore_fuses (s : State) (n : Nat) (c : CoreS) : (s.setCore n c).fuses = s.fuses := rfl
@[simp] theorem State.setCore_boot (s : State) (n : Nat) (c : CoreS) : (s.setCore n c).boot = s.boot := rfl
@[simp] theorem State.setCore_pow (s : State) (n : Nat) (c : CoreS) : (s.setCore n c).pow = s.pow := rfl
@[simp] theorem State.setCore_pins (s : State) (n : Nat) (c : CoreS) : (s.setCore n c).pins = s.pins := rfl
@[simp] theorem State.setCore_samps (s : State) (n : Nat) (c : CoreS) : (s.setCore n c).samps = s.samps := rfl
@[simp] theorem State.setCore_coarse (s : State) (n : Nat) (c : CoreS) : (s.setCore n c).coarse = s.coarse := rfl

@[simp] theorem State.modCore_pending (s : State) (n : Nat) (g : CoreS → CoreS) : (s.modCore n g).pending = s.pending := rfl
@[simp] theorem State.modCore_regs (s : State) (n : Nat) (g : CoreS → CoreS) : (s.modCore n g).regs = s.regs := rfl
@[simp] theorem State.modCore_mem (s : State) (n : Nat) (g : CoreS → CoreS) : (s.modCore n g).mem = s.mem := rfl
@[simp] theorem State.modCore_poison (s : State) (n : Nat) (g : CoreS → CoreS) : (s.modCore n g).poison = s.poison := rfl
@[simp] theorem State.modCore_spw (s : State) (n : Nat) (g : CoreS → CoreS) : (s.modCore n g).spw = s.spw := rfl
@[simp] theorem State.modCore_llc (s : State) (n : Nat) (g : CoreS → CoreS) : (s.modCore n g).llc = s.llc := rfl
@[simp] theorem State.modCore_plru (s : State) (n : Nat) (g : CoreS → CoreS) : (s.modCore n g).plru = s.plru := rfl
@[simp] theorem State.modCore_snoop (s : State) (n : Nat) (g : CoreS → CoreS) : (s.modCore n g).snoop = s.snoop := rfl
@[simp] theorem State.modCore_hlc (s : State) (n : Nat) (g : CoreS → CoreS) : (s.modCore n g).hlc = s.hlc := rfl
@[simp] theorem State.modCore_mchs (s : State) (n : Nat) (g : CoreS → CoreS) : (s.modCore n g).mchs = s.mchs := rfl
@[simp] theorem State.modCore_mslots (s : State) (n : Nat) (g : CoreS → CoreS) : (s.modCore n g).mslots = s.mslots := rfl
@[simp] theorem State.modCore_evrem (s : State) (n : Nat) (g : CoreS → CoreS) : (s.modCore n g).evrem = s.evrem := rfl
@[simp] theorem State.modCore_bars (s : State) (n : Nat) (g : CoreS → CoreS) : (s.modCore n g).bars = s.bars := rfl
@[simp] theorem State.modCore_arbs (s : State) (n : Nat) (g : CoreS → CoreS) : (s.modCore n g).arbs = s.arbs := rfl
@[simp] theorem State.modCore_xq (s : State) (n : Nat) (g : CoreS → CoreS) : (s.modCore n g).xq = s.xq := rfl
@[simp] theorem State.modCore_strTurn (s : State) (n : Nat) (g : CoreS → CoreS) : (s.modCore n g).strTurn = s.strTurn := rfl
@[simp] theorem State.modCore_strs (s : State) (n : Nat) (g : CoreS → CoreS) : (s.modCore n g).strs = s.strs := rfl
@[simp] theorem State.modCore_err (s : State) (n : Nat) (g : CoreS → CoreS) : (s.modCore n g).err = s.err := rfl
@[simp] theorem State.modCore_tailq (s : State) (n : Nat) (g : CoreS → CoreS) : (s.modCore n g).tailq = s.tailq := rfl
@[simp] theorem State.modCore_tbufs (s : State) (n : Nat) (g : CoreS → CoreS) : (s.modCore n g).tbufs = s.tbufs := rfl
@[simp] theorem State.modCore_tokens (s : State) (n : Nat) (g : CoreS → CoreS) : (s.modCore n g).tokens = s.tokens := rfl
@[simp] theorem State.modCore_resp (s : State) (n : Nat) (g : CoreS → CoreS) : (s.modCore n g).resp = s.resp := rfl
@[simp] theorem State.modCore_outbox (s : State) (n : Nat) (g : CoreS → CoreS) : (s.modCore n g).outbox = s.outbox := rfl
@[simp] theorem State.modCore_time (s : State) (n : Nat) (g : CoreS → CoreS) : (s.modCore n g).time = s.time := rfl
@[simp] theorem State.modCore_free (s : State) (n : Nat) (g : CoreS → CoreS) : (s.modCore n g).free = s.free := rfl
@[simp] theorem State.modCore_failed (s : State) (n : Nat) (g : CoreS → CoreS) : (s.modCore n g).failed = s.failed := rfl
@[simp] theorem State.modCore_tripped (s : State) (n : Nat) (g : CoreS → CoreS) : (s.modCore n g).tripped = s.tripped := rfl
@[simp] theorem State.modCore_arbCls (s : State) (n : Nat) (g : CoreS → CoreS) : (s.modCore n g).arbCls = s.arbCls := rfl
@[simp] theorem State.modCore_rtq (s : State) (n : Nat) (g : CoreS → CoreS) : (s.modCore n g).rtq = s.rtq := rfl
@[simp] theorem State.modCore_rtRun (s : State) (n : Nat) (g : CoreS → CoreS) : (s.modCore n g).rtRun = s.rtRun := rfl
@[simp] theorem State.modCore_bisnp (s : State) (n : Nat) (g : CoreS → CoreS) : (s.modCore n g).bisnp = s.bisnp := rfl
@[simp] theorem State.modCore_snpq (s : State) (n : Nat) (g : CoreS → CoreS) : (s.modCore n g).snpq = s.snpq := rfl
@[simp] theorem State.modCore_rgnLim (s : State) (n : Nat) (g : CoreS → CoreS) : (s.modCore n g).rgnLim = s.rgnLim := rfl
@[simp] theorem State.modCore_rgnq (s : State) (n : Nat) (g : CoreS → CoreS) : (s.modCore n g).rgnq = s.rgnq := rfl
@[simp] theorem State.modCore_prtq (s : State) (n : Nat) (g : CoreS → CoreS) : (s.modCore n g).prtq = s.prtq := rfl
@[simp] theorem State.modCore_cxl (s : State) (n : Nat) (g : CoreS → CoreS) : (s.modCore n g).cxl = s.cxl := rfl
@[simp] theorem State.modCore_llcOp (s : State) (n : Nat) (g : CoreS → CoreS) : (s.modCore n g).llcOp = s.llcOp := rfl
@[simp] theorem State.modCore_resetting (s : State) (n : Nat) (g : CoreS → CoreS) : (s.modCore n g).resetting = s.resetting := rfl
@[simp] theorem State.modCore_flash (s : State) (n : Nat) (g : CoreS → CoreS) : (s.modCore n g).flash = s.flash := rfl
@[simp] theorem State.modCore_eclRail (s : State) (n : Nat) (g : CoreS → CoreS) : (s.modCore n g).eclRail = s.eclRail := rfl
@[simp] theorem State.modCore_thermtrip (s : State) (n : Nat) (g : CoreS → CoreS) : (s.modCore n g).thermtrip = s.thermtrip := rfl
@[simp] theorem State.modCore_shutReq (s : State) (n : Nat) (g : CoreS → CoreS) : (s.modCore n g).shutReq = s.shutReq := rfl
@[simp] theorem State.modCore_gated (s : State) (n : Nat) (g : CoreS → CoreS) : (s.modCore n g).gated = s.gated := rfl
@[simp] theorem State.modCore_clockOn (s : State) (n : Nat) (g : CoreS → CoreS) : (s.modCore n g).clockOn = s.clockOn := rfl
@[simp] theorem State.modCore_hbAt (s : State) (n : Nat) (g : CoreS → CoreS) : (s.modCore n g).hbAt = s.hbAt := rfl
@[simp] theorem State.modCore_clog (s : State) (n : Nat) (g : CoreS → CoreS) : (s.modCore n g).clog = s.clog := rfl
@[simp] theorem State.modCore_clogOvf (s : State) (n : Nat) (g : CoreS → CoreS) : (s.modCore n g).clogOvf = s.clogOvf := rfl
@[simp] theorem State.modCore_qps (s : State) (n : Nat) (g : CoreS → CoreS) : (s.modCore n g).qps = s.qps := rfl
@[simp] theorem State.modCore_allow (s : State) (n : Nat) (g : CoreS → CoreS) : (s.modCore n g).allow = s.allow := rfl
@[simp] theorem State.modCore_links (s : State) (n : Nat) (g : CoreS → CoreS) : (s.modCore n g).links = s.links := rfl
@[simp] theorem State.modCore_rte (s : State) (n : Nat) (g : CoreS → CoreS) : (s.modCore n g).rte = s.rte := rfl
@[simp] theorem State.modCore_freq (s : State) (n : Nat) (g : CoreS → CoreS) : (s.modCore n g).freq = s.freq := rfl
@[simp] theorem State.modCore_certs (s : State) (n : Nat) (g : CoreS → CoreS) : (s.modCore n g).certs = s.certs := rfl
@[simp] theorem State.modCore_mapSwap (s : State) (n : Nat) (g : CoreS → CoreS) : (s.modCore n g).mapSwap = s.mapSwap := rfl
@[simp] theorem State.modCore_groups (s : State) (n : Nat) (g : CoreS → CoreS) : (s.modCore n g).groups = s.groups := rfl
@[simp] theorem State.modCore_cops (s : State) (n : Nat) (g : CoreS → CoreS) : (s.modCore n g).cops = s.cops := rfl
@[simp] theorem State.modCore_cdem (s : State) (n : Nat) (g : CoreS → CoreS) : (s.modCore n g).cdem = s.cdem := rfl
@[simp] theorem State.modCore_early (s : State) (n : Nat) (g : CoreS → CoreS) : (s.modCore n g).early = s.early := rfl
@[simp] theorem State.modCore_umbra (s : State) (n : Nat) (g : CoreS → CoreS) : (s.modCore n g).umbra = s.umbra := rfl
@[simp] theorem State.modCore_flux (s : State) (n : Nat) (g : CoreS → CoreS) : (s.modCore n g).flux = s.flux := rfl
@[simp] theorem State.modCore_resets (s : State) (n : Nat) (g : CoreS → CoreS) : (s.modCore n g).resets = s.resets := rfl
@[simp] theorem State.modCore_prtRuns (s : State) (n : Nat) (g : CoreS → CoreS) : (s.modCore n g).prtRuns = s.prtRuns := rfl
@[simp] theorem State.modCore_secp (s : State) (n : Nat) (g : CoreS → CoreS) : (s.modCore n g).secp = s.secp := rfl
@[simp] theorem State.modCore_keys (s : State) (n : Nat) (g : CoreS → CoreS) : (s.modCore n g).keys = s.keys := rfl
@[simp] theorem State.modCore_unseals (s : State) (n : Nat) (g : CoreS → CoreS) : (s.modCore n g).unseals = s.unseals := rfl
@[simp] theorem State.modCore_sessions (s : State) (n : Nat) (g : CoreS → CoreS) : (s.modCore n g).sessions = s.sessions := rfl
@[simp] theorem State.modCore_relays (s : State) (n : Nat) (g : CoreS → CoreS) : (s.modCore n g).relays = s.relays := rfl
@[simp] theorem State.modCore_opens (s : State) (n : Nat) (g : CoreS → CoreS) : (s.modCore n g).opens = s.opens := rfl
@[simp] theorem State.modCore_fw (s : State) (n : Nat) (g : CoreS → CoreS) : (s.modCore n g).fw = s.fw := rfl
@[simp] theorem State.modCore_deferred (s : State) (n : Nat) (g : CoreS → CoreS) : (s.modCore n g).deferred = s.deferred := rfl
@[simp] theorem State.modCore_fuses (s : State) (n : Nat) (g : CoreS → CoreS) : (s.modCore n g).fuses = s.fuses := rfl
@[simp] theorem State.modCore_boot (s : State) (n : Nat) (g : CoreS → CoreS) : (s.modCore n g).boot = s.boot := rfl
@[simp] theorem State.modCore_pow (s : State) (n : Nat) (g : CoreS → CoreS) : (s.modCore n g).pow = s.pow := rfl
@[simp] theorem State.modCore_pins (s : State) (n : Nat) (g : CoreS → CoreS) : (s.modCore n g).pins = s.pins := rfl
@[simp] theorem State.modCore_samps (s : State) (n : Nat) (g : CoreS → CoreS) : (s.modCore n g).samps = s.samps := rfl
@[simp] theorem State.modCore_coarse (s : State) (n : Nat) (g : CoreS → CoreS) : (s.modCore n g).coarse = s.coarse := rfl

@[simp] theorem State.emit_pending (s : State) (o : Outbound) : (s.emit o).pending = s.pending := rfl
@[simp] theorem State.emit_regs (s : State) (o : Outbound) : (s.emit o).regs = s.regs := rfl
@[simp] theorem State.emit_mem (s : State) (o : Outbound) : (s.emit o).mem = s.mem := rfl
@[simp] theorem State.emit_poison (s : State) (o : Outbound) : (s.emit o).poison = s.poison := rfl
@[simp] theorem State.emit_spw (s : State) (o : Outbound) : (s.emit o).spw = s.spw := rfl
@[simp] theorem State.emit_llc (s : State) (o : Outbound) : (s.emit o).llc = s.llc := rfl
@[simp] theorem State.emit_plru (s : State) (o : Outbound) : (s.emit o).plru = s.plru := rfl
@[simp] theorem State.emit_snoop (s : State) (o : Outbound) : (s.emit o).snoop = s.snoop := rfl
@[simp] theorem State.emit_hlc (s : State) (o : Outbound) : (s.emit o).hlc = s.hlc := rfl
@[simp] theorem State.emit_mchs (s : State) (o : Outbound) : (s.emit o).mchs = s.mchs := rfl
@[simp] theorem State.emit_mslots (s : State) (o : Outbound) : (s.emit o).mslots = s.mslots := rfl
@[simp] theorem State.emit_cores (s : State) (o : Outbound) : (s.emit o).cores = s.cores := rfl
@[simp] theorem State.emit_evrem (s : State) (o : Outbound) : (s.emit o).evrem = s.evrem := rfl
@[simp] theorem State.emit_bars (s : State) (o : Outbound) : (s.emit o).bars = s.bars := rfl
@[simp] theorem State.emit_arbs (s : State) (o : Outbound) : (s.emit o).arbs = s.arbs := rfl
@[simp] theorem State.emit_xq (s : State) (o : Outbound) : (s.emit o).xq = s.xq := rfl
@[simp] theorem State.emit_strTurn (s : State) (o : Outbound) : (s.emit o).strTurn = s.strTurn := rfl
@[simp] theorem State.emit_strs (s : State) (o : Outbound) : (s.emit o).strs = s.strs := rfl
@[simp] theorem State.emit_err (s : State) (o : Outbound) : (s.emit o).err = s.err := rfl
@[simp] theorem State.emit_tailq (s : State) (o : Outbound) : (s.emit o).tailq = s.tailq := rfl
@[simp] theorem State.emit_tbufs (s : State) (o : Outbound) : (s.emit o).tbufs = s.tbufs := rfl
@[simp] theorem State.emit_tokens (s : State) (o : Outbound) : (s.emit o).tokens = s.tokens := rfl
@[simp] theorem State.emit_resp (s : State) (o : Outbound) : (s.emit o).resp = s.resp := rfl
@[simp] theorem State.emit_time (s : State) (o : Outbound) : (s.emit o).time = s.time := rfl
@[simp] theorem State.emit_free (s : State) (o : Outbound) : (s.emit o).free = s.free := rfl
@[simp] theorem State.emit_failed (s : State) (o : Outbound) : (s.emit o).failed = s.failed := rfl
@[simp] theorem State.emit_tripped (s : State) (o : Outbound) : (s.emit o).tripped = s.tripped := rfl
@[simp] theorem State.emit_arbCls (s : State) (o : Outbound) : (s.emit o).arbCls = s.arbCls := rfl
@[simp] theorem State.emit_rtq (s : State) (o : Outbound) : (s.emit o).rtq = s.rtq := rfl
@[simp] theorem State.emit_rtRun (s : State) (o : Outbound) : (s.emit o).rtRun = s.rtRun := rfl
@[simp] theorem State.emit_bisnp (s : State) (o : Outbound) : (s.emit o).bisnp = s.bisnp := rfl
@[simp] theorem State.emit_snpq (s : State) (o : Outbound) : (s.emit o).snpq = s.snpq := rfl
@[simp] theorem State.emit_rgnLim (s : State) (o : Outbound) : (s.emit o).rgnLim = s.rgnLim := rfl
@[simp] theorem State.emit_rgnq (s : State) (o : Outbound) : (s.emit o).rgnq = s.rgnq := rfl
@[simp] theorem State.emit_prtq (s : State) (o : Outbound) : (s.emit o).prtq = s.prtq := rfl
@[simp] theorem State.emit_cxl (s : State) (o : Outbound) : (s.emit o).cxl = s.cxl := rfl
@[simp] theorem State.emit_llcOp (s : State) (o : Outbound) : (s.emit o).llcOp = s.llcOp := rfl
@[simp] theorem State.emit_resetting (s : State) (o : Outbound) : (s.emit o).resetting = s.resetting := rfl
@[simp] theorem State.emit_flash (s : State) (o : Outbound) : (s.emit o).flash = s.flash := rfl
@[simp] theorem State.emit_eclRail (s : State) (o : Outbound) : (s.emit o).eclRail = s.eclRail := rfl
@[simp] theorem State.emit_thermtrip (s : State) (o : Outbound) : (s.emit o).thermtrip = s.thermtrip := rfl
@[simp] theorem State.emit_shutReq (s : State) (o : Outbound) : (s.emit o).shutReq = s.shutReq := rfl
@[simp] theorem State.emit_gated (s : State) (o : Outbound) : (s.emit o).gated = s.gated := rfl
@[simp] theorem State.emit_clockOn (s : State) (o : Outbound) : (s.emit o).clockOn = s.clockOn := rfl
@[simp] theorem State.emit_hbAt (s : State) (o : Outbound) : (s.emit o).hbAt = s.hbAt := rfl
@[simp] theorem State.emit_clog (s : State) (o : Outbound) : (s.emit o).clog = s.clog := rfl
@[simp] theorem State.emit_clogOvf (s : State) (o : Outbound) : (s.emit o).clogOvf = s.clogOvf := rfl
@[simp] theorem State.emit_qps (s : State) (o : Outbound) : (s.emit o).qps = s.qps := rfl
@[simp] theorem State.emit_allow (s : State) (o : Outbound) : (s.emit o).allow = s.allow := rfl
@[simp] theorem State.emit_links (s : State) (o : Outbound) : (s.emit o).links = s.links := rfl
@[simp] theorem State.emit_rte (s : State) (o : Outbound) : (s.emit o).rte = s.rte := rfl
@[simp] theorem State.emit_freq (s : State) (o : Outbound) : (s.emit o).freq = s.freq := rfl
@[simp] theorem State.emit_certs (s : State) (o : Outbound) : (s.emit o).certs = s.certs := rfl
@[simp] theorem State.emit_mapSwap (s : State) (o : Outbound) : (s.emit o).mapSwap = s.mapSwap := rfl
@[simp] theorem State.emit_groups (s : State) (o : Outbound) : (s.emit o).groups = s.groups := rfl
@[simp] theorem State.emit_cops (s : State) (o : Outbound) : (s.emit o).cops = s.cops := rfl
@[simp] theorem State.emit_cdem (s : State) (o : Outbound) : (s.emit o).cdem = s.cdem := rfl
@[simp] theorem State.emit_early (s : State) (o : Outbound) : (s.emit o).early = s.early := rfl
@[simp] theorem State.emit_umbra (s : State) (o : Outbound) : (s.emit o).umbra = s.umbra := rfl
@[simp] theorem State.emit_flux (s : State) (o : Outbound) : (s.emit o).flux = s.flux := rfl
@[simp] theorem State.emit_resets (s : State) (o : Outbound) : (s.emit o).resets = s.resets := rfl
@[simp] theorem State.emit_prtRuns (s : State) (o : Outbound) : (s.emit o).prtRuns = s.prtRuns := rfl
@[simp] theorem State.emit_secp (s : State) (o : Outbound) : (s.emit o).secp = s.secp := rfl
@[simp] theorem State.emit_keys (s : State) (o : Outbound) : (s.emit o).keys = s.keys := rfl
@[simp] theorem State.emit_unseals (s : State) (o : Outbound) : (s.emit o).unseals = s.unseals := rfl
@[simp] theorem State.emit_sessions (s : State) (o : Outbound) : (s.emit o).sessions = s.sessions := rfl
@[simp] theorem State.emit_relays (s : State) (o : Outbound) : (s.emit o).relays = s.relays := rfl
@[simp] theorem State.emit_opens (s : State) (o : Outbound) : (s.emit o).opens = s.opens := rfl
@[simp] theorem State.emit_fw (s : State) (o : Outbound) : (s.emit o).fw = s.fw := rfl
@[simp] theorem State.emit_deferred (s : State) (o : Outbound) : (s.emit o).deferred = s.deferred := rfl
@[simp] theorem State.emit_fuses (s : State) (o : Outbound) : (s.emit o).fuses = s.fuses := rfl
@[simp] theorem State.emit_boot (s : State) (o : Outbound) : (s.emit o).boot = s.boot := rfl
@[simp] theorem State.emit_pow (s : State) (o : Outbound) : (s.emit o).pow = s.pow := rfl
@[simp] theorem State.emit_pins (s : State) (o : Outbound) : (s.emit o).pins = s.pins := rfl
@[simp] theorem State.emit_samps (s : State) (o : Outbound) : (s.emit o).samps = s.samps := rfl
@[simp] theorem State.emit_coarse (s : State) (o : Outbound) : (s.emit o).coarse = s.coarse := rfl

@[simp] theorem State.answer_pending (s : State) (st : Nat) (d : Bytes) : (s.answer st d).pending = s.pending := rfl
@[simp] theorem State.answer_regs (s : State) (st : Nat) (d : Bytes) : (s.answer st d).regs = s.regs := rfl
@[simp] theorem State.answer_mem (s : State) (st : Nat) (d : Bytes) : (s.answer st d).mem = s.mem := rfl
@[simp] theorem State.answer_poison (s : State) (st : Nat) (d : Bytes) : (s.answer st d).poison = s.poison := rfl
@[simp] theorem State.answer_spw (s : State) (st : Nat) (d : Bytes) : (s.answer st d).spw = s.spw := rfl
@[simp] theorem State.answer_llc (s : State) (st : Nat) (d : Bytes) : (s.answer st d).llc = s.llc := rfl
@[simp] theorem State.answer_plru (s : State) (st : Nat) (d : Bytes) : (s.answer st d).plru = s.plru := rfl
@[simp] theorem State.answer_snoop (s : State) (st : Nat) (d : Bytes) : (s.answer st d).snoop = s.snoop := rfl
@[simp] theorem State.answer_hlc (s : State) (st : Nat) (d : Bytes) : (s.answer st d).hlc = s.hlc := rfl
@[simp] theorem State.answer_mchs (s : State) (st : Nat) (d : Bytes) : (s.answer st d).mchs = s.mchs := rfl
@[simp] theorem State.answer_mslots (s : State) (st : Nat) (d : Bytes) : (s.answer st d).mslots = s.mslots := rfl
@[simp] theorem State.answer_cores (s : State) (st : Nat) (d : Bytes) : (s.answer st d).cores = s.cores := rfl
@[simp] theorem State.answer_evrem (s : State) (st : Nat) (d : Bytes) : (s.answer st d).evrem = s.evrem := rfl
@[simp] theorem State.answer_bars (s : State) (st : Nat) (d : Bytes) : (s.answer st d).bars = s.bars := rfl
@[simp] theorem State.answer_arbs (s : State) (st : Nat) (d : Bytes) : (s.answer st d).arbs = s.arbs := rfl
@[simp] theorem State.answer_xq (s : State) (st : Nat) (d : Bytes) : (s.answer st d).xq = s.xq := rfl
@[simp] theorem State.answer_strTurn (s : State) (st : Nat) (d : Bytes) : (s.answer st d).strTurn = s.strTurn := rfl
@[simp] theorem State.answer_strs (s : State) (st : Nat) (d : Bytes) : (s.answer st d).strs = s.strs := rfl
@[simp] theorem State.answer_err (s : State) (st : Nat) (d : Bytes) : (s.answer st d).err = s.err := rfl
@[simp] theorem State.answer_tailq (s : State) (st : Nat) (d : Bytes) : (s.answer st d).tailq = s.tailq := rfl
@[simp] theorem State.answer_tbufs (s : State) (st : Nat) (d : Bytes) : (s.answer st d).tbufs = s.tbufs := rfl
@[simp] theorem State.answer_tokens (s : State) (st : Nat) (d : Bytes) : (s.answer st d).tokens = s.tokens := rfl
@[simp] theorem State.answer_outbox (s : State) (st : Nat) (d : Bytes) : (s.answer st d).outbox = s.outbox := rfl
@[simp] theorem State.answer_time (s : State) (st : Nat) (d : Bytes) : (s.answer st d).time = s.time := rfl
@[simp] theorem State.answer_free (s : State) (st : Nat) (d : Bytes) : (s.answer st d).free = s.free := rfl
@[simp] theorem State.answer_failed (s : State) (st : Nat) (d : Bytes) : (s.answer st d).failed = s.failed := rfl
@[simp] theorem State.answer_tripped (s : State) (st : Nat) (d : Bytes) : (s.answer st d).tripped = s.tripped := rfl
@[simp] theorem State.answer_arbCls (s : State) (st : Nat) (d : Bytes) : (s.answer st d).arbCls = s.arbCls := rfl
@[simp] theorem State.answer_rtq (s : State) (st : Nat) (d : Bytes) : (s.answer st d).rtq = s.rtq := rfl
@[simp] theorem State.answer_rtRun (s : State) (st : Nat) (d : Bytes) : (s.answer st d).rtRun = s.rtRun := rfl
@[simp] theorem State.answer_bisnp (s : State) (st : Nat) (d : Bytes) : (s.answer st d).bisnp = s.bisnp := rfl
@[simp] theorem State.answer_snpq (s : State) (st : Nat) (d : Bytes) : (s.answer st d).snpq = s.snpq := rfl
@[simp] theorem State.answer_rgnLim (s : State) (st : Nat) (d : Bytes) : (s.answer st d).rgnLim = s.rgnLim := rfl
@[simp] theorem State.answer_rgnq (s : State) (st : Nat) (d : Bytes) : (s.answer st d).rgnq = s.rgnq := rfl
@[simp] theorem State.answer_prtq (s : State) (st : Nat) (d : Bytes) : (s.answer st d).prtq = s.prtq := rfl
@[simp] theorem State.answer_cxl (s : State) (st : Nat) (d : Bytes) : (s.answer st d).cxl = s.cxl := rfl
@[simp] theorem State.answer_llcOp (s : State) (st : Nat) (d : Bytes) : (s.answer st d).llcOp = s.llcOp := rfl
@[simp] theorem State.answer_resetting (s : State) (st : Nat) (d : Bytes) : (s.answer st d).resetting = s.resetting := rfl
@[simp] theorem State.answer_flash (s : State) (st : Nat) (d : Bytes) : (s.answer st d).flash = s.flash := rfl
@[simp] theorem State.answer_eclRail (s : State) (st : Nat) (d : Bytes) : (s.answer st d).eclRail = s.eclRail := rfl
@[simp] theorem State.answer_thermtrip (s : State) (st : Nat) (d : Bytes) : (s.answer st d).thermtrip = s.thermtrip := rfl
@[simp] theorem State.answer_shutReq (s : State) (st : Nat) (d : Bytes) : (s.answer st d).shutReq = s.shutReq := rfl
@[simp] theorem State.answer_gated (s : State) (st : Nat) (d : Bytes) : (s.answer st d).gated = s.gated := rfl
@[simp] theorem State.answer_clockOn (s : State) (st : Nat) (d : Bytes) : (s.answer st d).clockOn = s.clockOn := rfl
@[simp] theorem State.answer_hbAt (s : State) (st : Nat) (d : Bytes) : (s.answer st d).hbAt = s.hbAt := rfl
@[simp] theorem State.answer_clog (s : State) (st : Nat) (d : Bytes) : (s.answer st d).clog = s.clog := rfl
@[simp] theorem State.answer_clogOvf (s : State) (st : Nat) (d : Bytes) : (s.answer st d).clogOvf = s.clogOvf := rfl
@[simp] theorem State.answer_qps (s : State) (st : Nat) (d : Bytes) : (s.answer st d).qps = s.qps := rfl
@[simp] theorem State.answer_allow (s : State) (st : Nat) (d : Bytes) : (s.answer st d).allow = s.allow := rfl
@[simp] theorem State.answer_links (s : State) (st : Nat) (d : Bytes) : (s.answer st d).links = s.links := rfl
@[simp] theorem State.answer_rte (s : State) (st : Nat) (d : Bytes) : (s.answer st d).rte = s.rte := rfl
@[simp] theorem State.answer_freq (s : State) (st : Nat) (d : Bytes) : (s.answer st d).freq = s.freq := rfl
@[simp] theorem State.answer_certs (s : State) (st : Nat) (d : Bytes) : (s.answer st d).certs = s.certs := rfl
@[simp] theorem State.answer_mapSwap (s : State) (st : Nat) (d : Bytes) : (s.answer st d).mapSwap = s.mapSwap := rfl
@[simp] theorem State.answer_groups (s : State) (st : Nat) (d : Bytes) : (s.answer st d).groups = s.groups := rfl
@[simp] theorem State.answer_cops (s : State) (st : Nat) (d : Bytes) : (s.answer st d).cops = s.cops := rfl
@[simp] theorem State.answer_cdem (s : State) (st : Nat) (d : Bytes) : (s.answer st d).cdem = s.cdem := rfl
@[simp] theorem State.answer_early (s : State) (st : Nat) (d : Bytes) : (s.answer st d).early = s.early := rfl
@[simp] theorem State.answer_umbra (s : State) (st : Nat) (d : Bytes) : (s.answer st d).umbra = s.umbra := rfl
@[simp] theorem State.answer_flux (s : State) (st : Nat) (d : Bytes) : (s.answer st d).flux = s.flux := rfl
@[simp] theorem State.answer_resets (s : State) (st : Nat) (d : Bytes) : (s.answer st d).resets = s.resets := rfl
@[simp] theorem State.answer_prtRuns (s : State) (st : Nat) (d : Bytes) : (s.answer st d).prtRuns = s.prtRuns := rfl
@[simp] theorem State.answer_secp (s : State) (st : Nat) (d : Bytes) : (s.answer st d).secp = s.secp := rfl
@[simp] theorem State.answer_keys (s : State) (st : Nat) (d : Bytes) : (s.answer st d).keys = s.keys := rfl
@[simp] theorem State.answer_unseals (s : State) (st : Nat) (d : Bytes) : (s.answer st d).unseals = s.unseals := rfl
@[simp] theorem State.answer_sessions (s : State) (st : Nat) (d : Bytes) : (s.answer st d).sessions = s.sessions := rfl
@[simp] theorem State.answer_relays (s : State) (st : Nat) (d : Bytes) : (s.answer st d).relays = s.relays := rfl
@[simp] theorem State.answer_opens (s : State) (st : Nat) (d : Bytes) : (s.answer st d).opens = s.opens := rfl
@[simp] theorem State.answer_fw (s : State) (st : Nat) (d : Bytes) : (s.answer st d).fw = s.fw := rfl
@[simp] theorem State.answer_deferred (s : State) (st : Nat) (d : Bytes) : (s.answer st d).deferred = s.deferred := rfl
@[simp] theorem State.answer_fuses (s : State) (st : Nat) (d : Bytes) : (s.answer st d).fuses = s.fuses := rfl
@[simp] theorem State.answer_boot (s : State) (st : Nat) (d : Bytes) : (s.answer st d).boot = s.boot := rfl
@[simp] theorem State.answer_pow (s : State) (st : Nat) (d : Bytes) : (s.answer st d).pow = s.pow := rfl
@[simp] theorem State.answer_pins (s : State) (st : Nat) (d : Bytes) : (s.answer st d).pins = s.pins := rfl
@[simp] theorem State.answer_samps (s : State) (st : Nat) (d : Bytes) : (s.answer st d).samps = s.samps := rfl
@[simp] theorem State.answer_coarse (s : State) (st : Nat) (d : Bytes) : (s.answer st d).coarse = s.coarse := rfl

@[simp] theorem State.setByte_pending (s : State) (a : Nat) (b : Byte) : (s.setByte a b).pending = s.pending := rfl
@[simp] theorem State.setByte_regs (s : State) (a : Nat) (b : Byte) : (s.setByte a b).regs = s.regs := rfl
@[simp] theorem State.setByte_poison (s : State) (a : Nat) (b : Byte) : (s.setByte a b).poison = s.poison := rfl
@[simp] theorem State.setByte_spw (s : State) (a : Nat) (b : Byte) : (s.setByte a b).spw = s.spw := rfl
@[simp] theorem State.setByte_llc (s : State) (a : Nat) (b : Byte) : (s.setByte a b).llc = s.llc := rfl
@[simp] theorem State.setByte_plru (s : State) (a : Nat) (b : Byte) : (s.setByte a b).plru = s.plru := rfl
@[simp] theorem State.setByte_snoop (s : State) (a : Nat) (b : Byte) : (s.setByte a b).snoop = s.snoop := rfl
@[simp] theorem State.setByte_hlc (s : State) (a : Nat) (b : Byte) : (s.setByte a b).hlc = s.hlc := rfl
@[simp] theorem State.setByte_mchs (s : State) (a : Nat) (b : Byte) : (s.setByte a b).mchs = s.mchs := rfl
@[simp] theorem State.setByte_mslots (s : State) (a : Nat) (b : Byte) : (s.setByte a b).mslots = s.mslots := rfl
@[simp] theorem State.setByte_cores (s : State) (a : Nat) (b : Byte) : (s.setByte a b).cores = s.cores := rfl
@[simp] theorem State.setByte_evrem (s : State) (a : Nat) (b : Byte) : (s.setByte a b).evrem = s.evrem := rfl
@[simp] theorem State.setByte_bars (s : State) (a : Nat) (b : Byte) : (s.setByte a b).bars = s.bars := rfl
@[simp] theorem State.setByte_arbs (s : State) (a : Nat) (b : Byte) : (s.setByte a b).arbs = s.arbs := rfl
@[simp] theorem State.setByte_xq (s : State) (a : Nat) (b : Byte) : (s.setByte a b).xq = s.xq := rfl
@[simp] theorem State.setByte_strTurn (s : State) (a : Nat) (b : Byte) : (s.setByte a b).strTurn = s.strTurn := rfl
@[simp] theorem State.setByte_strs (s : State) (a : Nat) (b : Byte) : (s.setByte a b).strs = s.strs := rfl
@[simp] theorem State.setByte_err (s : State) (a : Nat) (b : Byte) : (s.setByte a b).err = s.err := rfl
@[simp] theorem State.setByte_tailq (s : State) (a : Nat) (b : Byte) : (s.setByte a b).tailq = s.tailq := rfl
@[simp] theorem State.setByte_tbufs (s : State) (a : Nat) (b : Byte) : (s.setByte a b).tbufs = s.tbufs := rfl
@[simp] theorem State.setByte_tokens (s : State) (a : Nat) (b : Byte) : (s.setByte a b).tokens = s.tokens := rfl
@[simp] theorem State.setByte_resp (s : State) (a : Nat) (b : Byte) : (s.setByte a b).resp = s.resp := rfl
@[simp] theorem State.setByte_outbox (s : State) (a : Nat) (b : Byte) : (s.setByte a b).outbox = s.outbox := rfl
@[simp] theorem State.setByte_time (s : State) (a : Nat) (b : Byte) : (s.setByte a b).time = s.time := rfl
@[simp] theorem State.setByte_free (s : State) (a : Nat) (b : Byte) : (s.setByte a b).free = s.free := rfl
@[simp] theorem State.setByte_failed (s : State) (a : Nat) (b : Byte) : (s.setByte a b).failed = s.failed := rfl
@[simp] theorem State.setByte_tripped (s : State) (a : Nat) (b : Byte) : (s.setByte a b).tripped = s.tripped := rfl
@[simp] theorem State.setByte_arbCls (s : State) (a : Nat) (b : Byte) : (s.setByte a b).arbCls = s.arbCls := rfl
@[simp] theorem State.setByte_rtq (s : State) (a : Nat) (b : Byte) : (s.setByte a b).rtq = s.rtq := rfl
@[simp] theorem State.setByte_rtRun (s : State) (a : Nat) (b : Byte) : (s.setByte a b).rtRun = s.rtRun := rfl
@[simp] theorem State.setByte_bisnp (s : State) (a : Nat) (b : Byte) : (s.setByte a b).bisnp = s.bisnp := rfl
@[simp] theorem State.setByte_snpq (s : State) (a : Nat) (b : Byte) : (s.setByte a b).snpq = s.snpq := rfl
@[simp] theorem State.setByte_rgnLim (s : State) (a : Nat) (b : Byte) : (s.setByte a b).rgnLim = s.rgnLim := rfl
@[simp] theorem State.setByte_rgnq (s : State) (a : Nat) (b : Byte) : (s.setByte a b).rgnq = s.rgnq := rfl
@[simp] theorem State.setByte_prtq (s : State) (a : Nat) (b : Byte) : (s.setByte a b).prtq = s.prtq := rfl
@[simp] theorem State.setByte_cxl (s : State) (a : Nat) (b : Byte) : (s.setByte a b).cxl = s.cxl := rfl
@[simp] theorem State.setByte_llcOp (s : State) (a : Nat) (b : Byte) : (s.setByte a b).llcOp = s.llcOp := rfl
@[simp] theorem State.setByte_resetting (s : State) (a : Nat) (b : Byte) : (s.setByte a b).resetting = s.resetting := rfl
@[simp] theorem State.setByte_flash (s : State) (a : Nat) (b : Byte) : (s.setByte a b).flash = s.flash := rfl
@[simp] theorem State.setByte_eclRail (s : State) (a : Nat) (b : Byte) : (s.setByte a b).eclRail = s.eclRail := rfl
@[simp] theorem State.setByte_thermtrip (s : State) (a : Nat) (b : Byte) : (s.setByte a b).thermtrip = s.thermtrip := rfl
@[simp] theorem State.setByte_shutReq (s : State) (a : Nat) (b : Byte) : (s.setByte a b).shutReq = s.shutReq := rfl
@[simp] theorem State.setByte_gated (s : State) (a : Nat) (b : Byte) : (s.setByte a b).gated = s.gated := rfl
@[simp] theorem State.setByte_clockOn (s : State) (a : Nat) (b : Byte) : (s.setByte a b).clockOn = s.clockOn := rfl
@[simp] theorem State.setByte_hbAt (s : State) (a : Nat) (b : Byte) : (s.setByte a b).hbAt = s.hbAt := rfl
@[simp] theorem State.setByte_clog (s : State) (a : Nat) (b : Byte) : (s.setByte a b).clog = s.clog := rfl
@[simp] theorem State.setByte_clogOvf (s : State) (a : Nat) (b : Byte) : (s.setByte a b).clogOvf = s.clogOvf := rfl
@[simp] theorem State.setByte_qps (s : State) (a : Nat) (b : Byte) : (s.setByte a b).qps = s.qps := rfl
@[simp] theorem State.setByte_allow (s : State) (a : Nat) (b : Byte) : (s.setByte a b).allow = s.allow := rfl
@[simp] theorem State.setByte_links (s : State) (a : Nat) (b : Byte) : (s.setByte a b).links = s.links := rfl
@[simp] theorem State.setByte_rte (s : State) (a : Nat) (b : Byte) : (s.setByte a b).rte = s.rte := rfl
@[simp] theorem State.setByte_freq (s : State) (a : Nat) (b : Byte) : (s.setByte a b).freq = s.freq := rfl
@[simp] theorem State.setByte_certs (s : State) (a : Nat) (b : Byte) : (s.setByte a b).certs = s.certs := rfl
@[simp] theorem State.setByte_mapSwap (s : State) (a : Nat) (b : Byte) : (s.setByte a b).mapSwap = s.mapSwap := rfl
@[simp] theorem State.setByte_groups (s : State) (a : Nat) (b : Byte) : (s.setByte a b).groups = s.groups := rfl
@[simp] theorem State.setByte_cops (s : State) (a : Nat) (b : Byte) : (s.setByte a b).cops = s.cops := rfl
@[simp] theorem State.setByte_cdem (s : State) (a : Nat) (b : Byte) : (s.setByte a b).cdem = s.cdem := rfl
@[simp] theorem State.setByte_early (s : State) (a : Nat) (b : Byte) : (s.setByte a b).early = s.early := rfl
@[simp] theorem State.setByte_umbra (s : State) (a : Nat) (b : Byte) : (s.setByte a b).umbra = s.umbra := rfl
@[simp] theorem State.setByte_flux (s : State) (a : Nat) (b : Byte) : (s.setByte a b).flux = s.flux := rfl
@[simp] theorem State.setByte_resets (s : State) (a : Nat) (b : Byte) : (s.setByte a b).resets = s.resets := rfl
@[simp] theorem State.setByte_prtRuns (s : State) (a : Nat) (b : Byte) : (s.setByte a b).prtRuns = s.prtRuns := rfl
@[simp] theorem State.setByte_secp (s : State) (a : Nat) (b : Byte) : (s.setByte a b).secp = s.secp := rfl
@[simp] theorem State.setByte_keys (s : State) (a : Nat) (b : Byte) : (s.setByte a b).keys = s.keys := rfl
@[simp] theorem State.setByte_unseals (s : State) (a : Nat) (b : Byte) : (s.setByte a b).unseals = s.unseals := rfl
@[simp] theorem State.setByte_sessions (s : State) (a : Nat) (b : Byte) : (s.setByte a b).sessions = s.sessions := rfl
@[simp] theorem State.setByte_relays (s : State) (a : Nat) (b : Byte) : (s.setByte a b).relays = s.relays := rfl
@[simp] theorem State.setByte_opens (s : State) (a : Nat) (b : Byte) : (s.setByte a b).opens = s.opens := rfl
@[simp] theorem State.setByte_fw (s : State) (a : Nat) (b : Byte) : (s.setByte a b).fw = s.fw := rfl
@[simp] theorem State.setByte_deferred (s : State) (a : Nat) (b : Byte) : (s.setByte a b).deferred = s.deferred := rfl
@[simp] theorem State.setByte_fuses (s : State) (a : Nat) (b : Byte) : (s.setByte a b).fuses = s.fuses := rfl
@[simp] theorem State.setByte_boot (s : State) (a : Nat) (b : Byte) : (s.setByte a b).boot = s.boot := rfl
@[simp] theorem State.setByte_pow (s : State) (a : Nat) (b : Byte) : (s.setByte a b).pow = s.pow := rfl
@[simp] theorem State.setByte_pins (s : State) (a : Nat) (b : Byte) : (s.setByte a b).pins = s.pins := rfl
@[simp] theorem State.setByte_samps (s : State) (a : Nat) (b : Byte) : (s.setByte a b).samps = s.samps := rfl
@[simp] theorem State.setByte_coarse (s : State) (a : Nat) (b : Byte) : (s.setByte a b).coarse = s.coarse := rfl

/-! ### Registers -/

theorem State.reg_setReg (s : State) (r q : Reg) (v : Nat) :
    (s.setReg r v).reg q = if q.off = r.off then v % 2 ^ 64 else s.reg q := by
  unfold State.setReg State.reg
  simp only [Sparse.getD_setD]
  split <;> simp

/-- A register reads the word last set, modulo 2^64. -/
@[simp] theorem State.reg_setReg_self (s : State) (r : Reg) (v : Nat) : (s.setReg r v).reg r = v % 2 ^ 64 := by
  simp [State.reg_setReg]

/-- Setting a register leaves a register at another offset alone. -/
theorem State.reg_setReg_ne (s : State) {r q : Reg} (v : Nat) (h : q.off ≠ r.off) : (s.setReg r v).reg q = s.reg q := by
  simp [State.reg_setReg, h]

/-- Setting a field leaves a register at another offset alone. -/
theorem State.reg_fset_ne (s : State) {f : Fld} {q : Reg} (v : Nat) (h : q.off ≠ f.reg.off) : (s.fset f v).reg q = s.reg q :=
  State.reg_setReg_ne s _ h

@[simp] theorem State.reg_setCore (s : State) (n : Nat) (c : CoreS) (q : Reg) : (s.setCore n c).reg q = s.reg q := rfl
@[simp] theorem State.reg_modCore (s : State) (n : Nat) (g : CoreS → CoreS) (q : Reg) : (s.modCore n g).reg q = s.reg q := rfl
@[simp] theorem State.reg_emit (s : State) (o : Outbound) (q : Reg) : (s.emit o).reg q = s.reg q := rfl
@[simp] theorem State.reg_answer (s : State) (st : Nat) (d : Bytes) (q : Reg) : (s.answer st d).reg q = s.reg q := rfl
@[simp] theorem State.reg_setByte (s : State) (a : Nat) (b : Byte) (q : Reg) : (s.setByte a b).reg q = s.reg q := rfl
@[simp] theorem State.fget_setCore (s : State) (n : Nat) (c : CoreS) (f : Fld) : (s.setCore n c).fget f = s.fget f := rfl
@[simp] theorem State.fget_modCore (s : State) (n : Nat) (g : CoreS → CoreS) (f : Fld) : (s.modCore n g).fget f = s.fget f := rfl
@[simp] theorem State.fget_emit (s : State) (o : Outbound) (f : Fld) : (s.emit o).fget f = s.fget f := rfl
@[simp] theorem State.fget_answer (s : State) (st : Nat) (d : Bytes) (f : Fld) : (s.answer st d).fget f = s.fget f := rfl
@[simp] theorem State.fget_setByte (s : State) (a : Nat) (b : Byte) (f : Fld) : (s.setByte a b).fget f = s.fget f := rfl

/-! ### Cores -/

@[simp] theorem State.core_setCore_self (s : State) (n : Nat) (c : CoreS) : (s.setCore n c).core n = c := by
  simp [State.core, State.setCore]

theorem State.core_setCore_ne (s : State) {n m : Nat} (c : CoreS) (h : m ≠ n) : (s.setCore n c).core m = s.core m :=
  Sparse.getD_setD_ne _ _ _ h

@[simp] theorem State.core_modCore_self (s : State) (n : Nat) (g : CoreS → CoreS) : (s.modCore n g).core n = g (s.core n) :=
  State.core_setCore_self s n _

theorem State.core_modCore_ne (s : State) {n m : Nat} (g : CoreS → CoreS) (h : m ≠ n) : (s.modCore n g).core m = s.core m :=
  State.core_setCore_ne s _ h

@[simp] theorem State.core_setReg (s : State) (r : Reg) (v n : Nat) : (s.setReg r v).core n = s.core n := rfl
@[simp] theorem State.core_fset (s : State) (f : Fld) (v n : Nat) : (s.fset f v).core n = s.core n := rfl
@[simp] theorem State.core_fsat (s : State) (f : Fld) (v n : Nat) : (s.fsat f v).core n = s.core n := rfl
@[simp] theorem State.core_finc (s : State) (f : Fld) (v n : Nat) : (s.finc f v).core n = s.core n := rfl
@[simp] theorem State.core_setByte (s : State) (a : Nat) (b : Byte) (n : Nat) : (s.setByte a b).core n = s.core n := rfl
@[simp] theorem State.core_emit (s : State) (o : Outbound) (n : Nat) : (s.emit o).core n = s.core n := rfl

/-- s0 reads 0 whatever is written to it. -/
@[simp] theorem CoreS.reg_zero (c : CoreS) : c.reg 0 = 0 := rfl

/-- A register of a core other than s0 reads the value written. -/
theorem CoreS.reg_setReg_self (c : CoreS) {i : Nat} (v : Word) (h : i ≠ 0) : (c.setReg i v).reg i = v := by
  simp [CoreS.reg, CoreS.setReg, h]

/-- Writing one register of a core leaves the others alone. -/
theorem CoreS.reg_setReg_ne (c : CoreS) {i j : Nat} (v : Word) (h : j ≠ i) : (c.setReg i v).reg j = c.reg j := by
  by_cases hi : i = 0
  · simp [CoreS.setReg, hi]
  · by_cases hj : j = 0
    · simp [hj]
    · simp [CoreS.reg, CoreS.setReg, hi, hj, Sparse.getD_setD_ne _ _ _ h]

/-! ### Bytes of memory -/

@[simp] theorem State.memKey_setByte (s : State) (a : Nat) (b : Byte) (x : Nat) : (s.setByte a b).memKey x = s.memKey x := rfl

/-- A read after a write of the same byte gives the value written. -/
@[simp] theorem State.getByte_setByte_self (s : State) (a : Nat) (b : Byte) : (s.setByte a b).getByte a = b := by
  exact Sparse.getD_setD_self memDflt s.mem (s.memKey a) b

/-- A write leaves every byte with another place alone. -/
theorem State.getByte_setByte_ne (s : State) {a x : Nat} (b : Byte) (h : s.memKey x ≠ s.memKey a) :
    (s.setByte a b).getByte x = s.getByte x := by
  exact Sparse.getD_setD_ne memDflt s.mem b h

/-- Storing a byte keeps memory canonical. -/
theorem State.wf_setByte (s : State) (a : Nat) (b : Byte) (h : Memory.wf s.mem = true) : Memory.wf (s.setByte a b).mem = true :=
  Sparse.wf_setD memDflt s.mem _ b h

/-- Storing bytes keeps memory canonical. -/
theorem State.wf_setBytes (d : Bytes) (s : State) (a : Nat) (h : Memory.wf s.mem = true) : Memory.wf (s.setBytes a d).mem = true := by
  induction d generalizing s a with
  | nil => exact h
  | cons b bs ih => exact ih _ _ (State.wf_setByte s a b h)

/-- Storing bytes changes memory only. -/
theorem State.setBytes_eq (d : Bytes) (s : State) (a : Nat) : s.setBytes a d = { s with mem := (s.setBytes a d).mem } := by
  induction d generalizing s a with
  | nil => rfl
  | cons b bs ih =>
    rw [show s.setBytes a (b :: bs) = (s.setByte a b).setBytes (a + 1) bs from rfl, ih]
    rfl

/-- Marking poison keeps memory as it is. -/
@[simp] theorem State.setPoison_mem (s : State) (a : Nat) (b : Bool) : (s.setPoison a b).mem = s.mem := by
  unfold State.setPoison; split <;> rfl

/-- Bytes that a drain may still write keep memory as it is while they are drawn. -/
theorem State.raceBytes_mem (s : State) (a : Nat) (d : Bytes) : (s.raceBytes a d).2.mem = s.mem := by
  induction d generalizing s a with
  | nil => rfl
  | cons b bs ih => simp only [State.raceBytes]; rw [ih]; split <;> rfl

/-- Storing bytes that race a drain keeps memory canonical. -/
theorem State.wf_setRaced (s : State) (a : Nat) (d : Bytes) (h : Memory.wf s.mem = true) : Memory.wf (s.setRaced a d).mem = true := by
  unfold State.setRaced
  split
  · exact State.wf_setBytes _ _ _ (by rw [State.raceBytes_mem]; exact h)
  · exact State.wf_setBytes _ _ _ h

/-- A burst's write keeps memory canonical. -/
theorem State.wf_writeLine (s : State) (a : Nat) (d : Bytes) (l : Nat) (h : Memory.wf s.mem = true) :
    Memory.wf (s.writeLine a d l).2.mem = true := by
  unfold State.writeLine
  generalize lineSlice a d l = p
  dsimp only
  split
  · exact h
  · split
    · split
      · exact State.wf_setBytes _ _ _ (by simpa using h)
      · exact h
    · exact State.wf_setRaced _ _ _ h

/-- Every write keeps memory canonical. -/
theorem State.wf_write (s : State) (a : Nat) (d : Bytes) (h : Memory.wf s.mem = true) : Memory.wf (s.write a d).2.mem = true := by
  unfold State.write
  generalize lines64 a d.length = ls
  suffices H : ∀ (r : Nat × State), Memory.wf r.2.mem = true →
      Memory.wf (ls.foldl (fun (r : Nat × State) l =>
        (if r.1 = stOK then (r.2.writeLine a d l).1 else r.1, (r.2.writeLine a d l).2)) r).2.mem = true from H (stOK, s) h
  induction ls with
  | nil => intro r hr; exact hr
  | cons l ls ih => intro r hr; exact ih _ (State.wf_writeLine r.2 a d l hr)

end Sys2Proof.Machine
end

