-- ==== Sys2Proof/Laws/Issue.lean ====
section
/-! SUPPORT. Bundle issue, once for every slot row: the fields of the slot words, and what a bundle of one operation leaves. -/

namespace Sys2Proof.Machine

open Sys2Proof.Safety

/-! ### Fields of the slot words -/

theorem scWord_fields (op rd rs1 rs2 imm : Nat) (ho : op < 256) (hd : rd < 64) (h1 : rs1 < 64) (h2 : rs2 < 64) (hi : imm < 2 ^ 28) :
    scOp (scWord op rd rs1 rs2 imm) = op ∧ scRd (scWord op rd rs1 rs2 imm) = rd ∧ scRs1 (scWord op rd rs1 rs2 imm) = rs1
    ∧ ((1 ≤ op ∧ op ≤ 0xD) → scRs2 (scWord op rd rs1 rs2 imm) = rs2 ∧ bitsOf (scWord op rd rs1 rs2 imm) 21 0 = 0)
    ∧ (¬ (1 ≤ op ∧ op ≤ 0xD) → scWord op rd rs1 rs2 imm % 2 ^ 28 = imm) := by
  unfold scOp scRd scRs1 scRs2 bitsOf scWord
  by_cases h : 1 ≤ op ∧ op ≤ 0xD
  · rw [if_pos h]
    refine ⟨?_, ?_, ?_, fun _ => ⟨?_, ?_⟩, fun h' => absurd h h'⟩ <;> omega
  · rw [if_neg h]
    refine ⟨?_, ?_, ?_, fun h' => absurd h' h, fun _ => ?_⟩ <;> omega

theorem mvWord_fields (op ab r v t q imm : Nat) (ho : op < 256) (ha : ab < 16) (hr : r < 64) (hv : v < 32) (ht : t < 16)
    (hq : q < 8) (hi : imm < 2 ^ 32) :
    mvOp (mvWord op ab r v t q imm) = op ∧ mvAb (mvWord op ab r v t q imm) = ab ∧ mvR (mvWord op ab r v t q imm) = r
    ∧ mvV (mvWord op ab r v t q imm) = v ∧ mvT (mvWord op ab r v t q imm) = t ∧ mvQ (mvWord op ab r v t q imm) = q
    ∧ bitsOf (mvWord op ab r v t q imm) 33 32 = 0 ∧ mvWord op ab r v t q imm % 2 ^ 32 = imm := by
  unfold mvOp mvAb mvR mvV mvT mvQ bitsOf mvWord
  refine ⟨?_, ?_, ?_, ?_, ?_, ?_, ?_, ?_⟩ <;> omega

theorem syWord_fields (op ec rs imm : Nat) (ho : op < 16) (he : ec < 64) (hr : rs < 64) (hi : imm < 256) :
    syOp (syWord op ec rs imm) = op ∧ syEc (syWord op ec rs imm) = ec ∧ syRs (syWord op ec rs imm) = rs
    ∧ syImm (syWord op ec rs imm) = imm := by
  unfold syOp syEc syRs syImm bitsOf syWord
  refine ⟨?_, ?_, ?_, ?_⟩ <;> omega

/-! ### A bundle of one scalar operation -/

/-- A bundle that is legal, waits for nothing, raises no program error and whose sync operation does not wait takes its effect. -/
theorem State.issue_effect (s : State) (n : Nat) (b : Bundle) (hi : Issues s n) (hl : b.legal = true) (hw : (s.core n).regWaits b = false)
    (he : s.issueError n b = none) (hy : ∀ x, b.sy = some x → (s.core n).syWaits x = false) : s.issue n b = s.issueEffect n b := by
  obtain ⟨h1, h2, h3⟩ := hi
  unfold State.issue State.issueNow
  have hf : b.sy.filter (s.core n).syWaits = none := by
    cases hb : b.sy with
    | none => rfl
    | some x => simp [Option.filter, hy x hb]
  simp only [h1, h2, h3, hl, hw, he, hf, Bool.not_true, Bool.false_eq_true, if_false]

theorem any_contains_false {l m : List Nat} (h : ∀ r ∈ l, r ∉ m) : l.any m.contains = false := by
  simp only [List.any_eq_false]
  intro x hx
  simpa using h x hx

/-- Ready registers keep no bundle of a scalar operation waiting. -/
theorem CoreS.regWaits_sc (c : CoreS) (x : Nat) (h : Ready c (scReads x) (scWrites x)) :
    c.regWaits { Bundle.empty with sc := some x } = false := by
  have hr : Bundle.reads { Bundle.empty with sc := some x } = scReads x := by simp [Bundle.reads, Bundle.slots, Bundle.empty]
  have hw : Bundle.writes { Bundle.empty with sc := some x } = scWrites x := by simp [Bundle.writes, Bundle.slots, Bundle.empty]
  have h1 := any_contains_false h.1
  have h2 := any_contains_false (fun r hr => (h.2 r hr).1)
  have h3 := any_contains_false (fun r hr => (h.2 r hr).2)
  unfold CoreS.regWaits
  rw [hr, hw]
  simp only [h1, h2, h3, Bundle.empty, Bool.or_self]

/-- A legal scalar operation alone makes a legal bundle. -/
theorem Bundle.legal_sc (x : Nat) (h : scLegal x = true) : Bundle.legal { Bundle.empty with sc := some x } = true := by
  have hw : (scWrites x).Nodup := by unfold scWrites; split <;> (try split) <;> simp
  simp [Bundle.legal, Bundle.slots, Bundle.empty, h, hw]

/-- The move of the PC stays in the region. -/
theorem PcMove.apply_next (pc : Nat) (um : Bool) (h' : InRegion um (pc + 1)) :
    PcMove.next.apply pc um = some (pc + 1, um) := by
  unfold PcMove.apply
  unfold InRegion at h'
  cases um
  · simp only [Bool.false_eq_true, if_false] at h' ⊢
    have : (pc + 1) % 8192 = pc + 1 := Nat.mod_eq_of_lt h'.2
    simp [this, h'.1]
  · simp only [if_true] at h' ⊢
    have : (pc + 1) % 8192 = pc + 1 := Nat.mod_eq_of_lt (by omega)
    simp [this, h']

/-- Counting a bundle: the register and nothing beside it. -/
theorem issued_of (s u : State) (n : Nat) (c : CoreS) (hc : u.core n = c) (ho : CoresBut s u n) (he : { u with cores := s.cores } = s) :
    Issued s (u.finc (F.cntCbund_N n) 1) n c := by
  have hr : u.regs = s.regs := by
    have h := congrArg State.regs he
    exact h
  have hw : ∀ q, u.reg q = s.reg q := fun q => by unfold State.reg; rw [hr]
  have hs : ∀ a b : Nat, setBits a 63 0 b = a - a % 2 ^ 64 + b % 2 ^ 64 := fun a b => by simp [setBits, bitsOf]
  have hl : s.reg (.cntCbund n) < 2 ^ 64 := BitVec.isLt _
  have hset : u.finc (F.cntCbund_N n) 1 = u.setReg (.cntCbund n) ((s.reg (.cntCbund n) + 1) % 2 ^ 64) := by
    unfold State.finc State.fset State.fget
    show u.setReg (.cntCbund n) (setBits (u.reg (.cntCbund n)) 63 0 (bitsOf (u.reg (.cntCbund n)) 63 0 + 1)) = _
    rw [hs, hw]
    have : bitsOf (s.reg (.cntCbund n)) 63 0 = s.reg (.cntCbund n) := by
      show s.reg (.cntCbund n) / 2 ^ 0 % 2 ^ 64 = _
      omega
    rw [this, Nat.mod_eq_of_lt hl]
    congr 1
    omega
  rw [hset]
  refine ⟨hc, ho, ?_, ?_, ?_⟩
  · rw [State.reg_setReg_self]; omega
  · intro off hoff
    have hne : off ≠ (Reg.cntCbund n).off := by simpa using hoff
    unfold word
    rw [← hr]
    exact Sparse.getD_setD_ne _ _ _ hne
  · exact Eq.trans (by simp only [State.setReg, hr]) he

/-- What a scalar operation other than END leaves when its PC moves within the region (R40, R43): the register it writes, the new PC and mode, and the count of bundles. -/
theorem State.issueSc_spec (s : State) (n x pc : Nat) (um : Bool) (hi : Issues s n) (hl : scLegal x = true) (hE : scOp x ≠ 0x3F)
    (hr : Ready (s.core n) (scReads x) (scWrites x)) (ho : ((s.core n).pcMove x).outside = false)
    (ha : ((s.core n).pcMove x).apply (s.core n).pc (s.core n).umode = some (pc, um)) :
    Issued s (s.issueSc n x) n
      { (match s.scResult n x with | some (r, v) => (s.core n).setReg r v | none => s.core n) with pc := pc, umode := um, waiting := false } := by
  have he : s.issueError n { Bundle.empty with sc := some x } = none := by
    simp [State.issueError, Bundle.empty, ho]
  have hf : s.issueSc n x = s.issueEffect n { Bundle.empty with sc := some x } :=
    s.issue_effect n _ hi (Bundle.legal_sc x hl) (CoreS.regWaits_sc _ x hr) he (by simp [Bundle.empty])
  rw [hf]
  unfold State.issueEffect
  simp only [Bundle.empty, ha, hE, if_false, CoreS.enqueue]
  cases hres : s.scResult n x with
  | none =>
    refine issued_of s _ n _ (by simp) (fun m hm => by simp [State.core_modCore_ne, hm]) (by simp [State.modCore, State.setCore])
  | some p =>
    refine issued_of s _ n _ (by simp) (fun m hm => by simp [State.core_modCore_ne, hm]) (by simp [State.modCore, State.setCore])

end Sys2Proof.Machine
end

