-- ==== Sys2Proof/WellFormed.lean ====
section
/-! DEFINITION. Commands that can be sent: those that carry a burst, a line or a flit carry all of it. -/

namespace Sys2Proof

/-- A command is well formed: a burst write carries 64 bytes (R193), a CXL.mem write at most one line (R219), a dirty snoop response its whole line (R188), and a flit 256 bytes, or 128 in base mode (R252). Every other operand is held to its range by its type. -/
def wellFormed : Instr → Bool
  | .mchBurstWrite _ _ data _ => data.length = 64
  | .cxlMemWrite _ _ data _ => decide (data.length ≤ 64)
  | .bisnpResponse _ dirty data => !dirty || data.length = 64
  | .flitReceive _ flit => flit.data.length = 256 || flit.data.length = 128
  | _ => true

end Sys2Proof
end

