-- ==== Sys2Proof/Tests/Slice0.lean ====
section
/-! SUPPORT. Tests: what well-formedness refuses, values that the spec states, and for every statement with hypotheses a state and operands that meet them. -/

open Sys2Proof Sys2Proof.Machine Sys2Proof.Safety

namespace Sys2Proof.Tests

set_option Elab.async false

/-! ### Well-formedness -/

theorem test_short_burst_refused : wellFormed (.mchBurstWrite 0 0 (zeroBytes 63) false) = false := by decide
theorem test_long_cxl_write_refused : wellFormed (.cxlMemWrite 0 0 (zeroBytes 65) false) = false := by decide
theorem test_dirty_snoop_needs_line : wellFormed (.bisnpResponse 0 true []) = false := by decide
theorem test_odd_flit_refused : wellFormed (.flitReceive 0 ⟨zeroBytes 32, ⟨0, 0⟩⟩) = false := by decide
theorem test_flit_accepted : wellFormed (.flitReceive 0 ⟨zeroBytes 128, ⟨0, 0⟩⟩) = true := by decide +kernel

/-! ### States -/

/-- The device after bring-up as far as the tests need it: every die out of reset, the clock running. -/
def up : State :=
  { State.reset with boot := { State.reset.boot with dies := 1023 }, pins := { State.reset.pins with pkgRst := false }, clockOn := true }

/-- Fields set one after the other. -/
def put (s : State) (l : List (Fld × Nat)) : State := l.foldl (fun s p => s.fset p.1 p.2) s

/-- An instance of partition 1 on virtual core 2. -/
def inst1 : KInst := ⟨7, 1, 2, 5, 0x10000, 100, 1024, 1030, false, 0, 0x20000, 3, 0, 0, 0, none, false⟩

/-- A core at bundle 1024 of its program. -/
def core1 : CoreS := { CoreS.init with pc := 1024, inst := some inst1 }

/-- Core 0 of partition 1 runs `c`. -/
def runs (c : CoreS) : State :=
  { put up [(F.coreFence_FENCE 0, 0), (F.pwrStat_G, 16), (F.prtCfg_STATE 1, 1), (F.prtCfg_CLUSTERS 1, 1)] with cores := [(0, c)] }

/-- What a step answers, where it goes on. -/
def next? (o : Host.Outcome State Fault Refusal) : Option State := match o with | .next t => some t | _ => none

/-! ### Long hypotheses as one question for the kernel -/

/-- Reaches can be decided. -/
@[reducible] def reachesDec (s : State) (q : Req) (r : Reg) (v : Nat) : Decidable (Reaches s q r v) := by delta Reaches; infer_instance

theorem reaches_of {s : State} {q : Req} {r : Reg} {v : Nat} (h : @decide _ (reachesDec s q r v) = true) : Reaches s q r v :=
  @of_decide_eq_true _ (reachesDec s q r v) h

/-- A write reaches its command register and no command runs. -/
def starts? (s : State) (q : Req) (r : Reg) (go : Fld) (c : List (Fld × Nat)) : Bool :=
  @decide _ (reachesDec s q r (fields ((go, 1) :: c))) && !s.fbit go

theorem starts_of {s : State} {q : Req} {r : Reg} {go : Fld} {c : List (Fld × Nat)} (h : starts? s q r go c = true) : Starts s q r go c := by
  unfold starts? at h; rw [Bool.and_eq_true, Bool.not_eq_true'] at h; exact ⟨reaches_of h.1, h.2⟩

/-- What a list's test says of each of its first numbers. -/
theorem below {P : Nat → Prop} {p : Nat → Bool} (n : Nat) (hp : ∀ c, p c = true → P c) (h : (List.range n).all p = true) : ∀ c, c < n → P c :=
  fun c hc => hp c (List.all_eq_true.mp h c (List.mem_range.mpr hc))

/-! ### The queue and the core -/

theorem wit_queue : ({ up with pending := [.refresh 0] } : State).pending = .refresh 0 :: [] := rfl

theorem wit_issue : IssuesHere (runs core1) 0 ∧ Ready (core1) [1, 2] [47] := by
  unfold IssuesHere Issues InRegion Ready; decide

theorem wit_issue_last_bundle : Issues (runs { core1 with pc := 8190 }) 0 ∧ InRegion false 8191 ∧ Issues (runs { core1 with umode := true, pc := 63 }) 0 ∧ InRegion true 64 := by
  unfold Issues InRegion; decide

theorem wit_csrr : ∃ i, ((runs core1).core 0).inst = some i ∧ IssuesHere (runs core1) 0 := by
  refine ⟨inst1, by decide, ?_⟩; unfold IssuesHere Issues InRegion; decide

theorem wit_illegal : Issues (runs core1) 0 ∧ 7 ≤ (255 : BitVec 8).toNat ∧ inst1.stream < 65536 ∧ (runs core1).fbit (F.coreErr_VALID 0) = false := by
  unfold Issues; decide

theorem wit_branch : ((core1.pc : Int) + (BitVec.ofInt 28 (-1)).toInt = 1023) ∧ InRegion true 1023 ∧ ((core1.pc : Int) + (0 : BitVec 28).toInt = 1024) ∧ InRegion false 1024
    ∧ ((core1.pc : Int) + (BitVec.ofInt 28 (-961)).toInt = 63) ∧ (63 : Nat) < 64 := by unfold InRegion; decide

theorem wit_move : MoveAt core1 0 8 8 8 8 ∧ MoveAt core1 0 0x1FE000 8192 64 0x1FE000 ∧ MoveAt core1 0 32 32 32 32 ∧ MoveAt core1 0 64 1 64 64 ∧ MoveAt core1 0 0x1FFF80 128 64 0x1FFF80
    ∧ Ready core1 [32] [131] ∧ tileReserved ((runs core1).spmLE 0 32 32) = false ∧ (runs core1).inDrain (spmAddr 0 0x1FE000) 8192 = false ∧ (core1.dmaq.getD 7 []).length < 16 := by
  unfold MoveAt Ready; decide

theorem wit_sync : IssuesHere (runs core1) 0 ∧ Ready core1 [3] [] ∧ (core1.reg 3).setWidth 32 + (0 : BitVec 8).setWidth 32 ≤ core1.evc 9
    ∧ core1.evc 9 < (core1.reg 3).setWidth 32 + (1 : BitVec 8).setWidth 32 ∧ (7 : BitVec 8).toNat < 8 ∧ core1.dmaIdle = true ∧ core1.mxIdle = true ∧ core1.vcIdle = true := by
  unfold IssuesHere Issues InRegion Ready; decide

/-- Partition 1 with two virtual cores of one virtual cluster on cores 0 and 1. -/
def pair : State :=
  { put (runs { core1 with bar := 1, inst := some { inst1 with vcore := 0 } }) [(F.coreVcfg_VCOUNT 1, 2), (F.coreVmap_VALID 1 0, 1), (F.coreVmap_PCORE 1 0, 0), (F.coreVmap_VALID 1 1, 1), (F.coreVmap_PCORE 1 1, 1)] with
    evrem := [⟨1, 1, 4, 200⟩] }

theorem wit_evrem : IssuesHere (runs core1) 0 ∧ Ready core1 [1] [] ∧ (runs core1).core 0 = core1 ∧ core1.inst = some inst1 ∧ core1.remCnt ≤ core1.remRep
    ∧ (core1.reg 1).toNat % 512 < pair.vcount inst1.part ∧ pair.vcount 1 = 2 ∧ pair.evrem.find? (fun e => pair.vmap e.part e.vcore = some 1) = some ⟨1, 1, 4, 200⟩ := by
  unfold IssuesHere Issues InRegion Ready; decide

theorem wit_barrier : Issues (runs core1) 0 ∧ core1.bar = 0 ∧ core1.barCnt ≤ core1.barRep ∧ IssuesHere (runs { core1 with bar := 2 }) 0
    ∧ (pair.core 0).bar = 1 ∧ pair.resetting.contains 0 = false ∧ (∃ v ∈ pair.vclusterMembers 1 0, bitAt (setBit (Sparse.getD (fun _ => 0) pair.bars 32) 0 true) (v % 12) = false)
    ∧ (∀ v ∈ ({ pair with bars := [(32, 2)] } : State).vclusterMembers 1 0, bitAt (setBit 2 0 true) (v % 12) = true) := by
  unfold IssuesHere Issues InRegion; decide

/-- Hypotheses over an interval of addresses, by its offsets. -/
theorem between {lo hi : Nat} {P : Nat → Prop} (h : ∀ k, k < hi - lo → P (lo + k)) : ∀ x, lo ≤ x → x < hi → P x := by
  intro x h1 h2; have := h (x - lo) (by omega); rwa [Nat.add_sub_cancel' h1] at this

/-- The MCHs behind `len` bytes at `a` are trained. -/
def live (a len : Nat) (s : State) : State :=
  (List.range ((a + len + 255) / 256 - a / 256)).foldl (fun s i => s.fset (F.memMchStat_STATE (s.physOf (a / 256 * 256 + 256 * i)).1) 0) s

/-- Partition `p` has region entry `i` of type `ty` from `base` to `lim`, readable, writable and open to atomics. -/
def region (p i ty base lim : Nat) (s : State) : State :=
  { put s [(F.prtRgnA_VALID p i, 1), (F.prtRgnA_TYPE p i, ty), (F.prtRgnA_RD p i, 1), (F.prtRgnA_WR p i, 1), (F.prtRgnA_ATOM p i, 1), (F.prtRgnA_BASE p i, base)] with
    rgnLim := Sparse.setD (fun _ => 0) s.rgnLim (p * 4096 + i) lim }

/-- A core at a TB, its slots at 0x20000 of a STACK region. -/
def slotted : State := live 0x21000 2048 (region 1 0 0 0 0xFFFFF (runs { core1 with r := [(4, 0x20000)] }))

theorem wit_tile_boundary : IssuesHere slotted 0 ∧ (slotted.core 0).inst = some inst1 ∧ (slotted.core 0).fenceDone 7 = true ∧ slotted.fget F.pwrStat_PARK = 0 ∧ MapOk slotted
    ∧ ((slotted.core 0).reg 4).toNat + 4096 * (inst1.nTB % 2) = 0x21000 ∧ slotted.slotError 1 0x21000 = none ∧ (∀ l ∈ lines64 0x21000 2048, slotted.backed l = true) ∧ slotted.blocked 0x21000 2048 true = none := by
  unfold IssuesHere Issues InRegion MapOk; decide +kernel

theorem wit_instance_end : ((runs { core1 with ending := true }).core 0).inst = some inst1 ∧ ({ core1 with ending := true } : CoreS).fenceDone 7 = true ∧ (runs { core1 with ending := true }).unitsRun 0 = true ∧ core1.fault = none := by
  decide +kernel

/-- Slot words of a bundle with LI s1, 5 and LD s2, 8(a0). -/
def liWord : Nat := scWord 0x20 1 0 0 5
def ldWord : Nat := mvWord 8 0 2 0 0 0 8

/-- A core of which that bundle is the next. -/
def paired : CoreS := { core1 with imem := [(1024, BitVec.ofNat 256 (2 ^ 255 + 2 ^ 254 + liWord * 2 ^ 200 + ldWord * 2 ^ 136))] }

theorem wit_bundle : IssuesHere (runs paired) 0 ∧ paired.tb = none ∧ Bundle.ofWord (paired.bundle paired.pc).toNat = ⟨some liWord, some ldWord, none, none, none, false⟩
    ∧ (Bundle.ofWord (paired.bundle paired.pc).toNat).legal = true ∧ Ready paired (Bundle.ofWord (paired.bundle paired.pc).toNat).reads (Bundle.ofWord (paired.bundle paired.pc).toNat).writes
    ∧ (runs paired).scResult 0 liWord = some (1, 5) ∧ paired.pcMove liWord = .next ∧ mvOp ldWord = 8 ∧ paired.mvAddrOk ldWord = true := by
  unfold IssuesHere Issues InRegion Ready; decide +kernel

/-- A core of which the next bundle has MLOAD t1 beside TSETB t1, 64(a0). -/
def mxPaired : CoreS :=
  { core1 with t := [(1, BitVec.ofNat 256 (0x2000 + 2 ^ 48 + 64 * 2 ^ 64))], imem := [(1024, BitVec.ofNat 256 (2 ^ 254 + 2 ^ 253 + mvWord 6 0 1 0 0 0 64 * 2 ^ 136 + (2 * 2 ^ 40 + 2 ^ 32) * 2 ^ 88))] }

theorem wit_bundle_matrix : IssuesHere (runs mxPaired) 0 ∧ mxPaired.tb = none ∧ Bundle.ofWord (mxPaired.bundle mxPaired.pc).toNat = ⟨none, some (mvWord 6 0 1 0 0 0 64), some (2 * 2 ^ 40 + 2 ^ 32), none, none, false⟩
    ∧ (Bundle.ofWord (mxPaired.bundle mxPaired.pc).toNat).legal = true ∧ Ready mxPaired (Bundle.ofWord (mxPaired.bundle mxPaired.pc).toNat).reads (Bundle.ofWord (mxPaired.bundle mxPaired.pc).toNat).writes
    ∧ mxPaired.mq.length < 16 ∧ mvOp (mvWord 6 0 1 0 0 0 64) = 6 ∧ mxPaired.mvAddrOk (mvWord 6 0 1 0 0 0 64) = true ∧ mxOp (2 * 2 ^ 40 + 2 ^ 32) ≠ 0
    ∧ (∀ i ∈ mxTiles (2 * 2 ^ 40 + 2 ^ 32), (Tile.ofBits (mxPaired.tile i).toNat).addrOk = true) ∧ 200 + 1 ∈ mxReads (2 * 2 ^ 40 + 2 ^ 32) := by
  unfold IssuesHere Issues InRegion Ready; decide +kernel

/-- A core of which the next bundle writes s2 in two slots. -/
def clashing : CoreS := { core1 with imem := [(1024, BitVec.ofNat 256 (2 ^ 255 + 2 ^ 254 + scWord 0x20 2 0 0 5 * 2 ^ 200 + ldWord * 2 ^ 136))] }

theorem wit_bundle_clash : Issues (runs clashing) 0 ∧ clashing.inst = some inst1 ∧ inst1.stream < 65536 ∧ (runs clashing).fbit (F.coreErr_VALID 0) = false
    ∧ ¬ (Bundle.ofWord (clashing.bundle clashing.pc).toNat).writes.Nodup := by
  unfold Issues; decide +kernel

/-! ### The engines -/

/-- A tile descriptor: rows, columns, base, stride, format. -/
def tileW (rows cols base stride fmt : Nat) : BitVec 256 := BitVec.ofNat 256 ((rows - 1) * 2 ^ 32 + (cols - 1) * 2 ^ 48 + base + stride * 2 ^ 64 + fmt * 2 ^ 88)

/-- A matrix slot word. -/
def mxW (op ta tb tc rs row rows kind : Nat) : Nat := op * 2 ^ 40 + ta * 2 ^ 36 + tb * 2 ^ 32 + tc * 2 ^ 28 + rs * 2 ^ 22 + row * 2 ^ 13 + (rows - 1) * 2 ^ 4 + kind

/-- A core with a matrix command at the head of its queue, configured, with tiles 0 to 2. -/
def mxCore (x : Nat) : CoreS :=
  { core1 with mq := [⟨x, 1024, []⟩], cfgSeen := true, t := [(0, tileW 1 2 0x1000 64 0), (1, tileW 1 2 0x2000 64 0), (2, tileW 1 2 0x3000 64 8), (3, tileW 1 2 0x4000 64 8)] }

/-- The same on core 0, the first byte of its configuration block 1. -/
def mxRun (c : CoreS) : State := { runs c with mem := [(spmAddr 0 0x1000, 1)] }

theorem wit_matrix_load : MxHead (mxRun (mxCore (mxW 1 0 0 0 0 0 1 0))) 0 1 ⟨mxW 1 0 0 0 0 0 1 0, 1024, []⟩ [] ∧ (tileOf (mxRun (mxCore 0)) 0 ⟨0, 1024, []⟩ 0).base = 0x1000
    ∧ cfgLegal ((mxRun (mxCore 0)).spmLE 0 0x1000 128) = true ∧ MxHead (mxRun (mxCore (mxW 2 0 1 0 0 0 1 0))) 0 2 ⟨mxW 2 0 1 0 0 0 1 0, 1024, []⟩ [] ∧ mloadError (tileOf (mxRun (mxCore 0)) 0 ⟨0, 1024, []⟩ 1) = none
    ∧ MxHead (mxRun { mxCore (mxW 3 0 0 0 0 0 1 0) with inact := { StatBuf.empty with st := 2 } }) 0 3 ⟨mxW 3 0 0 0 0 0 1 0, 1024, []⟩ [] := by
  unfold MxHead EngineRuns; decide +kernel

/-- A loaded stationary buffer of 2 rows. -/
def loaded : StatBuf := { StatBuf.empty with st := 2, kx := 2 }

theorem wit_mstream : MxHead (mxRun { mxCore (mxW 4 0 0 0 0 511 1 1) with act := loaded }) 0 4 ⟨mxW 4 0 0 0 0 511 1 1, 1024, []⟩ []
    ∧ CoreS.mstreamError (CoreS.seenBy { mxCore 0 with act := loaded } ⟨0, 1024, []⟩) (mxW 4 0 0 0 0 511 1 1) (tileOf (mxRun (mxCore 0)) 0 ⟨0, 1024, []⟩ 0) = none := by
  unfold MxHead EngineRuns; decide +kernel

theorem wit_drain : MxHead (mxRun (mxCore (mxW 5 0 1 2 0 0 1 0))) 0 5 ⟨mxW 5 0 1 2 0 0 1 0, 1024, []⟩ [] ∧ (mxRun (mxCore 0)).fbit (F.mxeCkctl_CKEN 0) = false ∧ (mxRun (mxCore 0)).trapOn 0 = false
    ∧ (mxRun (mxCore 0)).drainError 0 ((mxRun (mxCore 0)).drainCmd 0 ⟨mxW 5 0 1 2 0 0 1 0, 1024, []⟩) = none ∧ isMX OutCfg.init.outFmt = false
    ∧ ((mxRun (mxCore 0)).drainCmd 0 ⟨mxW 5 0 1 2 0 0 1 0, 1024, []⟩).tb.addrOk = true ∧ MxHead (mxRun (mxCore (mxW 6 2 1 3 0 0 1 2))) 0 6 ⟨mxW 6 2 1 3 0 0 1 2, 1024, []⟩ []
    ∧ (mxRun (mxCore 0)).drainError 0 ((mxRun (mxCore 0)).drainCmd 0 ⟨mxW 6 2 1 3 0 0 1 2, 1024, []⟩) = none ∧ ((mxRun (mxCore 0)).drainCmd 0 ⟨mxW 6 2 1 3 0 0 1 2, 1024, []⟩).tc.addrOk = true
    ∧ ((mxRun (mxCore 0)).drainCmd 0 ⟨mxW 6 2 1 3 0 0 1 2, 1024, []⟩).ta.addrOk = true := by
  unfold MxHead EngineRuns; decide +kernel

theorem wit_finish : ({ core1 with ldBusy := true, stBusy := true, drBusy := true, vrun := [⟨[100], true, 1⟩] } : CoreS).vrun = [⟨[100], true, 1⟩] ∧ IssuesHere (runs core1) 0 := by
  unfold IssuesHere Issues InRegion; decide

/-- A vector slot word of N elements. -/
def vcW (op vd va vb vc rs ty fn n : Nat) : Nat :=
  op * 2 ^ 56 + vd * 2 ^ 51 + va * 2 ^ 46 + vb * 2 ^ 41 + vc * 2 ^ 36 + rs * 2 ^ 30 + ty * 2 ^ 27 + fn * 2 ^ 12 + (n - 1)

/-- A core with a vector operation at the head of its queue. -/
def vcRun (x : Nat) : State := runs { core1 with vq := [⟨x, 1024, []⟩] }

/-- The operation of opcode `op` on `n` elements of a TYPE with FN heads the queue of a core. -/
def vcHeads (op ty fn n : Nat) : Prop := VecHead (vcRun (vcW op 1 2 3 4 5 ty fn n)) 0 op ⟨vcW op 1 2 3 4 5 ty fn n, 1024, []⟩ []

theorem wit_vector_arithmetic : (∀ op ∈ [1, 2, 3, 4, 5, 6, 7, 8, 9, 10], vcHeads op 0 0 2048) ∧ (∀ op ∈ [1, 2, 3, 4, 5, 6, 7, 8, 0x10, 0x11], vcHeads op 2 0 1)
    ∧ (∀ op ∈ [0xC, 0xD, 0xE, 0xF, 0x12, 0x38, 0x39, 0x3A, 0x48], vcHeads op 3 0 2) ∧ tyIsFp 0 = true ∧ tyIsFp 2 = false := by
  unfold vcHeads VecHead EngineRuns; decide +kernel

theorem wit_vector_compares : (vcHeads 0xB 0 5 3 ∧ vcHeads 0xB 2 1 3) ∧ vcHeads 0x13 0 1 3 ∧ vcHeads 0x13 0 2 3 ∧ vcHeads 0x13 1 0 3 ∧ vcHeads 0x13 2 0 3 ∧ vcHeads 0x13 0 3 3 := by
  unfold vcHeads VecHead EngineRuns; decide +kernel

theorem wit_vector_reductions : (∀ op ∈ [0x30, 0x31, 0x32, 0x33], vcHeads op 0 0 4 ∧ vcHeads op 0 1 4) ∧ vcHeads 0x49 0 0 4 ∧ vcHeads 0x4A 0 0 4 := by
  unfold vcHeads VecHead EngineRuns; decide +kernel

theorem wit_transcendental : (∀ row ∈ transTable.map (·.2), vcHeads row 0 0 1) ∧ fmtFP32.dec 0x7FC00000 = .nan ∧ fmtFP32.dec 0x80000000 = .fin true 0 (-149) := by
  unfold vcHeads VecHead EngineRuns; decide +kernel

theorem wit_gather : vcHeads 0x40 3 0 2 ∧ vcHeads 0x41 3 0 2 ∧ vcHeads 0x42 0 0 1 ∧ (⟨(vcRun 0).core 0, vcW 0x40 1 2 3 4 5 3 0 2⟩ : VOp).gok 4 = true := by
  unfold vcHeads VecHead EngineRuns; decide +kernel

theorem wit_optimizer : (∀ op ∈ [0x50, 0x51, 0x52, 0x53, 0x54], vcHeads op (if op = 0x54 then 1 else 0) 0 2) ∧ vcVd (vcW 0x54 1 2 3 4 5 1 0 2) ≠ vcVc (vcW 0x54 1 2 3 4 5 1 0 2) := by
  unfold vcHeads VecHead EngineRuns; decide +kernel

/-! ### DMA, atomics, faults of a core -/

/-- A descriptor: opcode, one dimension of `cnt` elements of 2^esz bytes, source and destination. -/
def dmaW (op esz cnt src dst : Nat) : Nat := op + (if op = 1 ∨ op = 2 then 2 ^ 9 + 2 ^ 224 else 2 ^ 8) + esz * 2 ^ 11 + 2 ^ 15 + 3 * 2 ^ 16 + src * 2 ^ 64 + dst * 2 ^ 128 + cnt * 2 ^ 192

/-- Core 0 is virtual core 2 of partition 1, its scratchpad a good core's, with `d` at the head of queue 0. -/
def dmaRun (d : Nat) (checked : Bool) (done : Nat) (gens : List Gen) : State :=
  (put (runs { core1 with dmaq := [[⟨d, checked, done, [], none⟩], [], [], [], [], [], [], []], gens := gens })
    [(F.coreVcfg_VCOUNT 1, 3), (F.coreVmap_VALID 1 2, 1), (F.coreVmap_PCORE 1 2, 0)]).fpSet 8 0 true

/-- The scratchpad window of virtual core 2. -/
def win2 (o : Nat) : Nat := 0x20000000000 + 2 * 0x200000 + o

theorem wit_dma_moves : (∀ op ∈ [0, 3], DmaReady (dmaRun (dmaW op 2 1024 (win2 0) (win2 0x1000)) false 0 [⟨none, 0⟩, ⟨none, 0⟩]) 0 0 op inst1 ⟨dmaW op 2 1024 (win2 0) (win2 0x1000), false, 0, [], none⟩ [])
    ∧ (∀ a ∈ [0, 0x1FC, 0x1000, 0x1FFC], (dmaRun 0 false 0 []).dmaPhys 1 (win2 a) = some (spmAddr 0 a) ∧ (dmaRun 0 false 0 []).inFlux (spmAddr 0 a) 4 = false ∧ (dmaRun 0 false 0 []).inDrain (spmAddr 0 a) 4 = false)
    ∧ (dmaRun 0 false 0 []).coreGood 0 = true ∧ (dmaRun 0 false 0 []).resetting.contains 0 = false ∧ (dmaRun 0 false 0 []).snpq = [] ∧ (spmWin (win2 0x1000)).isSome = true ∧ apart (spmAddr 0 0x1000) (spmAddr 0 0x1004) 4 := by
  unfold DmaReady apart; decide +kernel

theorem wit_dma_gather : DmaReady (dmaRun (dmaW 1 2 1 (win2 0) (win2 0x1000)) false 0 [⟨none, 0⟩, ⟨none, 0⟩]) 0 0 1 inst1 ⟨dmaW 1 2 1 (win2 0) (win2 0x1000), false, 0, [], none⟩ [0]
    ∧ DmaReady (dmaRun (dmaW 2 2 1 (win2 0) (win2 0x1000)) false 0 [⟨none, 0⟩, ⟨none, 0⟩]) 0 0 2 inst1 ⟨dmaW 2 2 1 (win2 0) (win2 0x1000), false, 0, [], none⟩ [0] := by
  unfold DmaReady; decide +kernel

theorem wit_dma_ends : ((dmaRun (dmaW 0 2 4 0 64) true 4 [⟨some 0, 16⟩, ⟨none, 0⟩]).core 0).inst = some inst1 ∧ inst1.stream < 65536
    ∧ ((dmaRun (dmaW 0 2 4 0 64) true 4 [⟨some 0, 16⟩, ⟨none, 0⟩]).core 0).waitingHeads = [] ∧ dTotal (dmaW 0 2 4 0 64) ≤ 4 ∧ 3 < dTotal (dmaW 0 2 4 0 64)
    ∧ (dmaRun 0 true 0 []).fbit (F.coreErr_VALID 0) = false ∧ (0x04 : BitVec 8).toNat ∈ [stOutOfBounds, stDenied, stTimeout, stTargetReset] := by decide +kernel

/-- Memory at 0 backed. -/
def backed0 : State := live 0 256 up

theorem wit_atomics : MapOk backed0 ∧ AtomReady backed0 0 4 ∧ AtomReady backed0 252 4 ∧ AtomReady backed0 2 2 := by
  unfold MapOk AtomReady; decide +kernel

/-- Cores 0 and 1 good, virtual core 2 on core 0, core 1 in reserve. -/
def reserved (c : CoreS) : State :=
  ((put (runs c) [(F.coreFence_FENCE 1, 0), (F.coreVcfg_VCOUNT 1, 3), (F.coreVmap_VALID 1 2, 1), (F.coreVmap_PCORE 1 2, 0)]).fpSet 8 0 true).fpSet 8 1 true

theorem wit_replay : (core1.fault = none ∧ (reserved core1).resetting.contains 0 = false ∧ inst1.part < 8 ∧ inst1.vcore < 384 ∧ inst1.noReplay = false ∧ inst1.faultsTB < 2)
    ∧ (reserved core1).pickReserve 1 0 = some 1 ∧ (runs core1).reserves 1 = [] ∧ (0x20 : BitVec 8).toNat ∈ [0x20, 0x22, 0x23, 0x24, 0x27] := by decide +kernel

/-! ### Stacked memory -/

theorem wit_bursts : mchState backed0 0 ≤ 1 ∧ mchState (put up [(F.memMchStat_STATE 767, 1)]) 767 ≤ 1 ∧ (zeroBytes 64).length = 64 ∧ Sparse.getD (fun _ => false) backed0.poison 0 = false
    ∧ Sparse.getD (fun _ => false) ({ backed0 with poison := [(5, true)] } : State).poison (0 * 2 ^ 24 + 5) = true ∧ backed0.fget F.pwrStat_PARK = 0 ∧ mchState (put up [(F.memMchStat_STATE 3, 3)]) 3 = 3
    ∧ ({ backed0 with poison := [(5, true)] } : State).decodeBurst 0 5 [(0, 1)] = .uncorrectable := by decide +kernel

theorem wit_corrected : backed0.decodeBurst 0 0 [(0, 1)] = .corrected [(0, 1)] (zeroBytes 64) := by decide +kernel

/-- The MCH behind address 0 retrains. -/
def retraining0 : State := put backed0 [(F.memMchStat_STATE (up.homeOf 0), 2)]

theorem wit_slice_places : up.sliceOf 0xC000000000 = none ∧ up.sliceOf 0xC0000000000 = none ∧ backed0.sliceOf 64 = some (backed0.homeOf 64) ∧ RingsOff backed0 ∧ retraining0.snpq = []
    ∧ (retraining0.mch (retraining0.homeOf 0)).held.length < 64 ∧ (retraining0.mch (retraining0.homeOf 0)).net = [] := by unfold RingsOff; decide +kernel

theorem wit_slice : SliceReady backed0 0 64 false ∧ SliceReady backed0 192 64 true ∧ MapOk backed0 ∧ spaceOf 0xC000000000 = .unassigned
    ∧ retraining0.snoopLines 0 64 false = [] ∧ retraining0.retraining (retraining0.homeOf 0) = true ∧ retraining0.llcHit (retraining0.homeOf 0) (retraining0.physOf 0).2 = false := by
  refine ⟨⟨by decide, by decide, between (by decide +kernel), by decide +kernel, by decide +kernel, by decide +kernel⟩,
    ⟨by decide, by decide, between (by decide +kernel), by decide +kernel, by decide +kernel, by decide +kernel⟩, ?_⟩
  unfold MapOk; decide +kernel

/-- MCH 5 in use, a pin of it over its threshold, 16 uncorrectable reads within the second. -/
def worn : State :=
  { put up [(F.memMchStat_STATE 5, 0), (F.memMchStat_ERASED_PIN 5, 0x3F), (F.memCfg_RT_PERIOD, 1), (F.memCfg_PIN_THRESH, 4), (F.memCfg_AUTO_RETIRE, 1)] with
    mchs := [(5, { Mch.init with hits := .replicate 4 ⟨0, 0, 0, {}⟩, ues := .replicate 16 0 })] }

theorem wit_retraining : mchState worn 5 ≤ 2 ∧ (∀ j ∈ worn.rtq, 5 ∉ j.mchs) ∧ worn.fget F.memCfg_RT_PERIOD ≠ 0 ∧ worn.erasedPin 5 = none ∧ 0 < worn.fget F.memCfg_PIN_THRESH
    ∧ worn.fget F.memCfg_PIN_THRESH ≤ ((worn.mchSecond 5).pinHits 5 0).length ∧ 16 ≤ ((worn.mchSecond 5).mch 5).ues.length ∧ worn.fbit F.memCfg_AUTO_RETIRE = true
    ∧ worn.retiredCount < 16 := by decide +kernel

theorem wit_retrain_commands : Reaches worn (.cap 12) .memRetrain (with1 [F.memRetrain_GO] 5) ∧ inWord F.memRetrain_MCH (with1 [F.memRetrain_GO] 5) = 5 ∧ worn.fbit F.memRetrain_GO = false
    ∧ Reaches worn (.cap 12) .memRetire (with1 [F.memRetire_GO] 5) ∧ inWord F.memRetire_MCH (with1 [F.memRetire_GO] 5) = 5 := by unfold Reaches; decide +kernel

theorem wit_retrain_runs : ({ worn with rtq := [⟨[5], [], false⟩] } : State).rtRun = none ∧ worn.fget F.pwrStat_PARK = 0 ∧ (∀ m ∈ [5], m < 768 ∧ mchState worn m ≤ 1) ∧ [5].Nodup
    ∧ ({ worn with rtRun := some ⟨[5], [0], false⟩ } : State).rtRun = some ⟨[(5 : Fin 768).val], [0], false⟩ ∧ NoneHeld worn 5 ∧ Rested worn ∧ (0 : Fin 37) < 36 ∧ (34 : Fin 37) < 35 ∧ mchState worn 5 ≠ 3 := by unfold NoneHeld Rested; decide +kernel

/-- A valid SCRATCH region of partition 1 with a descriptor that reads it. -/
def busyRegion : State :=
  { region 1 0 0 0 0xFFFF (dmaRun (dmaW 0 2 4 0 (win2 0)) true 0 [⟨none, 0⟩, ⟨none, 0⟩]) with rgnq := [⟨1, 0, 0, 0, .pf0⟩] }

theorem wit_region_write : Reaches (put up [(F.prtRgnB_LIMIT 1 4095, 0x3FFFFFFF)]) .pf0 (.prtRgnA 1 4095) (2 ^ 63) ∧ (Rgn.ofWords 4095 (2 ^ 63) 0x3FFFFFFF).ty < 3
    ∧ (put up [(F.prtRgnB_LIMIT 1 4095, 0x3FFFFFFF)]).rgnOk 1 (Rgn.ofWords 4095 (2 ^ 63) 0x3FFFFFFF) = true ∧ bitAt (up.reg (.prtRgnA 1 4095)) 63 = false := by unfold Reaches; decide +kernel

/-- Its entry. -/
def region0 : Rgn := ⟨0, 0, true, true, true, false, false, false, false, 0, 0xFFFF⟩

theorem wit_region_waits : (busyRegion.regions 1).find? (·.idx = 0) = some region0 ∧ busyRegion.rgnBusy 1 region0 = true ∧ bitAt (busyRegion.reg (.prtRgnA 1 0)) 63 = true
    ∧ Reaches { busyRegion with rgnq := [] } .pf0 (.prtRgnA 1 0) 0 ∧ busyRegion.rgnq.find? (fun q => q.part = 1 && q.idx = 0) = some ⟨1, 0, 0, 0, .pf0⟩
    ∧ ({ busyRegion with cores := [] } : State).rgnBusy 1 region0 = false ∧ busyRegion.prtq = [] ∧ Rested busyRegion := by
  unfold Reaches Rested; decide +kernel

/-- An MCH retired since the map was made, no instance. -/
def stale : State := { put up [(F.memMchStat_STATE 5, 3)] with mchs := [(5, { Mch.init with newlyRetired := true })] }

theorem wit_map_commit : Reaches stale (.cap 12) .memMap (with1 [F.memMap_COMMIT] 0) ∧ stale.fbit F.memMap_COMMIT = false ∧ stale.mapStale = true ∧ stale.noInstances = true
    ∧ (put stale [(F.memMap_COMMIT, 1)]).fbit F.memMap_COMMIT = true ∧ stale.fw.transit = false ∧ stale.memBusy = false := by unfold Reaches; decide +kernel

theorem wit_way_modes : Reaches (put up [(F.llcGrp_SPW 95, 16)]) (.cap 12) .llcCommit (with1 [F.llcCommit_GO] 0) ∧ up.fbit F.llcCommit_BUSY = false ∧ (put up [(F.llcGrp_SPW 95, 16)]).llcChanged = [95]
    ∧ (∀ j, j < 8 → (put up [(F.llcGrp_SPW 95, 16)]).waysUsed (8 * 95 + j) 16 0 = false) ∧ (put up [(F.llcCommit_BUSY, 1)]).fbit F.llcCommit_BUSY = true ∧ 0 < up.fget (F.nocXstat_MODULES 11) := by
  unfold Reaches; decide +kernel

/-- A commit of group 95 runs. -/
def committing : State := { put up [(F.llcCommit_BUSY, 1), (F.llcCommit_GO, 1)] with llcOp := [(95, 16)] }

theorem wit_way_commit : committing.fbit F.llcCommit_BUSY = true ∧ committing.llcWaits = false ∧ (∀ g ∈ committing.llcOp, g.1 < 96 ∧ g.2 ≤ 16) ∧ (committing.llcOp.map (·.1)).Nodup ∧ (∀ m, NoneHeld committing m)
    ∧ Rested committing := ⟨by decide +kernel, by decide +kernel, by decide +kernel, by decide, fun _ => ⟨rfl, rfl⟩, by unfold Rested; decide +kernel⟩

/-! ### The host port and streams -/

/-- A device after S8 on a CXL host whose decoder 3 maps memory of partition 1, with a host-line cache line, a snoop that waits and a partition in the table. -/
def hosted : State :=
  let s := { up with cxl := { CxlPort.init with st := 2, perst := false, may := true }, hlc := [(5, ⟨2⟩)], bisnp := [(64, true)] }
  put (live 0 256 (region 1 0 0 0 0xFFFF (put s [(F.bootStatus_STAGE, 8), (F.bootStatus_STATE, 1), (F.hstHdm_VALID 3, 1), (F.hstHdm_PART 3, 1), (F.secStat_MSTATE, 1)]))) [(F.prtRgnA_HOST 1 0, 1)]

theorem wit_cxl_mem : hosted.hdmOn 3 = true ∧ hosted.failed = false ∧ hosted.hostMay 3 (hosted.hdmAddr 3 64) 64 (·.rd) = true ∧ SliceReady hosted (hosted.hdmAddr 3 64) 64 false
    ∧ hosted.hostMay 3 (hosted.hdmAddr 3 64) 64 (·.wr) = true ∧ SliceReady hosted (hosted.hdmAddr 3 64) 64 true ∧ MapOk hosted ∧ hosted.hostMay 3 (hosted.hdmAddr 3 0x10000) 64 (·.rd) = false := by
  refine ⟨by decide +kernel, by decide, by decide +kernel, ⟨by decide, by decide +kernel, between (by decide +kernel), by decide +kernel, by decide +kernel, by decide +kernel⟩,
    by decide +kernel, ⟨by decide, by decide +kernel, between (by decide +kernel), by decide +kernel, by decide +kernel, by decide +kernel⟩, ?_⟩
  unfold MapOk; decide +kernel

theorem wit_snoops : hosted.bisnp.find? (·.1 = 64) = some (64, true) ∧ hosted.snpq = [] ∧ hosted.backed 64 = true ∧ hosted.poisonedAt 64 = false ∧ hosted.hostUp = true
    ∧ Sparse.find hosted.hlc (0x140 / 64) = some ⟨2⟩ := by decide +kernel

/-- Stream 5 of partition 1 runs, its completion ring at 0x1000 and its descriptors at 0x2000 of a region it may use. -/
def stream5 : State :=
  put (live 0x1000 1024 (live 0x2000 512 (region 1 0 0 0 0xFFFFF up)))
    [(F.prtCfg_STATE 1, 1), (F.strCtl_EN 5, 1), (F.strCtl_PART 5, 1), (F.strStat_STATE 5, 1), (F.strStat_NEXT_SEQ 5, 10), (F.strRing_BASE 5, 0x2000), (F.strRing_LOG2N 5, 6), (F.strHead_TAIL 5, 3),
      (F.strCq_BASE 5, 0x1000), (F.strCq_LOG2N 5, 5)]

/-- The same with what the stream holds. -/
def streaming (t : StreamS) : State := { stream5 with strs := [(5, t)] }

/-- What a record needs of its completion ring, as one question for the kernel. -/
theorem cqReady_of {s : State} {k : Nat} (h : (s.failed = false ∧ s.strLogs k = false ∧ cqSlot s k + 32 ≤ 0xC000000000 ∧ (s.str k).dupWait = []) ∧ ((s.str k).cqWait = [] ∧ s.cqFull k = false ∧ s.snoopLines (cqSlot s k) 32 true = [])
    ∧ (∀ i, i < cqSlot s k + 32 - cqSlot s k / 64 * 64 → s.backed (cqSlot s k / 64 * 64 + i) = true ∧ s.poisonedAt (cqSlot s k / 64 * 64 + i) = false)) (hm : MapOk s) : CqReady s k :=
  ⟨h.1.1, h.1.2.1, hm, h.1.2.2.1, h.1.2.2.2, h.2.1.1, h.2.1.2.1, h.2.1.2.2, between h.2.2⟩

/-- A descriptor of stream 5 that has passed its check: opcode, SEQ, flags, body. -/
def bodyW (op seq flags body : Nat) : Nat := seq + op * 2 ^ 32 + flags * 2 ^ 40 + body * 2 ^ 64

/-- The same with its CRC. -/
def descW (op seq flags body : Nat) : Nat := bodyW op seq flags body + crc32c (leBytes 60 (bodyW op seq flags body)) * 2 ^ 480

/-- A COPY of 64 bytes from 0x2000 to 0x2100, a NETWRITE, and one with a host-window side. -/
def copyD : Nat := bodyW 2 10 0 (0x2000 + 0x2100 * 2 ^ 64 + 64 * 2 ^ 128)
def netD : Nat := bodyW 8 10 0 (0x2000 + 64 * 2 ^ 128)
def hostCopyD : Nat := bodyW 2 10 0 (0x80000000000 + 0x2100 * 2 ^ 64 + 64 * 2 ^ 128)

/-- A LAUNCH of one core. -/
def launchD : Nat := bodyW 1 10 0 (0x2000 + 2 * 2 ^ 64 + 1024 * 2 ^ 80 + 1024 * 2 ^ 96 + 0 * 2 ^ 112 + 1 * 2 ^ 128 + 0x2400 * 2 ^ 192 + 0x3000 * 2 ^ 320)

theorem cq_ready : ∀ t ∈ [StreamS.init, { StreamS.init with fetched := [copyD] }, { StreamS.init with cqn := 31 }], CqReady (streaming t) 5 := by
  intro t ht
  simp only [List.mem_cons, List.not_mem_nil, or_false] at ht
  rcases ht with rfl | rfl | rfl <;> exact cqReady_of (by decide +kernel) (by unfold MapOk; decide +kernel)

theorem wit_host_timeout : StartedOp (streaming { StreamS.init with started := [⟨10, 2, hostCopyD, 1, [], 0⟩] }) 5 10 2 ⟨10, 2, hostCopyD, 1, [], 0⟩ ∧ isHost (cSrc hostCopyD) = true
    ∧ isHost (jobDst ⟨dmaW 0 2 4 0 (0x80000000000), true, 0, [], none⟩ 0) = true ∧ ((dmaRun (dmaW 0 2 4 0 (0x80000000000)) true 0 []).core 0).inst = some inst1
    ∧ 0 < dTotal (dmaW 0 2 4 0 (0x80000000000)) ∧ ((dmaRun (dmaW 0 2 4 0 (0x80000000000)) true 0 []).core 0).dmaq[0]? = some [⟨dmaW 0 2 4 0 (0x80000000000), true, 0, [], none⟩] := by
  unfold StartedOp; decide +kernel

theorem wit_port : ({ up with cxl := { CxlPort.init with st := 1, perst := false } } : State).cxl.st = 1 ∧ hosted.cxl.st = 2 ∧ CxlPort.init.st = 0 ∧ (∀ k, (hosted.str k).cqWait = []) ∧ hosted.hostUp = true ∧ hosted.fget F.secStat_MSTATE = 1
    ∧ (put up [(F.ethCfg_EN 1, 1), (F.ethStat_UP 1, 1)]).fbit (F.ethCfg_EN 1) = true ∧ (put up [(F.ethCfg_EN 1, 1), (F.ethStat_UP 1, 1)]).fbit (F.ethStat_UP 1) = true :=
  ⟨by decide +kernel, by decide +kernel, by decide, fun _ => rfl, by decide +kernel⟩

/-- Function 2's heartbeat runs, its partition 1 holds a running stream. -/
def beating : State := put (streaming .init) [(F.hstHbcfg_TIMEOUT_MS 2, 1), (F.hstHbcfg_POLICY 2, 1)]

/-- The same, host-lost. -/
def lost : State := put beating [(F.hstAttach_LOST 2, 1)]

theorem wit_host_loss : Reaches beating (.vf 1) (.hstHb 2) 77 ∧ Reaches beating (.vf 1) (.hstAttach 2) (fields [(F.hstAttach_DETACH 2, 1)]) ∧ Reaches lost (.vf 1) (.hstAttach 2) (fields [(F.hstAttach_ATTACH 2, 1)])
    ∧ Reaches { beating with time := [0, 0, 0, 0, 0, 0, 0, 0, 2400000] } (.vf 1) (.hstHb 2) 77 :=
  ⟨reaches_of (by decide +kernel), reaches_of (by decide +kernel), reaches_of (by decide +kernel), reaches_of (by decide +kernel)⟩

theorem wit_host_states : beating.fbit (F.hstAttach_LOST 2) = false ∧ beating.hbExpired 2 = false ∧ ({ beating with time := [0, 0, 0, 0, 0, 0, 0, 0, 2400000] } : State).hbExpired 2 = true ∧ lost.fbit (F.hstAttach_LOST 2) = true
    ∧ 5 ∈ beating.liveStreams 1 ∧ beating.strState 5 = 1 ∧ lost.fget (F.hstHbcfg_POLICY (1 + 1)) = 1 ∧ lost.partState 1 ≠ 0 ∧ (∀ k ∈ lost.liveStreams 1, (lost.str k).started = []) ∧ lost.partRuns 1 = false := by
  decide +kernel

theorem wit_doorbell : (streaming .init).fnOwns 2 5 = true ∧ (streaming .init).partResetting ((streaming .init).strPart 5) = false ∧ bitsOf (5 * 2 ^ 32 + 64) 47 32 = 5 ∧ 64 ≤ 2 ^ (streaming .init).fget (F.strRing_LOG2N 5)
    ∧ 2 ^ (streaming .init).fget (F.strRing_LOG2N 5) < 65 := by decide +kernel

theorem wit_descriptor_fetch : (streaming .init).fetchable 5 = true ∧ ((streaming .init).fetchTurn 1 = some 5 ∧ ∀ p, p < 8 → p ≠ 1 → (streaming .init).fetchTurn p = none) ∧ (streaming .init).inRegion 1 0x2000 64 (·.rd) = true
    ∧ SliceReady (streaming .init) 0x2000 64 false ∧ (streaming .init).fget (F.strRing_BASE 5) + (streaming .init).fget (F.strHead_HEAD 5) % 2 ^ (streaming .init).fget (F.strRing_LOG2N 5) * 64 = 0x2000 :=
  ⟨by decide +kernel, by decide +kernel, by decide +kernel, ⟨by decide, by decide, between (by decide +kernel), by decide +kernel, by decide +kernel, by decide +kernel⟩, by decide +kernel⟩

/-- The COPY with its CRC. -/
def goodD : Nat := descW 2 10 0 (0x2000 + 0x2100 * 2 ^ 64 + 64 * 2 ^ 128)

/-- The stream has fetched `d`. -/
def fetchedD (d : Nat) : State := streaming { StreamS.init with fetched := [d], dup := [(7, some ⟨1, 0, 0⟩)] }

theorem wit_descriptor_check : descCrc goodD = sdCrc goodD ∧ sdSeq goodD = (fetchedD goodD).nextSeq 5 ∧ descReserved goodD = false ∧ sdOp goodD ≠ 3 ∧ (fetchedD goodD).descAddrs 1 goodD = .good
    ∧ (fetchedD goodD).strRuns 5 = true ∧ (fetchedD goodD).cqFull 5 = false ∧ ((fetchedD goodD).str 5).checked = false ∧ descCrc 1 ≠ sdCrc 1 ∧ descCrc (descW 0 11 0 0) = sdCrc (descW 0 11 0 0)
    ∧ (sdSeq (descW 0 11 0 0) + 2 ^ 32 - 10) % 2 ^ 32 = 1 ∧ 2 ^ 32 - 64 ≤ (sdSeq (descW 0 7 0 0) + 2 ^ 32 - 10) % 2 ^ 32 ∧ descCrc (descW 0 7 0 0) = sdCrc (descW 0 7 0 0)
    ∧ ((fetchedD (descW 0 7 0 0)).str 5).dup.find? (·.1 = 7) = some (7, some ⟨1, 0, 0⟩) ∧ (sdSeq (descW 0 (2 ^ 31 + 11) 0 0) + 2 ^ 32 - 10) % 2 ^ 32 = 2 ^ 31 + 1 := by decide +kernel

/-- The stream has `d` at its head, checked, after failures and with descriptors still out. -/
def headed (d : Nat) (out : List StrOp) (bad : List (Nat × Nat)) : State :=
  streaming { StreamS.init with fetched := [d], checked := true, started := out, badF := bad, badC := bad }

theorem wit_ordering : (∀ op ∈ [0, 4, 5, 6, 7], (headed (bodyW op 10 0x80 0) [] []).strHead 5 op = some (bodyW op 10 0x80 0)) ∧ sdHaltOnErr (bodyW 4 10 0x80 0) = true
    ∧ ((headed (bodyW 4 10 0 0) [⟨9, 0, 0, 1, [], 0⟩] []).str 5).started ≠ [] ∧ (headed (bodyW 4 10 0x80 0) [] [(8, 3), (9, 2)]).firstBad 5 [(8, 3), (9, 2)] = some (8, 3)
    ∧ gValue (bodyW 7 10 0 (5 + 2 ^ 64 + 2 ^ 128)) = 1 ∧ gTimeout (bodyW 7 10 0 (5 + 2 ^ 64 + 2 ^ 128)) = 1 ∧ ({ up with time := [0, 0, 0, 0, 0, 0, 0, 0, 2400000] } : State).now 8 ≥ 1200000 := by decide +kernel

theorem wit_copy : (headed copyD [] []).strHead 5 2 = some copyD ∧ StartedOp (streaming { StreamS.init with started := [⟨10, 2, copyD, 1, [], 0⟩] }) 5 10 2 ⟨10, 2, copyD, 1, [], 0⟩
    ∧ (streaming .init).dmaPhys 1 0x2000 = some 0x2000 ∧ (streaming .init).dmaPhys 1 0x2100 = some 0x2100 ∧ SliceReady (streaming .init) 0x2000 64 false ∧ SliceReady (streaming .init) 0x2100 64 true
    ∧ (∀ m, m < 768 → (streaming .init).retraining m = false) ∧ cqSlot (streaming .init) 5 + 32 ≤ 0x2100 :=
  ⟨by decide +kernel, by unfold StartedOp; decide +kernel, by decide +kernel, by decide +kernel, ⟨by decide, by decide, between (by decide +kernel), by decide +kernel, by decide +kernel, by decide +kernel⟩,
    ⟨by decide, by decide, between (by decide +kernel), by decide +kernel, by decide +kernel, by decide +kernel⟩, by decide +kernel, by decide +kernel⟩

theorem wit_netwrite : (headed netD [] []).strHead 5 8 = some netD ∧ cSrc netD = 0x2000 ∧ cLen netD = 64 ∧ Sparse.find ({ headed netD [] [] with qps := [(0, (1, 0))] } : State).qps (nQp netD) = some (1, 0) ∧ (headed netD [] []).dmaPhys 1 0x2000 = some 0x2000
    ∧ StartedOp (streaming { StreamS.init with started := [⟨10, 8, netD, 1, [], 64⟩] }) 5 10 8 ⟨10, 8, netD, 1, [], 64⟩ := by unfold StartedOp; decide +kernel

/-- Virtual core 0 of partition 1 is core 0, idle. -/
def launching : State := (put (headed launchD [] []) [(F.coreFence_FENCE 0, 0), (F.prtCfg_CLUSTERS 1, 1), (F.coreVcfg_VCOUNT 1, 1), (F.coreVmap_VALID 1 0, 1), (F.coreVmap_PCORE 1 0, 0)]).fpSet 8 0 true

theorem wit_launch : launching.strHead 5 1 = some launchD ∧ launching.partState 1 = 1 ∧ (∀ i, i < lVnum launchD → ∃ n, launching.vmap 1 (lVfirst launchD + i) = some n ∧ launching.coreIdle n = true ∧ launching.fw.swaps.contains n = false)
    ∧ SliceReady launching (lProg launchD) (32 * lBundles launchD) false
    ∧ StartedOp (streaming { StreamS.init with started := [⟨10, 1, launchD, 0, [(0, 2, 3)], 0⟩] }) 5 10 1 ⟨10, 1, launchD, 0, [(0, 2, 3)], 0⟩ := by
  refine ⟨by decide +kernel, by decide +kernel, ?_, ⟨by decide +kernel, by decide +kernel, ?_, by decide +kernel, by decide +kernel, by decide +kernel⟩, by unfold StartedOp; decide +kernel⟩
  · intro i hi; have h : lVnum launchD = 1 := by decide +kernel
    have : i = 0 := by omega
    subst this; exact ⟨0, by decide +kernel, by decide +kernel, by decide +kernel⟩
  · have h1 : lProg launchD = 0x2000 := by decide +kernel
    have h2 : lBundles launchD = 2 := by decide +kernel
    rw [h1, h2]; exact between (by decide +kernel)

/-- R392: a LAUNCH is held while its core has still to take the new microcode. -/
theorem test_launch_held : (match exec (.streamLaunch 5) { launching with fw := { launching.fw with swaps := [0] } } with | .next t => (t.core 0).inst.isNone | _ => false) = true := by decide +kernel

/-- Stream 5 in a STATE, contexts locked. -/
def controlled (st : Nat) : State := put (streaming .init) [(F.strCtx_LOCK, 1), (F.strStat_STATE 5, st)]

theorem wit_stream_control : Reaches (controlled 0) .pf0 (.strCtl 5) (with1 [F.strCtl_EN 5] (2 ^ 32)) ∧ (controlled 0).strState 5 = 0 ∧ (controlled 0).fbit F.strCtx_LOCK = true
    ∧ ((controlled 0).setReg (.strCtl 5) ((controlled 0).merged .pf0 (.strCtl 5) (fields [(F.strCtl_EN 5, 1), (F.strCtl_PART 5, 1)]) % 2 ^ 61 + 2 ^ 63)).ringsOk 5 = true
    ∧ Reaches (controlled 3) .pf0 (.strCtl 5) (fields [(F.strCtl_EN 5, 1), (F.strCtl_RESUME 5, 1), (F.strCtl_PART 5, 1)]) := by unfold Reaches; decide +kernel

theorem wit_stream_halt : Reaches (controlled 4) .pf0 (.strCtl 5) (fields [(F.strCtl_PART 5, 1)]) ∧ (controlled 4).fget (F.strStat_OUTSTANDING 5) = 0
    ∧ Reaches (controlled 2) .pf0 (.strCtl 5) (fields [(F.strCtl_EN 5, 1), (F.strCtl_HALT 5, 1), (F.strCtl_PART 5, 1)]) := by unfold Reaches; decide +kernel

theorem wit_stream_rings : (controlled 3).strStopped 5 = true ∧ Reaches (controlled 3) .pf0 (.strCq 5) (fields [(F.strCq_LOG2N 5, 16)]) ∧ Reaches (controlled 3) .pf0 (.strHead 5) 3 := by
  unfold Reaches; decide +kernel

/-! ### Links and the fabric -/

/-- Links 3 and 4 of a device that has come up, in a STATE and generation. -/
def linked (st gen : Nat) (k : LinkS) : State :=
  { (put up [(F.bootStatus_STAGE, 8), (F.bootStatus_STATE, 1), (F.secStat_MSTATE, 1), (F.lnkCfg_EN 3, 1), (F.lnkCfg_MINWL 3, 2), (F.lnkCfg_GEN_ALLOW 3, 3), (F.lnkStat_STATE 3, st), (F.lnkStat_GEN 3, gen), (F.lnkStat_WL_MASK 3, 15), (F.lnkStat_WL 3, 4),
      (F.lnkStat_STATE 4, 3), (F.lnkStat_GEN 4, 3), (F.lnkCfg_EN 4, 1), (F.lnkEcl_STATE 3, 0), (F.rteEntc_VALID 9, 1), (F.rteEntc_ESC_VALID 9, 1), (F.rteEntc_ESC_LINK 9, 4), (F.rteCfg_DEVID, 2)]).fpSet 400 3 true with
    links := [(3, k), (4, { LinkS.init with cred := (List.range 12).map fun c => (c, 20000) })], rte := [(9, (16, 0))] }

theorem wit_light : (linked 1 0 .init).linkState 3 ≤ 1 ∧ ((linked 1 0 .init).setReg .safLaser 0).laserOn 3 = true ∧ (linked 1 0 .init).secOn = true := by decide +kernel

/-- A HELLO of device 9, port 7, with an ECHO. -/
def helloW (echo : Nat) : Bytes := mkRec 176 [(0, 2, 1), (2, 2, 7), (4, 2, 9), (6, 1, 15), (8, 6, 77), (16, 4, 0), (24, 8, 5), (32, 8, echo)]

theorem wit_hello : (linked 5 0 { LinkS.init with retry := true, hfails := 2 }).linkState 3 = 5 ∧ (linked 5 0 .init).fbit (F.lnkPeerId_VALID 3) = false ∧ ((linked 2 0 .init).link 3).rx = []
    ∧ (linked 2 0 .init).fw.transit = false ∧ recField (helloW 0) 32 8 = 0 ∧ recField (helloW 0) 24 8 ≠ ((linked 2 0 .init).link 3).peerNonce ∧ recField (helloW 8) 32 8 = 8 ∧ 8 ≠ 0
    ∧ bitAt (recField (helloW 8) 6 1) 3 = true ∧ bitAt ((linked 2 0 .init).fget (F.lnkCfg_GEN_ALLOW 3)) 1 = true ∧ (linked 2 0 .init).fbit (F.lnkCfg_ENC 3) = false
    ∧ 176 ≤ (helloW 0).length ∧ recField (helloW 0) 0 2 = 1 ∧ SaysHello (linked 2 0 .init) 3 ∧ SaysHello (linked 5 3 { LinkS.init with retry := true }) 3 := by unfold SaysHello; decide +kernel

/-- The peer link 3 expects. -/
def expecting : State := put (linked 2 0 { LinkS.init with nonce := 8 }) [(F.lnkExpect_VALID 3, 1), (F.lnkExpect_DEVID 3, 9), (F.lnkExpect_PORT 3, 7), (F.rteShape_LZM1, 9)]

/-- Whether a signature verifies is no rule of the model: where it does, the rest of what a good HELLO needs is met. -/
theorem wit_hello_good (hv : Config.ed448Verify (Sparse.getD (fun _ => []) expecting.certs (recField (helloW 8) 8 6)) ((helloW 8).take 62) (((helloW 8).drop 62).take 114) = true) :
    HelloGood expecting (helloW 8) ∧ recField (helloW 8) 32 8 = (expecting.link 3).nonce ∧ expecting.fbit (F.lnkExpect_VALID 3) = true ∧ recField (helloW 8) 16 4 = expecting.fget F.rteCfg_TOPO_EPOCH
    ∧ expecting.fget (F.lnkExpect_DEVID 3) = recField (helloW 8) 4 2 % 32768 ∧ expecting.fget (F.lnkExpect_PORT 3) = recField (helloW 8) 2 2 % 64 ∧ expecting.devOk 9 = true :=
  ⟨⟨by decide +kernel, by decide +kernel, hv⟩, by decide +kernel, by decide +kernel, by decide +kernel, by decide +kernel, by decide +kernel, by decide +kernel⟩

theorem wit_hello_bad : ¬ HelloGood (linked 2 0 .init) [] ∧ ((linked 2 0 .init).link 3).hfails < 2 ∧ 2 ≤ ((linked 2 0 { LinkS.init with hfails := 2 }).link 3).hfails :=
  ⟨fun h => absurd h.1 (by decide), by decide +kernel, by decide +kernel⟩

theorem wit_key : (put (linked 3 3 { LinkS.init with kem := true }) [(F.lnkCfg_ENC 3, 1)]).linkGen 3 = 3 ∧ (put (linked 3 3 { LinkS.init with kem := true }) [(F.lnkCfg_ENC 3, 1)]).fbit (F.lnkStat_ENC_ACTIVE 3) = false
    ∧ ((linked 2 3 { LinkS.init with kem := true }).link 3).kem = true ∧ (put (linked 3 3 .init) [(F.lnkStat_ENC_ACTIVE 3, 1)]).fbit (F.lnkStat_ENC_ACTIVE 3) = true ∧ (linked 3 3 .init).linkState 3 ≠ 0
    ∧ ((linked 3 3 .init).link 3).unacked = [] ∧ ((linked 3 3 .init).link 3).txq = [] := by decide +kernel

/-- A flit of `n` payload bytes with FLSEQ `q`, good or with a wrong check value. -/
def flitW (n q : Nat) (good : Bool) : Bytes :=
  let b := mkRec (n + 8) [(n, 2, q), (n + 2, 2, 65535), (n + 4, 1, 1), (n + 6, 2, 3)]
  b ++ leBytes 8 (if good then crc64xz b else crc64xz b + 1)

theorem wit_flit : 2 ≤ (linked 3 3 .init).linkState 3 ∧ (flitW 240 0 true).length = 256 ∧ crc64xz ((flitW 240 0 true).take 248) = recField (flitW 240 0 true) 248 8
    ∧ crc64xz ((flitW 240 0 false).take 248) ≠ recField (flitW 240 0 false) 248 8 ∧ recField (flitW 240 0 true) 240 2 = ((linked 3 3 .init).link 3).flRx
    ∧ recField (flitW 240 9 true) 240 2 ≠ ((linked 3 3 .init).link 3).flRx ∧ ([] : Bytes).length ≠ 256 := by decide +kernel

/-- A message to device 9, and one to this device. -/
def msgOut (ord : Bool) (ttl : Nat) : Msg := ⟨9, 7, 3, 0, ord, false, BitVec.ofNat 6 ttl, 2, zeroBytes 16, zeroBytes 16⟩
def msgHere : Msg := { msgOut false 5 with dst := 2 }

theorem wit_replay_link : ((linked 3 3 { LinkS.init with unacked := [⟨1, 0, zeroBytes 40, [msgHere]⟩] }).link 3).unacked ≠ [] := by decide +kernel

/-- A frame of the base mode with one MGT message. -/
def frameW (typ : Nat) (good : Bool) : Bytes :=
  let b := zeroBytes 24 ++ mkRec 48 [(6, 2, 1 + 3 * 2 ^ 13), (16, 1, typ)]
  b ++ leBytes 8 (if good then crc64xz b else crc64xz b + 1)

theorem wit_routing : Arrived (linked 3 3 .init) 3 (msgOut true 5) ∧ (linked 3 3 .init).isLocal (msgOut true 5) = false ∧ (linked 3 3 .init).isLocal msgHere = true ∧ msgHere ∉ ((linked 3 3 .init).link 3).rx
    ∧ (msgOut true 1).ttl ≤ 1 ∧ (linked 3 3 .init).fbit (F.rteEntc_VALID 9) = true ∧ (linked 3 3 .init).liveOf 16 = [4]
    ∧ ((linked 3 3 .init).link ((linked 3 3 .init).physLink 4)).txq = [] ∧ msgUnits (msgOut true 4) ≤ (linked 3 3 .init).credit 4 9 ∧ msgSub (msgOut true 4) = 9 := by
  unfold Arrived; decide +kernel

theorem wit_esc : ((linked 3 3 { LinkS.init with txq := [⟨msgOut false 5, none, 0, false⟩] }).link 3).txq = [⟨msgOut false 5, none, 0, false⟩] ∧ (linked 3 3 .init).fbit (F.rteEntc_ESC_VALID 9) = true
    ∧ (linked 3 3 .init).physLink ((linked 3 3 .init).fget (F.rteEntc_ESC_LINK 9)) = 4 ∧ (linked 3 3 .init).linkLive 4 = true ∧ 2 * 4098 ≤ (linked 3 3 .init).credit 4 (msgSub { msgOut false 5 with sub := 2 }) := by
  decide +kernel

/-- A short message is not cut. -/
theorem splitFor_short {g : Nat} {m : Msg}
    (h : (if m.cls = 2 then m.data.length - 16 else m.data.length) ≤ (if m.cls = 2 then (if g = 3 then 32768 else 1984) else if g = 3 then 65536 else 2016)) : splitFor g m = [m] := by
  unfold splitFor; exact if_pos h

/-- Room, but for a TYPE that is opaque: a message whose length is short goes whole. -/
def room? (s : State) (x : Nat) (m : Msg) : Bool :=
  decide ((s.failed = false ∧ m.sub ≠ 3 ∧ carries (s.linkState x) m = true ∧ (s.link x).txq = []) ∧ msgUnits m ≤ s.credit x (msgSub m)
    ∧ (if m.cls = 2 then m.data.length - 16 else m.data.length) ≤ (if m.cls = 2 then (if s.linkGen x = 3 then 32768 else 1984) else if s.linkGen x = 3 then 65536 else 2016)
    ∧ (s.link x).inFlight + ceilDiv (16 * msgUnits m + 864) (flitRoom (s.linkGen x)) ≤ 4096)

theorem room_of {s : State} {x : Nat} {m : Msg} (h : room? s x m = true) : Room s x m := by
  have h := of_decide_eq_true h
  exact ⟨h.1.1, h.1.2.1, h.1.2.2.1, h.1.2.2.2, h.2.1, splitFor_short h.2.2.1, h.2.2.2⟩

/-- Where a message's way out is free it goes. -/
theorem goes_of {s : State} {m : Msg} {a : Option Nat} (h : (s.pickLink m a).any (fun p => room? s (s.physLink p.1) p.2) = true) : ∃ x m', Goes s m a x m' := by
  cases hp : s.pickLink m a with
  | none => rw [hp] at h; exact absurd h (by simp)
  | some p => rw [hp] at h; exact ⟨_, p.2, p.1, hp, rfl, room_of h⟩

theorem wit_room : Room (linked 3 3 .init) 4 (msgOut true 4) ∧ Room (linked 3 3 .init) 4 { msgOut false 5 with sub := 2 } :=
  ⟨room_of (by decide +kernel), room_of (by decide +kernel)⟩

theorem wit_full_frames : 1 < ((linked 3 3 .init).frameList 3 [{ msgOut true 4 with data := zeroBytes 4064 }, msgOut true 4]).length := by decide +kernel

/-- Link 3 belongs to partition 1, whose region 0 the fabric may use; a request of this device waits under tag 6. -/
def fabric : State :=
  let s := put (live 0 256 (region 1 0 0 0 0xFFFF (linked 3 3 .init))) [(F.prtCfg_STATE 1, 1), (F.lnkCfg_PART 3, 1), (F.prtRgnA_FABRIC 1 0, 1)]
  { s with freq := [(6, ⟨64, none, []⟩)] }

/-- A request from device 9 for 64 bytes at `a`. -/
def reqW (typ a : Nat) : Msg := ⟨2, 9, 0, 0, false, false, 5, BitVec.ofNat 8 typ, mkRec 16 [(0, 6, a), (8, 4, 64), (12, 4, 6)], if typ = 2 then zeroBytes 64 else []⟩

theorem wit_fabric : Arrived fabric 3 (reqW 1 64) ∧ fabric.isLocal (reqW 1 64) = true ∧ fabric.fabricOk 3 64 64 (·.rd) = true ∧ fabric.fabricOk 3 64 64 (·.wr) = true ∧ fabric.fabricOk 3 0x20000 64 (·.rd) = false
    ∧ SliceReady fabric 64 64 false ∧ SliceReady fabric 64 64 true ∧ MapOk fabric ∧ (∀ k, k < 768 → fabric.retraining k = false)
    ∧ (∃ x m', Goes fabric (rspTo fabric.devid (reqW 1 64) stOK (fabric.getBytes 64 64)) none x m') ∧ (∃ x m', Goes fabric (rspTo fabric.devid (reqW 1 64) stDenied []) none x m') :=
  ⟨by unfold Arrived; decide +kernel, by decide +kernel, by decide +kernel, by decide +kernel, by decide +kernel,
    ⟨by decide, by decide, between (by decide +kernel), by decide +kernel, by decide +kernel, by decide +kernel⟩, ⟨by decide, by decide, between (by decide +kernel), by decide +kernel, by decide +kernel, by decide +kernel⟩,
    by unfold MapOk; decide +kernel, by decide +kernel, goes_of (by decide +kernel), goes_of (by decide +kernel)⟩

theorem wit_fabric_response : Sparse.find fabric.freq 6 = some ⟨64, none, []⟩ ∧ Arrived fabric 3 ⟨2, 9, 1, 0, false, false, 5, 0, mkRec 16 [(0, 4, 6), (4, 1, 0)], zeroBytes 64⟩
    ∧ recField (mkRec 16 [(0, 4, 6), (4, 1, 0)]) 0 4 = 6 ∧ recField (mkRec 16 [(0, 4, 6), (4, 1, stOK)]) 4 1 = stOK := by unfold Arrived; decide +kernel

theorem wit_wavelength : 2 ≤ (linked 3 3 .init).linkState 3 ∧ bitAt ((linked 3 3 .init).fget (F.lnkStat_WL_MASK 3)) 3 = true ∧ ({ linked 3 3 .init with rte := [] } : State).rte = []
    ∧ ((linked 3 3 { LinkS.init with rt := 8 }).link 3).rt = 2 ^ 3 ∧ popCount 4 ((put (linked 3 3 { LinkS.init with rt := 8 }) [(F.lnkStat_WL_MASK 3, 1)]).fget (F.lnkStat_WL_MASK 3)) < 2
    ∧ (linked 3 3 .init).fget (F.lnkCfg_MINWL 3) = 2 := by decide +kernel

/-- A device before S7 with no link up. -/
def early : State := put up [(F.bootStatus_STAGE, 6)]

theorem wit_link_writes : Reaches early (.cap 12) (.lnkCfg 3) (fields [(F.lnkCfg_MINWL 3, 4)]) ∧ early.linkState 3 = 0 ∧ Reaches early (.cap 12) (.lnkExpect 3) 0 ∧ early.fbit (F.lnkPeerId_VALID 3) = false := by
  unfold Reaches; decide +kernel

theorem wit_map_write : Reaches early (.cap 12) (.lnkMap 3) (fields [(F.lnkMap_PHYS 3, 3)]) ∧ (∀ k, k < 64 → k ≠ 3 → early.physLink k ≠ 3) := by unfold Reaches; decide +kernel

theorem wit_route_writes : Reaches early (.cap 12) (.rteEntc 0x7FFF) (fields [(F.rteEntc_ESC_LINK 0x7FFF, 59)]) ∧ Reaches early (.cap 12) .rteCfg (fields [(F.rteCfg_ESC_WAIT_NS, 10000)])
    ∧ early.fget F.bootStatus_STAGE < 7 ∧ (∀ k, k < 64 → early.fbit (F.lnkPeerId_VALID k) = false) := by unfold Reaches; decide +kernel

theorem wit_shape_write : Reaches early (.cap 12) .rteShape (fields [(F.rteShape_LXM1, 7), (F.rteShape_LYM1, 7), (F.rteShape_LZM1, 31)]) ∧ (∀ k, k < 64 → early.linkState k ≠ 3) ∧ (∀ k, k < 60 → early.fbit (F.lnkPeerId_VALID k) = false)
    ∧ inWord F.rteShape_LXM1 (fields [(F.rteShape_LXM1, 7), (F.rteShape_LYM1, 7), (F.rteShape_LZM1, 31)]) ≠ 0 := ⟨reaches_of (by decide +kernel), by decide +kernel⟩

theorem wit_eclipse : Reaches { early with eclRail := true } (.cap 12) (.lnkEcl 29) (with1 [F.lnkEcl_FORCE 29] 0) ∧ early.fbit (F.lnkEcl_FORCE 29) = false := by unfold Reaches; decide +kernel

/-- LNK_MAP moves link 3 to the unused physical link 60. -/
def swapping : State := { put early [(F.lnkMap_PHYS 60, 59), (F.lnkMap_PHYS 59, 59)] with mapSwap := [(3, 60)] }

theorem wit_swap_marker : swapping.mapSwap = [(3, 60)] ∧ (∀ k, k < 64 → swapping.physLink k ≠ 60) ∧ (swapping.link (swapping.physLink 3)).unacked = []
    ∧ (put (linked 3 3 .init) [(F.trcMkr_EN, 1)]).fbit F.trcMkr_EN = true ∧ (linked 3 3 .init).linkState 3 = 3 ∧ (linked 3 3 .init).linkGen 3 = 3 := by decide +kernel

/-! ### Collectives -/

/-- A COLLECTIVE of stream 5 on group 1: operation, algorithm, element type, count, chunks of 2^10 elements, root 1, from 0x4000 to 0x5000. -/
def colD (opc alg dt count : Nat) : Nat :=
  bodyW 3 10 0 (1 + (opc + 16 * alg) * 2 ^ 24 + dt * 2 ^ 32 + 10 * 2 ^ 40 + 2 ^ 48 + 0x4000 * 2 ^ 64 + 0x5000 * 2 ^ 128 + count * 2 ^ 192 + 4096 * 2 ^ 256 + 0x7000 * 2 ^ 320)

/-- Group 1: this device, rank 0, and device 9. -/
def group1 : ColGroup := ⟨true, true, 1, 5, 0, [2, 9], none, (1, 1, 1), 0, 0, 0, true, 0, [], []⟩

/-- A device with `d` at the head of stream 5, a link to device 9, and the collective areas locked. -/
def colState (d : Nat) (out : List StrOp) (ops : List ColOp) : State :=
  let s := put (live 0x7000 16 (headed d out []))
    [(F.colPool_LOCK, 1), (F.colPool_CHUNKS, 100), (F.colPriv_LOCK, 1), (F.colChcfg_EN 0, 1), (F.colChcfg_PART 0, 1), (F.lnkStat_STATE 4, 3), (F.lnkStat_GEN 4, 3), (F.rteEntc_VALID 9, 1), (F.rteCfg_DEVID, 2), (F.lnkStat_STATE 3, 3)]
  { s with groups := [(1, group1)], cops := ops, rte := [(9, (16, 0))], links := [(4, { LinkS.init with cred := (List.range 12).map fun c => (c, 20000) })] }

/-- An algorithm that each operation may name. -/
def algFor (opc : Nat) : Nat := if opc < 3 then 0 else if opc < 5 ∨ 7 < opc then 4 else 3

theorem wit_collective_good : ∀ row ∈ collTable.map (·.2), let d := colD row (algFor row) 2 2048
    (colState d [] []).strHead 5 3 = some d ∧ kOpc d = row ∧ (colState d [] []).colCheck 5 ((colState d [] []).strPart 5) d = .good ∧ (row ≠ 7 → (colState d [] []).colFoots (acceptedOp (colState d [] []) 5 d) = none)
    ∧ (row = 7 → opKids (acceptedOp (colState d [] []) 5 d) ≠ []) := by decide +kernel

theorem wit_collective_bad : (colState (colD 0 0 9 4) [] []).colCheck 5 1 (colD 0 0 9 4) = .bad stDenied ∧ (colState (colD 0 3 2 0) [] []).colCheck 5 1 (colD 0 3 2 0) = .noop
    ∧ (∀ x ∈ ((colState 0 [⟨10, 3, 0, 1, [], 0⟩] []).str 5).started, x.seq ≠ sdSeq (descW 3 11 0 0)) := by decide +kernel

/-- The operation of a COLLECTIVE on group 1, in a state of its own making. -/
def opOf (d : Nat) (f : ColOp → ColOp) : ColOp := f (acceptedOp (colState d [] []) 5 d)

/-- A device with the operation, its descriptor outstanding. -/
def opState (d : Nat) (f : ColOp → ColOp) : State := colState d [⟨10, 3, d, 1, [], 0⟩] [opOf d f]

theorem wit_collective_start : (∀ opc ∈ [0, 1, 2, 5, 6, 9], let s := opState (colD opc (algFor opc) 2 2048) id
    s.failed = false ∧ ((s.groupOps 1 (· = 1)).filter fun o => kOpc o.desc ≠ 7).length < 64 ∧ s.groupOps 1 (· = 0) = [opOf (colD opc (algFor opc) 2 2048) id] ∧ s.cop (opOf (colD opc (algFor opc) 2 2048) id).id = some (opOf (colD opc (algFor opc) 2 2048) id)
      ∧ kOpc (colD opc (algFor opc) 2 2048) = opc ∧ s.early = []) ∧ (opChunkRefs (opOf (colD 9 4 2 2048) id) []).2 = [] := by decide +kernel

/-- A COL message of kind `k` from rank 1 to this device, for operation SEQ 0 of group 1. -/
def colM (k q : Nat) (pair : Bool) (data : Bytes) : Msg := ⟨2, 9, 2, 0, false, false, 5, 0, mkRec 16 [(0, 2, 1), (8, 4, q), (12, 1, k), (13, 1, if pair then 64 else 0), (14, 2, 1)], data⟩

/-- A RECV that moves data, and what a demand of it needs. -/
def recvOp : ColOp := opOf (colD 9 4 2 2048) fun o => { o with st := 1, cnts := [(1, 2048)], want := [⟨2, 0, 1⟩, ⟨2, 1, 1⟩], result := 2048 }

/-- A BROADCAST from rank 1 that moves data here, with a chunk `x` coming in and a chunk going out. -/
def bcastOp (ins : List ColIn) (txs : List ColTx) : ColOp := opOf (colD 5 3 2 2048) fun o => { o with st := 1, want := [⟨2, 0, 1⟩, ⟨2, 1, 1⟩], ins := ins, txs := txs }

def colWith (o : ColOp) (dem : List ColDem) : State := { colState 0 [⟨10, 3, o.desc, 1, [], 0⟩] [o] with cdem := dem }

theorem wit_grant : (colWith (bcastOp [] []) [⟨(bcastOp [] []).id, ⟨2, 0, 1⟩, false⟩]).cop (bcastOp [] []).id = some (bcastOp [] []) ∧ 0 < (colWith (bcastOp [] []) []).poolFree
    ∧ ({ colWith (bcastOp [] []) [⟨(bcastOp [] []).id, ⟨2, 0, 1⟩, false⟩] with cops := [{ bcastOp [] [] with stages := [(9, true, 0), (10, true, 1)] }] } : State).mayReserve ⟨(bcastOp [] []).id, ⟨2, 0, 1⟩, false⟩ = false := by decide +kernel

/-- The BROADCAST holding its two reserved chunks. -/
def fullOp : ColOp := { bcastOp [] [] with stages := [(9, true, 0), (10, true, 1)] }

/-- An ALL_REDUCE that waits behind it. -/
def nextOp : ColOp := opOf (colD 0 0 2 2048) fun o => { o with id := { o.id with seq := 1 } }

/-- Both, with no staging chunk free. -/
def crowded : State := put (colState 0 [] [fullOp, nextOp]) [(F.colPool_CHUNKS, 0)]

theorem wit_crowded_start : crowded.groupOps 1 (· = 0) = [nextOp] ∧ crowded.cop nextOp.id = some nextOp ∧ (opChunkRefs nextOp []).2 ≠ [] ∧ crowded.fget F.colPool_CHUNKS = 0 ∧ 2 ≤ crowded.resUsed 1 ∧ (opChunkRefs nextOp []).2.Nodup
    ∧ crowded.cdem = [] ∧ crowded.early = [] ∧ crowded.failed = false := by decide +kernel

theorem wit_credit_req : ColMeets (colWith fullOp []) 3 (colM 3 1 false (ctlData 0 2 0)) 3 fullOp ∧ ctlRef (colM 3 1 false (ctlData 0 2 0)) = ⟨2, 1, 1⟩ ∧ ctlRef (colM 3 1 false (ctlData 0 2 0)) ∈ fullOp.want
    ∧ (colWith fullOp []).cdem = [] ∧ 0 < (colWith fullOp []).poolFree ∧ (colWith fullOp []).mayReserve ⟨fullOp.id, ⟨2, 1, 1⟩, false⟩ = false
    ∧ (put (colWith fullOp []) [(F.colPool_CHUNKS, 0)]).poolFree = 0 := by unfold ColMeets Arrived; decide +kernel

/-- A chunk going out that has had no credit, and one that has. -/
def txW (sent : Bool) : ColTx := ⟨⟨2, 0, 1⟩, 9, zeroBytes 8, false, sent, false⟩

theorem wit_credit : ColMeets (colWith (bcastOp [] [txW false]) []) 3 (colM 4 0 false (ctlData 0 2 0)) 4 (bcastOp [] [txW false]) ∧ mChunk (colM 4 0 false (ctlData 0 2 0)) ≠ 0xFFFFFFFF
    ∧ recField (ctlData 0 2 0) 8 1 ≠ 1 ∧ (bcastOp [] [txW false]).txs.find? (fun t => t.ref = ctlRef (colM 4 0 false (ctlData 0 2 0)) && !t.sent) = some (txW false)
    ∧ ColMeets (colWith (bcastOp [] [txW true]) []) 3 (colM 5 0 false (ctlData 0 2 0)) 5 (bcastOp [] [txW true]) ∧ recField (ctlData 0 2 0) 8 1 = 2
    ∧ ColMeets (colWith (bcastOp [] [txW true]) []) 3 (colM 6 0 false (ctlData 0 2 0)) 6 (bcastOp [] [txW true])
    ∧ (bcastOp [] [txW true]).txs.find? (fun t => t.ref = ctlRef (colM 6 0 false (ctlData 0 2 0)) && t.sent) = some (txW true) := by unfold ColMeets Arrived; decide +kernel

/-- A RECV that knows no count. -/
def recv0 : ColOp := opOf (colD 9 4 2 2048) fun o => { o with st := 1 }

theorem wit_counts : ColMeets (colWith recv0 []) 3 (colM 7 0 true (ctlData 2048 0 0)) 7 recv0 ∧ recv0.cnts = [] ∧ mRank (colM 7 0 true (ctlData 2048 0 0)) = recv0.id.peer.toNat
    ∧ recField (ctlData 2048 0 0) 0 8 % 2 ^ 40 = 2048 ∧ 2048 ≤ kCount recv0.desc := by unfold ColMeets Arrived; decide +kernel

/-- A piece that is a whole chunk of `data`, with its trailer. -/
def pieceM (o : ColOp) (k q : Nat) (data : Bytes) : Msg := colM k q false (data ++ leBytes 8 (crc64xz data) ++ leBytes 4 (opSig o.desc) ++ [0, 0, 1, 0])

/-- A chunk staged and not come. -/
def inW (kind q : Nat) : ColIn := ⟨⟨kind, q, 1⟩, 9, [], none, false, [], false⟩

/-- A BROADCAST of 8 elements from rank 1, and an ALL_REDUCE of three members with a partial last chunk in which this device has rank 1. -/
def bcast8 : ColOp := opOf (colD 5 0 2 8) fun o => { o with st := 1, want := [⟨2, 0, 1⟩, ⟨2, 1, 1⟩], ins := [inW 2 0] }
def ring3 (ins : List ColIn) : ColOp := opOf (colD 0 0 2 2056) fun o => { o with st := 1, members := [9, 2, 11], rank := 1, want := [⟨0, 2, 0⟩, ⟨1, 2, 0⟩, ⟨1, 1, 0⟩], ins := ins }

/-- A chunk from rank 0. -/
def in0 (kind q : Nat) : ColIn := ⟨⟨kind, q, 0⟩, 9, [], none, false, [], false⟩

/-- A message of rank 0. -/
def from0 (m : Msg) : Msg := { m with hdr := recPut m.hdr 14 [0, 0] }

theorem wit_data : WholeChunk bcast8 (pieceM bcast8 2 0 (zeroBytes 32)) ⟨2, 0, 1⟩ (inW 2 0) 32 ∧ ColMeets (colWith bcast8 []) 3 (pieceM bcast8 2 0 (zeroBytes 32)) 2 bcast8
    ∧ distTo (kAlg bcast8.desc) (opP bcast8) (ownerOf bcast8 0) 0 bcast8.rank (opShape bcast8) = [] ∧ kDst bcast8.desc = 0x5000 := by
  unfold WholeChunk ColMeets Arrived; decide +kernel

theorem wit_final : WholeChunk (ring3 [in0 1 2]) (from0 (pieceM (ring3 []) 1 2 (zeroBytes 32))) ⟨1, 2, 0⟩ (in0 1 2) 32
    ∧ ColMeets (colWith (ring3 [in0 1 2]) []) 3 (from0 (pieceM (ring3 []) 1 2 (zeroBytes 32))) 1 (ring3 [in0 1 2])
    ∧ distTo (kAlg (ring3 []).desc) (opP (ring3 [])) (ownerOf (ring3 []) 2) 2 (ring3 []).rank (opShape (ring3 [])) = [] ∧ kOpc (ring3 []).desc = 0 := by
  unfold WholeChunk ColMeets Arrived; decide +kernel

theorem wit_partial : WholeChunk (ring3 [in0 0 2]) (from0 (pieceM (ring3 []) 0 2 (zeroBytes 64))) ⟨0, 2, 0⟩ (in0 0 2) 64
    ∧ ColMeets (colWith (ring3 [in0 0 2]) []) 3 (from0 (pieceM (ring3 []) 0 2 (zeroBytes 64))) 0 (ring3 [in0 0 2])
    ∧ (∃ left, redPlan (kAlg (ring3 []).desc) 3 (chunkOwner (ring3 []).desc 3 2) 2 1 (opShape (ring3 [])) = ([(0, left)], some 2)) ∧ kReduces (ring3 []).desc = true
    ∧ ((ring3 [in0 0 2]).ins.filter fun y => y.ref.kind = 0 && y.ref.q = 2) = [in0 0 2] ∧ (chunkSpan (ring3 []).desc 2) = (2048, 8) := by
  unfold WholeChunk ColMeets Arrived; exact ⟨by decide +kernel, by decide +kernel, ⟨true, by decide +kernel⟩, by decide +kernel, by decide +kernel, by decide +kernel⟩

theorem wit_chunk_memory : SliceReady (live 0x5000 32 (colWith bcast8 [])) 0x5000 32 true ∧ SliceReady (live 0x6000 32 (colWith (ring3 []) [])) 0x6000 32 false ∧ MapOk (live 0x5000 32 (colWith bcast8 [])) ∧ RingsOff (colWith bcast8 []) :=
  ⟨⟨by decide, by decide, between (by decide +kernel), by decide +kernel, by decide +kernel, by decide +kernel⟩, ⟨by decide, by decide, between (by decide +kernel), by decide +kernel, by decide +kernel, by decide +kernel⟩,
    by unfold MapOk; decide +kernel, by unfold RingsOff; decide +kernel⟩

/-- A BROADCAST whose part is done, one that has stalled, and one complete locally. -/
def doneOp : ColOp := opOf (colD 5 0 2 8) fun o => { o with st := 1 }
def stalledOp : ColOp := { doneOp with stalled := true, want := [⟨2, 0, 1⟩] }
def localOp : ColOp := { doneOp with st := 2 }

theorem wit_local : (colWith doneOp []).cop doneOp.id = some doneOp ∧ kOpc doneOp.desc ∉ [4, 7, 9] ∧ StartedOp (colWith doneOp []) 5 doneOp.sseq 3 ⟨10, 3, doneOp.desc, 1, [], 0⟩ ∧ doneOp.stream = some 5
    ∧ (put (colWith stalledOp []) [(F.colCfg_ABORT_MS, 5)]).fget F.colCfg_ABORT_MS ≠ 0 ∧ ColMeets (colWith doneOp []) 3 (colM 10 0 false (ctlData stPeerLost 0 0)) 10 doneOp
    ∧ ColMeets (colWith doneOp []) 3 (colM 8 0 false (ctlData stOK 0 0)) 8 doneOp ∧ (∀ x ∈ doneOp.kids, x.1 ≠ 1 ∧ x.1 ≠ doneOp.rank) ∧ doneOp.rank = 0
    ∧ ColMeets (colWith localOp []) 3 (colM 9 0 false (ctlData stOK 0 0)) 9 localOp := by unfold ColMeets Arrived StartedOp; decide +kernel

theorem wit_cq_collective : CqReady (colWith doneOp []) 5 := cqReady_of (by decide +kernel) (by unfold MapOk; decide +kernel)

theorem wit_last_ok : localOp.id.kind = 0 ∧ (localOp.id.seq.toNat + 2 ^ 32 - ((colWith localOp []).group 1).lastOk) % 2 ^ 32 < 2 ^ 31 ∧ recField (ctlData stOK 0 0) 0 8 % 256 = stOK
    ∧ (bcastOp [] [txW true]).txs.find? (fun t => t.ref.q = 0 && t.ref.rank = 1 && t.sent) = some (txW true) ∧ (bcastOp [] [txW false]).txs.find? (fun t => t.ref.q = 0 && t.ref.rank = 1 && !t.sent) = some (txW false)
    ∧ ({ localOp with rel := [(9, 1)], decided := some stOK } : ColOp).rel = [(9, 1)] := by decide +kernel

theorem wit_ways_out : (∃ x m', Goes (colWith doneOp []) (ctlMsg (colWith doneOp []) doneOp 9 0 1 (ctlData stOK 0 0)) none x m')
    ∧ (∃ x m', Goes (colWith doneOp []) (ctlMsg (colWith doneOp []) doneOp 3 0 1 (ctlData 0 2 0)) none x m') := ⟨goes_of (by decide +kernel), goes_of (by decide +kernel)⟩

theorem wit_group_commands : (∀ c, c < 5 → GcmdReady (colState 0 [] []) (.cap 12) c 1) ∧ ((colState 0 [] []).group 1) = group1 ∧ 2 ≤ (put (colState 0 [] []) [(F.colPool_CHUNKS, 100)]).poolFree
    ∧ (put (colState 0 [] []) [(F.colPool_CHUNKS, 3)]).poolFree < 2 ∧ (colState 0 [] []).groupOps 1 (· < 3) = [] :=
  ⟨fun c hc => below 5 (P := fun c => Starts (colState 0 [] []) (.cap 12) .colGcmd F.colGcmd_GO [(F.colGcmd_CMD, c), (F.colGcmd_GROUP, 1)]) (fun _ => starts_of) (by decide +kernel) c hc, by decide +kernel⟩

/-- The member list of devices 2 and 9 stands staged at 0x4000. -/
def staged : State := ((put (live 0x4000 4 (colState 0 [] [])) [(F.colGdata0_VALID, 1), (F.colGdata0_EPOCH, 1), (F.colGdata1_PM1, 1), (F.colGdata2_MLIST, 0x4000)]).store 0x4000 [2, 0, 9, 0]).2

theorem wit_group_staged : staged.fbit F.colGdata0_VALID = true ∧ staged.gcmdList = (1, [2, 9]) ∧ staged.fget F.colGdata0_EPOCH = (group1.epoch + 1) % 65536
    ∧ (staged.group 2).active = false ∧ (staged.group 1).valid = true ∧ staged.groupOps 1 (fun _ => true) = [] ∧ ListReady staged := by unfold ListReady; decide +kernel

/-! ### Faults, records, the Umbra service, arbitration -/

theorem wit_fatal : (runs core1).partState 1 ≠ 0 ∧ (runs core1).failed = false ∧ (runs core1).rstCovered 2 1 = false ∧ up.partState 1 = 0 ∧ 0 ∈ (runs core1).partCores 1
    ∧ (put up [(F.trcBcfg_EN 8, 1)]).fbit (F.trcBcfg_EN 8) = true := by decide +kernel

/-- Stacked memory at 0 backed for an error ring of device scope. -/
def ringed : State := { put backed0 [(F.mgtErrbase_EN 8, 0)] with err := ⟨[], [zeroBytes 32], false, []⟩ }

theorem wit_error_ring : Reaches ringed .pf0 (.mgtErrbase 0) (fields [(F.mgtErrbase_EN 0, 1), (F.mgtErrbase_LOG2N 0, 6)]) ∧ ringed.fbit (F.mgtErrbase_EN 0) = false ∧ ringed.errRingOk 0 0 6 = true ∧ ringed.errRingOk 0 0 16 = true
    ∧ ringed.err.held = [zeroBytes 32] ∧ (zeroBytes 32).length = 32 ∧ ringed.fget (F.mgtErrstat_WRITTEN 0) = 0 ∧ ringed.fget (F.mgtErrhead_HEAD 0) = 0
    ∧ (put ringed [(F.mgtErrbase_EN 0, 1)]).fbit (F.mgtErrbase_EN 0) = true := by unfold Reaches; decide +kernel

/-- Partition 1 protects 4 rows with group 1; its service is in a STATE. -/
def umbral (st : Nat) (u : UmbS) : State :=
  { put (colState 0 [] []) [(F.umbSet_EN 1, 1), (F.umbSet_SM1 1, 1), (F.umbSet_GROUP 1, 1), (F.umbSet_USTREAM 1, 5), (F.umbSet_JSTREAM 1, 5), (F.umbRows_ROWS 1, 4), (F.umbWin_NROWS 1, 2), (F.umbStat_STATE 1, st),
      (F.umbProt_BASE 1, 0x10000), (F.umbPar_BASE 1, 0x20000), (F.umbWin_BASE 1, 0x30000), (F.strScnt_SCNT 5, 3), (F.umbRange_RCOUNT 1, 2), (F.umbRange_RFIRST 1, 2)] with umbra := [(1, u)] }

theorem wit_umbra : (umbral 1 .init).fbit (F.umbSet_EN 1) = true ∧ (umbral 1 .init).fget (F.umbStat_STATE 1) = 1 ∧ ((umbral 1 .init).umb 1).seen < (umbral 1 .init).fget (F.strScnt_SCNT 5) ∧ (umbral 1 .init).umbReady 1 = true
    ∧ (put (umbral 1 .init) [(F.colPool_LOCK, 0)]).umbReady 1 = false ∧ ((umbral 2 { UmbS.init with worst := stOK }).umb 1).open' = [] ∧ ((umbral 2 { UmbS.init with worst := stCheckFail }).umb 1).worst = stCheckFail
    ∧ ((umbral 2 { UmbS.init with worst := stPeerLost }).umb 1).worst ≠ stCheckFail ∧ ((umbral 1 .init).umb 1).rebuild = false ∧ (umbral 1 .init).fw.transit = false ∧ RingsOff (umbral 1 .init) := by unfold RingsOff; decide +kernel

theorem wit_umbra_commands : (∀ c, c < 4 → Starts (umbral 3 { UmbS.init with pend := true }) .pf0 (.umbCmd 1) (F.umbCmd_GO 1) [(F.umbCmd_CMD 1, c)]) ∧ (umbral 3 { UmbS.init with pend := true }).fw.transit = false
    ∧ ((umbral 3 { UmbS.init with pend := true }).umb 1).pend = true ∧ (begun (umbral 3 .init) .pf0 (.umbCmd 1) (F.umbCmd_GO 1) [(F.umbCmd_CMD 1, 2), (F.umbCmd_IDX 1, 1)]).umbReady 1 = true
    ∧ (umbral 3 .init).fget (F.umbRange_RFIRST 1) + (umbral 3 .init).fget (F.umbRange_RCOUNT 1) ≤ (umbral 3 .init).fget (F.umbRows_ROWS 1) :=
  ⟨below 4 (fun _ => starts_of) (by decide +kernel), by decide +kernel⟩

/-- A window whose rows have all been done. -/
def rowless : State := put (umbral 2 .init) [(F.umbRows_ROWS 1, 0)]

theorem wit_umbra_window : rowless.colHeld (rowless.windowRanges 1) = none ∧ (rowless.windowPut 1).1 = stOK ∧ rowless.fget (F.umbStat_STATE 1) = 2 ∧ (rowless.umb 1).open' = [] ∧ (rowless.umb 1).worst = stOK
    ∧ rowless.failed = false ∧ (rowless.umb 1).rebuild = false := by decide +kernel

/-- A bank at which another requester has waited longest. -/
def contended : State := up.setArb 0 5 ⟨[0, 7], 0, []⟩

/-- Whether that requester asks in the cycle is a free value: where it does, the row is refused. -/
theorem wit_row_refused (hd : contended.draw.1.getLsbD 1 = true) : [5].Nodup ∧ (∀ r ∈ [1], 0 < r ∧ r < arbN 0) ∧ (contended.rowAsk 0 [5] [1]).1 = false := by
  refine ⟨by decide, by decide, ?_⟩
  have h : ([1].filter fun r => contended.draw.1.getLsbD r) = [1] := by simp [hd]
  simp only [State.rowAsk, State.bankAsk, List.foldl_cons, List.foldl_nil, h]
  decide +kernel

theorem wit_umbra_set : Reaches (put (umbral 0 .init) [(F.umbSet_EN 1, 0)]) .pf0 (.umbSet 1) (fields [(F.umbSet_EN 1, 1), (F.umbSet_SM1 1, 1), (F.umbSet_GROUP 1, 1), (F.umbSet_USTREAM 1, 5), (F.umbSet_JSTREAM 1, 5)])
    ∧ ((umbral 0 .init).group 1).active = true ∧ ((umbral 0 .init).group 1).members.length = 1 + 1 ∧ (umbral 0 .init).strPart 5 = 1 ∧ (umbral 0 .init).partState 1 ≠ 0
    ∧ (umbral 0 .init).sealedAt 1 0x10000 = (umbral 0 .init).sealedAt 1 0x20000 ∧ (∀ d, d < 10 → Reg.ofOff (Reg.arbCommit d).off = some (.arbCommit d)) ∧ Reaches up (.cap 12) (.arbCommit 9) (fields [(F.arbCommit_GO 9, 1)]) := by
  unfold Reaches; decide +kernel

/-! ### Partitions, the security module, sessions -/

/-- Clusters of good cores free for partition 1, of which 2 cores are to run. -/
def creating : State := (put up [(F.prtCfg_CLUSTERS 1, 1), (F.coreVcfg_VCOUNT 1, 2), (F.coreVcfg_RSV 1, 1)]).fpSet 8 0 true |>.fpSet 8 1 true |>.fpSet 8 2 true

theorem wit_create : Starts creating .pf0 .prtCmd F.prtCmd_GO [(F.prtCmd_CMD, 0), (F.prtCmd_PART, 1)] ∧ creating.fw.transit = false ∧ creating.partState 1 = 0 ∧ creating.fget (F.prtCfg_CLUSTERS 1) ≠ 0
    ∧ (∀ r, r < 8 → r ≠ 1 → Nat.land (creating.fget (F.prtCfg_CLUSTERS 1)) (creating.fget (F.prtCfg_CLUSTERS r)) = 0) ∧ 2 + creating.fget (F.coreVcfg_RSV 1) ≤ (creating.goodOf 1).length := by unfold Starts Reaches; decide +kernel

/-- Partition 1 in a STATE with a sealed region; its allow list of one digest at 0. -/
def sealing (st : Nat) : State :=
  put (live 0 4096 (region 1 0 0 0 0xFFFF (put up [(F.prtCfg_STATE 1, st), (F.secStat_MSTATE, 1), (F.prtCmdarg_NALLOW, 1), (F.secSealpol_SEAL_ALLOW, 1)]))) [(F.prtRgnA_SEALED 1 0, 1)]

theorem wit_partition_commands : (∀ c, c < 4 → Starts (sealing 1) .pf0 .prtCmd F.prtCmd_GO [(F.prtCmd_CMD, c), (F.prtCmd_PART, 1)]) ∧ (sealing 1).partState 1 = 1 ∧ (sealing 2).partState 1 = 2 ∧ (sealing 1).rstCovered 2 1 = false
    ∧ (sealing 1).fget F.secStat_MSTATE = 1 ∧ (put (sealing 1) [(F.secStat_MSTATE, 2)]).fget F.secStat_MSTATE ≠ 1 :=
  ⟨below 4 (fun _ => starts_of) (by decide +kernel), by decide +kernel⟩

/-- What sealing asks for but the test port's lock, which is opaque. -/
theorem wit_seal (hj : Config.jtagUnlocked (begun (sealing 1) .pf0 .prtCmd F.prtCmd_GO [(F.prtCmd_CMD, 1), (F.prtCmd_PART, 1)]).fw.cfgDig = false) :
    (begun (sealing 1) .pf0 .prtCmd F.prtCmd_GO [(F.prtCmd_CMD, 1), (F.prtCmd_PART, 1)]).sealOk 1 = true := by
  unfold State.sealOk; rw [hj]; decide +kernel

theorem wit_partition_runs : ({ sealing 3 with prtRuns := [⟨1, 2, 0, 0, true⟩] } : State).prtRuns = [⟨1, 2, 0, 0, true⟩] ∧ (sealing 3).rstCovered 2 1 = false
    ∧ ((sealing 1).regions 1).find? (fun r => r.idx = (sealing 1).fget F.prtCmdarg_ADDR % 4096 && decide (r.ty ≤ 1)) = some { region0 with sealed := true }
    ∧ (put (sealing 1) [(F.prtCmd_GO, 1)]).fbit F.prtCmd_GO = true := by decide +kernel

/-- Mailbox arguments of function 2. -/
def mailed (st : Nat) (a b c d : Nat) : State :=
  ((((sealing st).setReg (.mbxArg 2 0) a).setReg (.mbxArg 2 1) b).setReg (.mbxArg 2 2) c).setReg (.mbxArg 2 3) d

theorem wit_security : Reaches (sealing 2) (.cap 12) .secZeroize (fields [(F.secZeroize_GO, 1)]) ∧ Starts (mailed 1 0 0x200 0 0) (.vf 1) (.mbxCmd 2) (F.mbxCmd_GO 2) [(F.mbxCmd_CMD 2, 0), (F.mbxCmd_PART 2, 1)]
    ∧ (mailed 1 0 0x200 0 0).regFoot 1 0 64 (·.rd) = none ∧ (mailed 1 0 0x200 0 0).regFoot 1 0x200 2304 (·.wr) = none ∧ (mailed 1 0 0x200 0 0).mbxArg 2 1 = 0x200 ∧ mbxPart 2 7 = 1 ∧ mbxPart 0 7 = 7 := by
  unfold Starts Reaches; decide +kernel

theorem wit_mailbox_commands : Starts (mailed 1 0 0 0 0) (.vf 1) (.mbxCmd 2) (F.mbxCmd_GO 2) [(F.mbxCmd_CMD 2, 1)] ∧ Starts (mailed 1 0 0 0 0) (.vf 1) (.mbxCmd 2) (F.mbxCmd_GO 2) [(F.mbxCmd_CMD 2, 2), (F.mbxCmd_PART 2, 1)]
    ∧ (mailed 1 0 0 0 0).partState 1 ≠ 2 := by unfold Starts Reaches; decide +kernel

theorem wit_mailbox_memory : SliceReady (mailed 1 0 0x200 0 0) 0 64 false ∧ SliceReady (mailed 1 0 0x200 0 0) 0x200 2304 true ∧ MapOk (mailed 1 0 0x200 0 0) :=
  ⟨⟨by decide, by decide, between (by decide +kernel), by decide +kernel, by decide +kernel, by decide +kernel⟩, ⟨by decide, by decide, between (by decide +kernel), by decide +kernel, by decide +kernel, by decide +kernel⟩,
    by unfold MapOk; decide +kernel⟩

/-- A sealed model of one byte in one segment of 64 KiB, its wrapped key and ciphertext whatever memory holds. -/
def blob : State := { ((mailed 2 0 0x800 81 0x900).store 0x800 [1, 0, 16, 0, 0, 0, 0, 0, 1]).2 with unseals := [(3, ⟨1, 0xA00, [7], some 0⟩)], flux := [⟨0xA00, 0xA01, [7]⟩] }

theorem wit_unseal : blob.partState 1 = 2 ∧ recField (blob.getBytes 0x800 64) 8 8 = 1 ∧ recField (blob.getBytes 0x800 64) 2 1 = 16 ∧ recField (blob.getBytes 0x800 64) 0 2 = 1 ∧ blob.mbxArg 2 2 = 64 + 1 + 16 * ceilDiv 1 (2 ^ 16)
    ∧ blob.regFoot 1 0 1608 (·.rd) = none ∧ blob.regFoot 1 0x800 81 (·.rd) = none ∧ blob.regFoot 1 0x900 1 (fun e => e.wr && e.sealed) = none ∧ Sparse.find blob.unseals 3 = some ⟨1, 0xA00, [7], some 0⟩
    ∧ blob.flux = [⟨0xA00, 0xA00 + 1, [7]⟩] := by decide +kernel

theorem wit_unseal_memory : SliceReady blob 0 1608 false ∧ SliceReady blob 0x800 81 false ∧ SliceReady { blob with flux := [] } 0xA00 1 true ∧ RingsOff blob :=
  ⟨⟨by decide, by decide, between (by decide +kernel), by decide +kernel, by decide +kernel, by decide +kernel⟩, ⟨by decide, by decide, between (by decide +kernel), by decide +kernel, by decide +kernel, by decide +kernel⟩,
    ⟨by decide, by decide, between (by decide +kernel), by decide +kernel, by decide +kernel, by decide +kernel⟩, by unfold RingsOff; decide +kernel⟩

/-- Management runs over port 0 with session 3 open, an OPEN of device 9 under way and its session 4 recorded. -/
def managed : State :=
  { put (sealing 1) [(F.ethCfg_EN 0, 1), (F.ethCfg_MTU 0, 9000), (F.ethStat_UP 0, 1)] with
    fw := { Fw.init with comps := 0x3F0 }, sessions := [⟨3, 1, 0, [], 1, [], [], 0, 0, .eth 0 1 2⟩], relays := [(9, 4, .eth 0 1 2)] }

/-- The session. -/
def sess3 : Sess := ⟨3, 1, 0, [], 1, [], [], 0, 0, .eth 0 1 2⟩

/-- A session message: its kind, device, session and sequence number, of `len` bytes. -/
def sessM (kind dst sess seq len : Nat) : Bytes := mkRec (48 + len) [(0, 1, 1), (1, 1, kind), (2, 2, dst), (4, 2, sess), (8, 4, seq), (12, 4, len)]

theorem wit_sessions : (∀ k ∈ [1, 2, 0x10, 0x11, 0x20], managed.mgmtUp = true ∧ managed.ethCarries 0 1 (sessM k 0 3 1 16).length = true ∧ msgFormed (sessM k 0 3 1 16) = true ∧ msgDst (sessM k 0 3 1 16) = managed.devid
      ∧ managed.fget F.secStat_MSTATE = 1 ∧ msgKind (sessM k 0 3 1 16) = k)
    ∧ managed.sessions.find? (·.num = msgSession (sessM 0x10 0 3 1 16)) = some sess3 ∧ managed.sessions.find? (·.num = msgSession (sessM 0x10 0 4 1 16)) = none
    ∧ seqFresh sess3 1 = true ∧ seqTurn (seqTake sess3 1 0) 1 = true ∧ seqTurn (seqTake sess3 5 0) 5 = false ∧ msgLen (sessM 1 0 0 0 16) ≠ 1778
    ∧ msgFormed (sessM 1 9 0 0 16) = true ∧ msgDst (sessM 1 9 0 0 16) ≠ managed.devid ∧ msgFormed (sessM 1 0x8009 0 0 16) = false ∧ isEth (.fabric 9) = false ∧ isEth (.eth 0 1 2) = true
    ∧ managed.relays.find? (fun e => e.1 = msgDst (sessM 0x11 9 4 1 16) && e.2.1 = msgSession (sessM 0x11 9 4 1 16)) = some (9, 4, .eth 0 1 2) := by decide +kernel

theorem wit_session_here : MsgHere managed (.eth 0 1 2) (sessM 0x10 0 3 1 16) ∧ Carried managed (.fabric 9) 64 := by
  have h := wit_sessions.1 0x10 (by simp)
  exact ⟨⟨h.1, fun p ip u e => by cases e; exact h.2.1, h.2.2.1, h.2.2.2.1, h.2.2.2.2.1⟩, fun p ip u e => by cases e⟩

/-- What a tag's check says is opaque: where it passes and opens to `b`, the rest of what a REQUEST needs is met. -/
theorem wit_request (b : Bytes) (hb : sessOpen sess3 (sessM 0x10 0 3 1 16) = some b) :
    ∃ x, managed.sessions.find? (·.num = msgSession (sessM 0x10 0 3 1 16)) = some x ∧ sessOpen x (sessM 0x10 0 3 1 16) = some b ∧ seqFresh x (msgSeq (sessM 0x10 0 3 1 16)) = true :=
  ⟨_, wit_sessions.2.1, hb, by decide +kernel⟩

/-- Whether an ACCEPT answers an OPEN its signature says, which is opaque too. -/
theorem wit_accept (o a : Bytes) (ha : answersOpen o a = true) (hd : msgDst a = 9) :
    ({ managed with opens := [(9, o, .eth 0 1 2)] } : State).opens.find? (fun e => e.1 = msgDst a && answersOpen e.2.1 a) = some (9, o, .eth 0 1 2) := by
  simp [ha, hd]

/-! ### Firmware -/

/-- A firmware header of five components, SVN 3, and the state of a device that runs it. -/
def hdr0 : Bytes :=
  mkRec 4096 ([(0, 8, 0x313030574652585A), (8, 4, 4096), (12, 4, 7), (16, 1, 3), (17, 1, 5), (24, 8, 0x20000)]
    ++ [(64, 1, 1), (72, 8, 0x1000), (80, 8, 16), (160, 1, 2), (168, 8, 0x1010), (176, 8, 16), (256, 1, 3), (264, 8, 0x1020), (272, 8, 16), (352, 1, 4), (360, 8, 0x2000), (368, 8, 32768), (448, 1, 5), (456, 8, 0x1030), (464, 8, 16)])

theorem wit_image : hdrLayoutOk hdr0 = true ∧ hdrSvn hdr0 = 3 ∧ hdr0.length = 4096 ∧ 4096 < hdrLen hdr0 := by decide +kernel

/-- The device runs that firmware in a FWSTATE. -/
def firm (st : Nat) : State := { put up [(F.mgtFwstat_FWSTATE, st)] with fw := { Fw.init with hdr := hdr0 } }

theorem wit_firmware : (∀ c, c < 4 → Starts (firm 1) (.cap 12) .mgtFwcmd F.mgtFwcmd_GO (if c = 0 then [] else [(F.mgtFwcmd_CMD, c)])) ∧ (firm 1).fget F.mgtFwstat_FWSTATE = 1 ∧ (firm 5).fget F.mgtFwstat_FWSTATE = 5
    ∧ ¬((firm 1).read ((firm 1).slotBase (firm 1).stagedSlot) 4096).1 = stOK ∧ (∀ p, p < 8 → (firm 1).partState p ≠ 2) :=
  ⟨below 4 (fun _ => starts_of) (by decide +kernel), by decide +kernel⟩

theorem wit_transit : Starts (firm 1) (.cap 12) .mgtFwcmd F.mgtFwcmd_GO [(F.mgtFwcmd_CMD, 1), (F.mgtFwcmd_ALLOW_SEALED, 1)] ∧ ({ firm 2 with fw := { (firm 2).fw with transit := true } } : State).fw.transit = true ∧ (firm 2).deferred = []
    ∧ RingsOff (firm 2) ∧ Reaches (put (firm 2) [(F.mgtFwcmd_GO, 1)]) (.cap 12) .mgtFwcmd (fields [(F.mgtFwcmd_GO, 1), (F.mgtFwcmd_CMD, 2)]) ∧ ((List.range 3).all fun i => [true, false].getD i false) = false
    ∧ ((List.range 3).all fun i => [true, true, true].getD i false) = true := by unfold Starts Reaches RingsOff; decide +kernel

theorem wit_window : (firm 4).regUp (.cap 12) (.mgtFwwin 0) = true ∧ (firm 4).capMay (.cap 12) 0x1C10000 (.mgtFwwin 0) = true ∧ Reaches (firm 4) (.cap 12) (.mgtFwwin 8191) 0 ∧ (0xFFF8 : BitVec 16).toNat % 8 = 0
    ∧ (0xFFC0 : BitVec 16).toNat % 64 = 0 ∧ (firm 4).regUp (.cap 12) (.mgtFwwin 8184) = true ∧ (firm 4).capMay (.cap 12) (0x1C10000 + 0xFFC0) (.mgtFwwin 8184) = true := by unfold Reaches; decide +kernel

theorem wit_recovery : (∀ c, c < 6 → Reaches (firm 4) (.cap 12) .mgtRcmd (fields [(F.mgtRcmd_GO, 1), (F.mgtRcmd_CMD, c)])) ∧ (firm 4).fbit F.mgtRcmd_BUSY = false ∧ (firm 4).fget F.mgtFwstat_FWSTATE = 4 ∧ (firm 4).fget F.mgtFwarg_WOFF = 0
    ∧ hdrLayoutOk ((firm 4).rcBytes 0 4096) = false ∧ (firm 4).fuses.rollback = 0 := by unfold Reaches; decide +kernel

/-- The last window of the largest image, and of a configuration block, may be written. -/
theorem wit_recovery_window : (put { firm 4 with fw := { (firm 4).fw with rcKind := 1, rcNext := 0x3000000 } } [(F.mgtFwarg_WOFF, 0x3000000)]).fget F.mgtFwarg_WOFF = 0x3000000
    ∧ 0x3000000 < rcLimit 1 ∧ 65536 < rcLimit 2 := by decide +kernel

theorem wit_counters : Reaches (firm 0) (.cap 12) .mgtRollback 1 ∧ inWord F.mgtRollback_COUNT 1 = (firm 0).fuses.rollback + 1 ∧ 1 ≤ hdrSvn (firm 0).fw.hdr ∧ Reaches (put (firm 0) [(F.secSealpol_LEFT, 8)]) (.cap 12) .secSealpol 7
    ∧ 0 < (put (firm 0) [(F.secSealpol_LEFT, 8)]).fget F.secSealpol_LEFT ∧ 7 ≠ (put (firm 0) [(F.secSealpol_LEFT, 8)]).reg .secSealpol % 8 ∧ (firm 0).fw.kernelAt = none := by unfold Reaches; decide +kernel

/-- Core 0 waits for a microcode load of an image whose memory is backed. -/
def loading (r : Nat) (due : Bool) : State :=
  { firm 0 with fw := { (firm 0).fw with ucLoad := [0], ucRound := r, ucDue := due, swaps := [0] }, cores := [(0, { CoreS.init with ucMap := if due then 2 ^ 65 - 1 else 0 })], boot := { up.boot with s5 := some (⟨0, 1⟩, 0) } }

theorem wit_microcode : (loading 0 false).ucMay = true ∧ (loading 0 false).fw.ucDue = false ∧ (loading 1 true).fw.ucDue = true ∧ (loading 1 true).fw.ucPark = false ∧ ((loading 1 true).core 0).ucMap = 2 ^ 65 - 1
    ∧ (loading 1 true).boot.s5 = some (⟨0, 1⟩, 0) ∧ ((loading 9 false).core 0).inst = none ∧ (loading 9 false).resetting.contains 0 = false ∧ (0 : Fin 384).val ∈ (loading 1 false).fw.swaps ∧ (loading 1 false).fw.ucRound ≠ 0
    ∧ (0 : Fin 384).val ∉ (loading 1 false).fw.ucNack := by decide +kernel

theorem wit_ucode_image : ∃ b dig, (live 0x2000 32768 (loading 0 false)).ucodeImage = some (b, dig) := by
  have h : (live 0x2000 32768 (loading 0 false)).ucodeImage.isSome = true := by decide +kernel
  obtain ⟨x, hx⟩ := Option.isSome_iff_exists.mp h
  exact ⟨x.1, x.2, hx⟩

/-! ### Bring-up, resets, power, Halo -/

/-- Bring-up has ended stage `k` DONE. -/
def staged8 (k : Nat) : State := put { up with boot := { up.boot with cold := true } } [(F.bootStatus_STAGE, k), (F.bootStatus_STATE, 1)]

/-- Bring-up before S0, PKG_RST_N released. -/
def before0 : State := { State.reset with pins := { State.reset.pins with pkgRst := false } }

theorem wit_stages : before0.stageMay 0 = true ∧ (∀ k, k < 8 → (staged8 k).stageMay (k + 1) = true) ∧ before0.boot.cold = true ∧ ({ staged8 0 with fw := { Fw.init with enter := true } } : State).fw.enter = true
    ∧ (staged8 0).fw.enter = false ∧ (staged8 3).retiredCount ≤ 15 ∧ mchState (staged8 3) 767 ≠ 3 ∧ 3 ≤ ((List.range 37).filter fun p => [(0 : Fin 37), 1, 36].any fun b => b.val = p).length := by decide +kernel

theorem wit_s1_block : cfgLayoutOk ((((staged8 0).stageBegin 1).fuseLoad.identRestore).flashGet 0x10000 8) = false := by decide +kernel

theorem wit_s5_s6 : 0 ∈ ((List.range 384).filter fun n => (staged8 4).fuseOf (0x1000 + n) = 0 && !(staged8 4).fdrHas (0x1000 + n) 1) ∧ (0x1000 : BitVec 16).toNat ∈ karUnits ∧ (staged8 5).fuseOf 0x1000 = 0 ∧ (staged8 5).fdrUsed < 255
    ∧ ({ staged8 5 with boot := { (staged8 5).boot with cold := false, warm := some ⟨[], [0x1000], 0⟩ } } : State).boot.warm = some ⟨[], [0x1000], 0⟩ := by decide +kernel

theorem wit_s7 : (put (staged8 6) [(F.lnkCfg_EN 63, 1)]).fbit (F.lnkCfg_EN 63) = true ∧ (staged8 6).linkState 63 = 0 ∧ (staged8 6).fbit F.safStat_WDOG = false ∧ (staged8 6).tripped = false ∧ (staged8 6).usable (0x4000 + 63) = true
    ∧ pairOf 63 = none ∧ pairOf 59 = some 29 ∧ (staged8 6).pins.vddEcl = true ∧ (staged8 6).fbit (F.lnkEcl_FORCE 29) = false := by decide +kernel

/-- A core of partition 1 ends its reset, RST_CMD's. -/
def resetting1 : State := { put (runs core1) [(F.rstCmd_GO, 1)] with resets := [⟨0, 5, true, [5], [], false⟩], resetting := [5] }

theorem wit_resets : (∀ l, l < 4 → Starts (reserved core1) .pf0 .rstCmd F.rstCmd_GO (if l = 3 then [(F.rstCmd_LEVEL, l)] else [(F.rstCmd_LEVEL, l), (F.rstCmd_TARGET, 1)])) ∧ resetting1.rstCovered 0 5 = true
    ∧ (reserved core1).rstCovered 0 1 = false ∧ (reserved core1).coreBusy 0 = true ∧ (reserved core1).coreBusy 1 = false ∧ (reserved core1).rstCovered 2 1 = false :=
  ⟨below 4 (fun _ => starts_of) (by decide +kernel), by decide +kernel⟩

theorem wit_reset_ends : resetting1.resets = [⟨0, 5, true, [5], [], false⟩] ∧ RingsOff resetting1 ∧ (put up [(F.rstCmd_GO, 1)]).fbit F.rstCmd_GO = true ∧ (999 : Nat) < 1000 ∧ up.thermtrip = false ∧ up.pins.vddHalo = true
    ∧ Reaches (put up [(F.rstCmd_GO, 1)]) .pf0 .rstCmd (fields [(F.rstCmd_GO, 1), (F.rstCmd_LEVEL, 3)]) := by unfold RingsOff Reaches; decide +kernel

/-- Halo runs with its default thresholds, the cores at divisor 8. -/
def haloUp (l : List (Fld × Nat)) : State :=
  put (((put up [(F.safStat_STATE, 1)]).setReg .safThr0 (thrDefault thr0Fields)).setReg .safThr1 (thrDefault thr1Fields)) l

theorem wit_power : (haloUp []).haloRuns = true ∧ (haloUp []).failed = false ∧ (haloUp []).tripped = false ∧ (haloUp []).clockOn = true ∧ Reaches (haloUp []) .pf0 (.pwrSp 1) (fields [(F.pwrSp_MODE 1, 1), (F.pwrSp_WATTS 1, 2200)])
    ∧ Reaches (haloUp []) .i3c (.pwrSp 0) (fields [(F.pwrSp_MODE 0, 1), (F.pwrSp_WATTS 0, 300)]) ∧ (haloUp []).powerReq = (1, 3, 2200) ∧ (haloUp [(F.pwrSp_MODE 1, 2)]).powerReq = (2, 1, 0) := by unfold Reaches; decide +kernel

theorem wit_governor : (haloUp []).fget F.pwrStat_PARK = 0 ∧ (haloUp [(F.pwrStat_PARK, 1)]).fget F.pwrStat_PARK = 1 ∧ (haloUp []).pow.gatesOff = false ∧ (haloUp []).cores.all (fun e => e.2.stopped) = true
    ∧ setBit ({ haloUp [] with pow := { Pow.init with selfRef := 2047 } } : State).pow.selfRef 11 true % 4096 = 4095 ∧ (∃ p, (some p : Option Nat) = some 1 ∧ p + 1500 * 50 + 20000 < 95002 ∧ (haloUp []).fget F.pwrStat_PARK ≠ 3) := by
  exact ⟨by decide +kernel, by decide +kernel, by decide +kernel, by decide +kernel, by decide +kernel, ⟨1, rfl, by decide, by decide +kernel⟩⟩

/-- Every rail answers with its commanded voltage. -/
def railsGood (s : State) : RailReads := (List.range 16).map fun r => some (BitVec.ofNat 16 (s.railCmd r), 5)

theorem wit_rails : (∀ r, r < 16 → ∃ mv ma, (railsGood (haloUp [])).getD r none = some (mv, ma) ∧ mv.toNat * 100 ≤ (haloUp []).railCmd r * 105 ∧ (haloUp []).railCmd r * 95 ≤ mv.toNat * 100)
    ∧ (∀ r, (haloUp []).pow.missed.getD r 0 < 3) ∧ (haloUp []).railPolled 0 = true ∧ ([2].getD 0 0 = 2) := by
  refine ⟨?_, fun r => by simp [haloUp, put, up, State.fset, State.reset, Pow.init, State.setReg, List.foldl], by decide +kernel, rfl⟩
  intro r hr
  refine ⟨BitVec.ofNat 16 ((haloUp []).railCmd r), 5, ?_⟩
  revert r; decide +kernel

/-- A sample of sensors that all read `t` degrees, currents at `c` percent. -/
def sampleW (t c : Nat) : TempReads := ⟨.replicate 10 [(t : Int), t], .replicate 12 t, .replicate 16 c⟩

theorem wit_samples : SensorsGood (sampleW 50 50) ∧ BelowTrips (haloUp []) (sampleW 50 50) ∧ BelowThresholds (haloUp []) (sampleW 50 50) ∧ SensorsGood (sampleW 102 50) ∧ SensorsGood (sampleW 50 105)
    ∧ BelowTrips (haloUp []) (sampleW 50 105) ∧ (∃ c ∈ (sampleW 50 105).cur.toList, (haloUp []).fget F.safThr0_OC_THR_PCT ≤ c) ∧ (∃ c ∈ (sampleW 50 120).cur.toList, (haloUp []).fget F.safThr0_OC_TRIP_PCT ≤ c) := by
  unfold SensorsGood BelowTrips BelowThresholds; decide +kernel

theorem wit_throttle : SensorsGood (sampleW 96 50) ∧ BelowTrips (haloUp []) (sampleW 96 50) ∧ (∃ x ∈ (sampleW 96 50).stk.toList, ((haloUp []).fget F.safThr0_STK_THR : Int) ≤ x) ∧ (∀ c ∈ (sampleW 96 50).cur.toList, c < (haloUp []).fget F.safThr0_OC_THR_PCT) := by
  unfold SensorsGood BelowTrips; decide +kernel

theorem wit_halo : (haloUp []).pins.vddHalo = true ∧ (haloUp []).thermtrip = false ∧ ({ haloUp [] with clockOn := false } : State).clockOn = false ∧ (haloUp []).now 8 < (haloUp []).pow.kick + 2 * 1200000
    ∧ ({ haloUp [] with time := [0, 0, 0, 0, 0, 0, 0, 0, 2400000] } : State).pow.kick + 2 * 1200000 ≤ ({ haloUp [] with time := [0, 0, 0, 0, 0, 0, 0, 0, 2400000] } : State).now 8 ∧ bitAt ((haloUp []).setReg .safLaser 0 |>.reg .safLaser) 63 = false
    ∧ bitAt ({ haloUp [] with pow := { Pow.init with probing := 2 ^ 63 } } : State).pow.probing 63 = true := by decide +kernel

/-- Proposed thresholds. -/
def proposed (a b : Nat) : State := ((haloUp []).setReg .safProp0 a).setReg .safProp1 b

theorem wit_thresholds : Starts (proposed (thrDefault thr0Fields) (thrDefault thr1Fields)) .pf0 .safReq F.safReq_GO [] ∧ thrOk (thrDefault thr0Fields) (thrDefault thr1Fields) = true
    ∧ thrRaises (thrDefault thr0Fields) (thrDefault thr1Fields) (thrDefault thr0Fields) (thrDefault thr1Fields) = false ∧ thrOk 0 0 = false
    ∧ thrRaises (thrDefault thr0Fields) (thrDefault thr1Fields) (setBits (thrDefault thr0Fields) 7 0 101) (thrDefault thr1Fields) = true ∧ thrOk (setBits (thrDefault thr0Fields) 7 0 101) (thrDefault thr1Fields) = true
    ∧ 16 ≤ ({ haloUp [] with fuses := { Fuses.init with haloUsed := 16 } } : State).fuses.haloUsed := by unfold Starts Reaches; decide +kernel

/-- The board's bus has its address. -/
def boarded : State := { haloUp [] with pins := { up.pins with i3c := some 9 } }

theorem wit_board : boarded.i3cServes = true ∧ (haloUp []).i3cServes = false ∧ Reg.ofOff 8 = some (.strCq 0) ∧ i3cReads .safAlert = true ∧ i3cReads (.strCq 0) = false ∧ i3cWrites (.strCq 0) = false
    ∧ Reaches boarded .i3c .safAlert 255 ∧ Reg.ofOff 0x1dffff8 = none := by unfold Reaches; decide +kernel

/-! ### Trace, sampler, debug -/

/-- An EVENT packet of source 5 on die 0, which waits for buffer 0; the buffer at 0 of stacked memory, capturing. -/
def pkt0 : TailPkt := ⟨0, 5, 0x72, 0, none, 7, 9⟩
def tracing (l : List (Fld × Nat)) (b : TBuf) : State :=
  { put backed0 ([(F.trcBcfg_EN 0, 1), (F.trcBcfg_LOG2SZ 0, 26), (F.trcBcfg_MODE 0, 2), (F.trcBstat_STATE 0, 1), (F.trcBstat_FROZEN 0, 1), (F.trcBcfg_CRASH_CLASS 0, 4)] ++ l) with tailq := [(5, [⟨pkt0, 1⟩])], tbufs := [(0, b)] }

theorem wit_admit : (Sparse.getD (fun _ => []) (tracing [] .init).tailq pkt0.src.toNat).find? (fun e => bitAt e.bufs 0) = some ⟨pkt0, 1⟩ ∧ (tracing [] .init).fbit (F.trcBcfg_EN 0) = true
    ∧ Sparse.getD (fun _ => (0, 0)) ((tracing [] .init).tbuf 0).drops pkt0.src.toNat = (0, 0) ∧ 96 ≤ (tracing [] .init).bucket 0 ∧ ({ tracing [] .init with tokens := [(0, (0, 0))] } : State).bucket 0 < 96
    ∧ (tracing [] .init).fget (F.trcBstat_STATE 0) = 1 ∧ ((tracing [] .init).tbuf 0).post = none ∧ (tracing [] .init).fget (F.trcBstat_WRPOS 0) + 16 < (tracing [] .init).mainHi 0
    ∧ ([0, 1, 2, 3].any fun i => comparatorFires ((tracing [] .init).reg (.trcTrig 0 i)) pkt0) = false := by decide +kernel

theorem wit_trace_memory : Clean (tracing [] .init) 0 16 := ⟨by unfold MapOk; decide +kernel, by decide, between (by decide +kernel)⟩

/-- The same, taking what the sources of the first word send. -/
def traced : State := (tracing [] .init).setReg (.trcSrcen 0 0) (2 ^ 64 - 1)

theorem wit_trace_window : (tracing [(F.trcBstat_STATE 0, 2)] { TBuf.init with post := some 0 }).fget (F.trcBstat_STATE 0) = 2 ∧ ((tracing [] { TBuf.init with post := some 0 }).tbuf 0).post = some 0
    ∧ ((tracing [] { TBuf.init with freezing := true }).tbuf 0).freezing = true ∧ (∀ j, j < 9 → (traced.fbit (F.trcBcfg_EN j) && traced.bufDie j 0) = decide (j = 0)) := by decide +kernel

theorem wit_trace_commands : Reaches backed0 .pf0 (.trcBcfg 0) (fields [(F.trcBcfg_EN 0, 1), (F.trcBcfg_LOG2SZ 0, 26), (F.trcBcfg_CRASH_CLASS 0, 1), (F.trcBcfg_PRE_MIB 0, 1), (F.trcBcfg_POST_MIB 0, 1)])
    ∧ backed0.tailOk 0 ⟨.pf0, .trcBcfg 0, 0, fields [(F.trcBcfg_EN 0, 1), (F.trcBcfg_LOG2SZ 0, 26), (F.trcBcfg_CRASH_CLASS 0, 1), (F.trcBcfg_PRE_MIB 0, 1), (F.trcBcfg_POST_MIB 0, 1)]⟩ = true := by unfold Reaches; decide +kernel

theorem wit_trace_controls : Reaches (tracing [] .init) .pf0 (.trcBctl 0) (fields [(F.trcBctl_REARM 0, 1)]) ∧ Reaches (tracing [] .init) .pf0 (.trcBctl 0) (fields [(F.trcBctl_TRIGGER 0, 1)]) ∧ (tracing [] .init).fget (F.trcBcfg_MODE 0) = 2
    ∧ 26 ≤ (tracing [] .init).fget (F.trcBcfg_LOG2SZ 0) := by unfold Reaches; decide +kernel

/-- Ring 0's list names CORE_ERR of core 0 at address 0. -/
def sampling (l : List (Fld × Nat)) : State := (put backed0 ([(F.cntSbase_BASE 0, 4096)] ++ l)).store 0 [8, 0, 0, 0] |>.2

theorem wit_sampler : Reaches (sampling []) .pf0 (.cntScfg 0) (fields [(F.cntScfg_EN 0, 1), (F.cntScfg_LOG2N 0, 4), (F.cntScfg_NCNT 0, 1), (F.cntScfg_INTERVAL 0, 1024)]) ∧ (sampling []).sampleList 0 0 1 = some [8] ∧ (sampling []).sampleOk 0 [8] = true
    ∧ (sampling []).samplePlace 0 4096 (slotBytes 1 * 2 ^ 4) = true ∧ (sampling [(F.cntScfg_EN 0, 1)]).fbit (F.cntScfg_EN 0) = true ∧ ((sampling [(F.cntSstat_WRITTEN 0, 16)]).fget (F.cntSstat_WRITTEN 0) + 2 ^ 32 - 0) % 2 ^ 32 = 16 := by
  unfold Reaches; decide +kernel

/-- Core 0 halted. -/
def dbgd : State := put (runs core1) [(F.coreDbg_HALT 0, 1), (F.coreDbg_HALTED 0, 1)]

theorem wit_debug : Reaches (runs core1) .pf0 .cntNwclr (with1 [F.cntNwclr_GO] 0) ∧ (runs core1).fbit F.cntNwclr_GO = false ∧ Reaches (runs core1) .pf0 (.coreDbg 0) (dbgWord (runs core1) 0 [(F.coreDbg_HALT 0, 1)])
    ∧ Reaches dbgd .pf0 (.coreDbg 0) (dbgWord dbgd 0 []) ∧ dbgd.halted 0 = true := by unfold Reaches; decide +kernel

theorem wit_debug_step : Reaches dbgd .pf0 (.coreDbg 0) (dbgWord dbgd 0 [(F.coreDbg_HALT 0, 1), (F.coreDbg_STEP 0, 1)])
    ∧ Reaches dbgd .pf0 (.coreDreg 0 144) 8191 ∧ (runs core1).halted 0 = false := by unfold Reaches; decide +kernel

/-! ### The register space -/

theorem wit_registers : badCap (.cap 15) = true ∧ badCap .pf0 = false ∧ Reg.ofOff (Reg.coreErr 0).off = some (.coreErr 0) ∧ Reg.ofOff 0x1dffff8 = none ∧ up.regUp .pf0 (.coreErr 0) = true ∧ State.reset.regUp .pf0 (.coreErr 0) = false
    ∧ up.capMay (.cap 4) (Reg.coreErr 0).off (.coreErr 0) = false ∧ up.partSees 1 .rstCmd = false ∧ Reg.ofOff Reg.rstCmd.off = some .rstCmd ∧ up.mayRead .pf0 (.coreErr 0) = true ∧ inFwwin 0x1C10000 = true ∧ inFwwin 8 = false := by
  decide +kernel

theorem wit_counter : Reg.ofOff (Reg.vxePerf 0).off = some (.vxePerf 0) ∧ counterFields (.vxePerf 0) ≠ [] ∧ (runs core1).regUp (.vf 1) (.vxePerf 0) = true ∧ (runs core1).partSees 1 (.vxePerf 0) = true := by decide +kernel

theorem wit_register_access : Reaches up .pf0 (.mbxArg 0 0) 7 ∧ takesFields (.mbxArg 0 0) = true ∧ Reaches up .pf0 .safProp1 0 ∧ takesFields .safProp1 = true :=
  ⟨reaches_of (by decide +kernel), rfl, reaches_of (by decide +kernel), rfl⟩

theorem wit_register_refusals : up.prtWaits .pf0 (Reg.coreErr 0).off = false ∧ busyRegion.prtWaits .pf0 0x1A00000 = true ∧ isRwh .safThr0 = true ∧ up.isHalo (.vf 1) = false ∧ up.regUp (.vf 1) .safThr0 = true
    ∧ up.capMay .pf0 Reg.safThr0.off .safThr0 = true ∧ (umbral 1 .init).setLocked (.umbStat 1) = true ∧ (up.str 5).cqWait = [] ∧ up.mayRead (.cap 12) (.memMchPin 5) = true ∧ readClears (.cap 12) = true
    ∧ Sparse.find up.coarse (2 ^ 28 + (Reg.vxePerf 0).off) = none ∧ up.now 8 < 0 + 1200000 ∧ 0 + 1200000 ≤ ({ up with time := [0, 0, 0, 0, 0, 0, 0, 0, 2400000] } : State).now 8 := by decide +kernel

theorem wit_reset_queue : State.reset.pending = [] := rfl

/-- A step of a device whose memory is canonical and that goes on. -/
theorem wit_step_keeps : MemCanonical { up with pending := [.refresh 0] } ∧ ∃ t, Machine.step { up with pending := [.refresh 0] } = .next t := by
  refine ⟨by unfold MemCanonical; decide +kernel, _, rfl⟩

theorem wit_burn : ∃ t, Machine.step { firm 0 with pending := [.rollbackIncrement (.cap 12) 1] } = .next t := ⟨_, rfl⟩

/-! ### Values -/

theorem test_no_row_gives_bits : decodeTableWord 64 5 = none := rfl
theorem test_empty_queue_idles : Machine.step State.reset = .next State.reset := by rfl
theorem test_front_command_leaves : ∃ t, Machine.step { up with pending := [.refresh 0, .refresh 1] } = .next t ∧ t.pending = [.refresh 1] := ⟨_, rfl, rfl⟩

end Sys2Proof.Tests
end

section
/-! SUPPORT. Bit fields: which bits a field and a write of it hold, and what a fold of field writes leaves. -/

namespace Sys2Proof.Machine

theorem testBit_bitsOf (n hi lo i : Nat) : (bitsOf n hi lo).testBit i = (decide (i < hi + 1 - lo) && n.testBit (lo + i)) := by
  rw [bitsOf, Nat.testBit_mod_two_pow, Nat.testBit_div_two_pow, Nat.add_comm i lo]

/-- A write of a field replaces its bits and no others. -/
theorem testBit_setBits (n hi lo v i : Nat) :
    (setBits n hi lo v).testBit i = if lo ≤ i ∧ i ≤ hi then v.testBit (i - lo) else n.testBit i := by
  generalize hw : hi + 1 - lo = w
  have hlow : n % 2 ^ lo < 2 ^ lo := Nat.mod_lt _ (Nat.two_pow_pos lo)
  have hmid : v % 2 ^ w < 2 ^ w := Nat.mod_lt _ (Nat.two_pow_pos w)
  have hn : 2 ^ lo * (2 ^ w * (n / 2 ^ lo / 2 ^ w) + n / 2 ^ lo % 2 ^ w) + n % 2 ^ lo = n := by
    rw [Nat.div_add_mod, Nat.div_add_mod]
  have hs : setBits n hi lo v = 2 ^ lo * (2 ^ w * (n / 2 ^ lo / 2 ^ w) + v % 2 ^ w) + n % 2 ^ lo := by
    unfold setBits bitsOf
    rw [hw, Nat.mul_comm _ (2 ^ lo), Nat.mul_comm _ (2 ^ lo)]
    rw [Nat.mul_add] at hn ⊢
    omega
  rw [hs, Nat.testBit_two_pow_mul_add _ hlow, Nat.testBit_two_pow_mul_add _ hmid, Nat.testBit_mod_two_pow, Nat.testBit_mod_two_pow,
    Nat.testBit_div_two_pow, Nat.testBit_div_two_pow]
  by_cases h1 : i < lo
  · simp [h1, Nat.not_le.mpr h1]
  by_cases h2 : i ≤ hi
  · simp [h1, h2, Nat.not_lt.mp h1, show i - lo < w by omega]
  · simp [h1, h2, show ¬ i - lo < w by omega, show i - lo - w + w + lo = i by omega]

/-- A field reads what was written to it. -/
@[simp] theorem bitsOf_setBits_self (n hi lo v : Nat) : bitsOf (setBits n hi lo v) hi lo = v % 2 ^ (hi + 1 - lo) := by
  refine Nat.eq_of_testBit_eq fun i => ?_
  rw [testBit_bitsOf, testBit_setBits, Nat.testBit_mod_two_pow]
  by_cases h : i < hi + 1 - lo
  · simp [h, show lo + i ≤ hi by omega]
  · simp [h]

/-- A write of a field leaves a field that shares no bit with it alone. -/
theorem bitsOf_setBits_of_disjoint (n v : Nat) {hi lo hi' lo' : Nat} (h : hi' < lo ∨ hi < lo') :
    bitsOf (setBits n hi lo v) hi' lo' = bitsOf n hi' lo' := by
  refine Nat.eq_of_testBit_eq fun i => ?_
  rw [testBit_bitsOf, testBit_bitsOf, testBit_setBits]
  by_cases hi' : i < hi' + 1 - lo'
  · rw [if_neg (by omega)]
  · simp [hi']

theorem setBits_lt {n hi k : Nat} (lo v : Nat) (hn : n < 2 ^ k) (hk : hi < k) : setBits n hi lo v < 2 ^ k := by
  refine Nat.lt_pow_two_of_testBit _ fun i hi' => ?_
  rw [testBit_setBits, if_neg (by omega)]
  exact Nat.testBit_lt_two_pow (hn.trans_le (Nat.pow_le_pow_right (by decide) hi'))

theorem bitsOf_lt (n hi lo : Nat) : bitsOf n hi lo < 2 ^ (hi + 1 - lo) := Nat.mod_lt _ (Nat.two_pow_pos _)

section Folds

variable {α : Type} (hi lo x : α → Nat) (p : α → Prop) [DecidablePred p]

/-- Writing the fields of `l` that `p` names leaves a field that shares no bit with any of `l` alone. -/
theorem bitsOf_foldl_setBits_of_disjoint (l : List α) (n : Nat) {h' l' : Nat} (hd : ∀ a ∈ l, h' < lo a ∨ hi a < l') :
    bitsOf (l.foldl (fun n a => if p a then setBits n (hi a) (lo a) (x a) else n) n) h' l' = bitsOf n h' l' := by
  induction l generalizing n with
  | nil => rfl
  | cons a l ih =>
    rw [List.foldl_cons, ih _ fun b hb => hd b (List.mem_cons_of_mem a hb)]
    split
    · exact bitsOf_setBits_of_disjoint n _ (hd a List.mem_cons_self)
    · rfl

/-- Writing those of the disjoint fields `l` that `p` names: each of these reads what was written, and the others are as before. -/
theorem bitsOf_foldl_setBits (l : List α) (hd : l.Pairwise fun a b => hi a < lo b ∨ hi b < lo a) (n : Nat) {a : α} (ha : a ∈ l) :
    bitsOf (l.foldl (fun n a => if p a then setBits n (hi a) (lo a) (x a) else n) n) (hi a) (lo a)
      = if p a then x a % 2 ^ (hi a + 1 - lo a) else bitsOf n (hi a) (lo a) := by
  induction l generalizing n with
  | nil => cases ha
  | cons b l ih =>
    obtain ⟨hb, hl⟩ := List.pairwise_cons.mp hd
    rw [List.foldl_cons]
    rcases List.mem_cons.mp ha with rfl | ha
    · rw [bitsOf_foldl_setBits_of_disjoint hi lo x p l _ hb]
      split
      · exact bitsOf_setBits_self ..
      · rfl
    · rw [ih hl _ ha]
      have hba := hb a ha
      congr 1
      split
      · exact bitsOf_setBits_of_disjoint n _ hba.symm
      · rfl

end Folds

end Sys2Proof.Machine
end

section
/-! SUPPORT. The register table: the fields of a register are apart and lie within its word, and an offset names one register. -/

namespace Sys2Proof.Machine

theorem Reg.layout_disjoint (r : Reg) : r.layout.Pairwise fun f g => f.hi < g.lo ∨ g.hi < f.lo := by
  cases r with
  | arbCls d t j =>
    refine List.pairwise_map.mpr (List.pairwise_lt_range.imp fun h => ?_)
    left; dsimp only; omega
  | _ => simp only [Reg.layout]; decide

theorem Reg.layout_hi_lt (r : Reg) : ∀ f ∈ r.layout, f.hi < 64 := by
  cases r with
  | arbCls d t j =>
    simp only [Reg.layout, List.mem_map, List.mem_range]
    rintro f ⟨i, hi, rfl⟩
    dsimp only; omega
  | _ => simp only [Reg.layout]; decide

theorem counterFields_disjoint (r : Reg) : (counterFields r).Pairwise fun f g => f.1 < g.2 ∨ g.1 < f.2 := by
  cases r <;> simp only [counterFields] <;> decide

/-- The low bytes of a register's counter fields are apart. -/
theorem counterFields_lowBytes_disjoint (r : Reg) : (counterFields r).Pairwise fun f g => f.2 + 7 < g.2 ∨ g.2 + 7 < f.2 := by
  cases r <;> simp only [counterFields] <;> decide

/-- A table of registers by offset has what both of its parts have. -/
theorem Reg.forall_ite {P : Reg → Prop} {c : Prop} [Decidable c] {x y : Option Reg} (hx : c → ∀ r, x = some r → P r)
    (hy : ¬ c → ∀ r, y = some r → P r) : ∀ r, (if c then x else y) = some r → P r := by
  split
  · exact hx ‹_›
  · exact hy ‹_›

/-- An offset names one register: block by block and entry by entry, the numbers decoded are the quotients of the offset. -/
theorem Reg.off_of_ofOff {o : Nat} : ∀ r : Reg, Reg.ofOff o = some r → r.off = o := by
  repeat' refine Reg.forall_ite (fun _ => ?_) (fun _ => ?_)
  all_goals rintro r ⟨⟩ <;> simp only [Reg.off] <;> omega

end Sys2Proof.Machine
end

section
/-! SUPPORT. Registers: the bounds of words, what a write of a register or a field leaves alone, and that an error record changes only the registers that count records and packets. -/

namespace Sys2Proof.Safety

open Sys2Proof.Machine

/-! ### Frames of registers -/

theorem RegsBut.of_regs_eq {s t : State} (offs : List Nat) (h : t.regs = s.regs) : RegsBut s t offs := fun _ _ => by unfold word; rw [h]

theorem RegsBut.refl (s : State) (offs : List Nat) : RegsBut s s offs := fun _ _ => rfl

theorem RegsBut.trans {s t u : State} {offs : List Nat} (h : RegsBut s t offs) (h' : RegsBut t u offs) : RegsBut s u offs :=
  fun o ho => (h' o ho).trans (h o ho)

theorem RegsBut.mono {s t : State} {offs offs' : List Nat} (h : RegsBut s t offs) (hs : ∀ o ∈ offs, o ∈ offs') : RegsBut s t offs' :=
  fun o ho => h o fun ho' => ho (hs o ho')

theorem regsBut_setReg (s : State) (r : Reg) (v : Nat) : RegsBut s (s.setReg r v) [r.off] :=
  fun _ ho => Sparse.getD_setD_ne _ _ _ (by simpa using ho)

theorem regsBut_fset (s : State) (f : Fld) (v : Nat) : RegsBut s (s.fset f v) [f.reg.off] := regsBut_setReg s f.reg _

theorem regsBut_fsat (s : State) (f : Fld) (v : Nat) : RegsBut s (s.fsat f v) [f.reg.off] := regsBut_setReg s f.reg _

/-- What every element's step leaves alone, the fold over all of them leaves alone. -/
theorem regsBut_foldl {α : Type} (g : State → α → State) (l : List α) (s : State) (offs : List Nat)
    (h : ∀ t, ∀ a ∈ l, RegsBut t (g t a) offs) : RegsBut s (l.foldl g s) offs := by
  induction l generalizing s with
  | nil => exact RegsBut.refl s offs
  | cons a l ih => exact (h s a List.mem_cons_self).trans (ih _ fun t b hb => h t b (List.mem_cons_of_mem a hb))

/-- A register at an offset that is left alone reads as before. -/
theorem RegsBut.reg_eq {s t : State} {offs : List Nat} (h : RegsBut s t offs) {r : Reg} (hr : r.off ∉ offs) : t.reg r = s.reg r :=
  congrArg BitVec.toNat (h r.off hr)

theorem RegsBut.fget_eq {s t : State} {offs : List Nat} (h : RegsBut s t offs) {f : Fld} (hf : f.reg.off ∉ offs) : t.fget f = s.fget f := by
  unfold State.fget; rw [h.reg_eq hf]

end Sys2Proof.Safety

namespace Sys2Proof.Machine

open Sys2Proof.Safety

/-! ### Bounds -/

theorem State.reg_lt (s : State) (r : Reg) : s.reg r < 2 ^ 64 := BitVec.isLt _

theorem State.reg_setReg_of_lt (s : State) (r : Reg) {v : Nat} (h : v < 2 ^ 64) : (s.setReg r v).reg r = v := by
  rw [State.reg_setReg_self, Nat.mod_eq_of_lt h]

/-- A field reads what was set. -/
theorem State.fget_fset_self (s : State) (f : Fld) (v : Nat) (hf : f.hi < 64) : (s.fset f v).fget f = v % 2 ^ (f.hi + 1 - f.lo) := by
  unfold State.fset State.fget
  rw [State.reg_setReg_of_lt _ _ (setBits_lt _ _ (s.reg_lt _) hf), bitsOf_setBits_self]

/-- A saturating counter of `w` bits counts up to its all-ones value. -/
theorem State.fget_fsat_self (s : State) (f : Fld) (n : Nat) (hf : f.hi < 64) :
    (s.fsat f n).fget f = min (s.fget f + n) (2 ^ (f.hi + 1 - f.lo) - 1) := by
  unfold State.fsat satAdd
  rw [State.fget_fset_self _ _ _ hf]
  have := Nat.two_pow_pos (f.hi + 1 - f.lo)
  exact Nat.mod_eq_of_lt (by omega)

/-- The merged word of a write is a word (R15). -/
theorem State.merged_lt (s : State) (q : Req) (r : Reg) (v : Nat) : s.merged q r v < 2 ^ 64 := by
  unfold State.merged
  refine List.foldlRecOn (motive := (· < 2 ^ 64)) r.layout _ (s.reg_lt r) fun n hn f hf => ?_
  have hset : ∀ x, setBits n f.hi f.lo x < 2 ^ 64 := fun x => setBits_lt _ x hn (r.layout_hi_lt f hf)
  dsimp only
  split <;> simp only [hn, hset]

/-! ### Error records (R315-R318) -/

/-- The partition that a unit belongs to is one of the eight. -/
theorem State.partOfCluster_lt (s : State) (k p : Nat) (h : s.partOfCluster k = some p) : p < 8 :=
  List.mem_range.mp (List.mem_of_find?_eq_some h)

theorem State.partOfUnit_lt (s : State) (u k p : Nat) (h : s.partOfUnit u k = some p) : p < 8 := by
  have hfld : ∀ x : Nat, x < 8 → (if s.partState x = 0 then none else some x) = some p → p < 8 := by
    intro x hx h
    split at h
    · cases h
    · cases h; exact hx
  unfold State.partOfUnit at h
  dsimp only at h
  split at h
  · exact s.partOfCluster_lt _ p h
  · exact s.partOfCluster_lt _ p h
  · exact hfld _ (bitsOf_lt _ 58 56) h
  · exact hfld _ (bitsOf_lt _ 58 56) h
  · exact hfld _ (bitsOf_lt _ 58 56) h
  · cases h

theorem mem_reportOffs_trcBloss {b : Nat} (hb : b < 9) : (Reg.trcBloss b).off ∈ reportOffs :=
  List.mem_append_left _ (List.mem_map.mpr ⟨b, List.mem_range.mpr hb, rfl⟩)

theorem mem_reportOffs_mgtErrstat {r : Nat} (hr : r < 9) : (Reg.mgtErrstat r).off ∈ reportOffs :=
  List.mem_append_right _ (List.mem_map.mpr ⟨r, List.mem_range.mpr hr, rfl⟩)

theorem State.regsBut_fset_mgtErrstat (s : State) {f : Fld} {r v : Nat} (hr : r < 9) (hf : f.reg = .mgtErrstat r) :
    RegsBut s (s.fset f v) reportOffs :=
  (regsBut_fset s f v).mono (by simpa [hf] using mem_reportOffs_mgtErrstat hr)

@[simp] theorem State.setBytes_regs (s : State) (a : Nat) (d : Bytes) : (s.setBytes a d).regs = s.regs := by rw [State.setBytes_eq]

theorem State.regsBut_ringWrite (s : State) {r : Nat} (hr : r < 9) (b : Bytes) (cls : Nat) : RegsBut s (s.ringWrite r b cls) reportOffs := by
  have hput : ∀ (a : Nat) (d : Bytes) (v : Nat), RegsBut s ((s.setBytes a d).fset (F.mgtErrstat_WRITTEN r) v) reportOffs := fun a d v =>
    (RegsBut.of_regs_eq _ (s.setBytes_regs a d)).trans (State.regsBut_fset_mgtErrstat _ hr rfl)
  unfold State.ringWrite
  dsimp only
  refine iteInduction (motive := fun t => RegsBut s t reportOffs) (fun _ => State.regsBut_fset_mgtErrstat s hr rfl) fun _ => ?_
  exact iteInduction (motive := fun t => RegsBut s t reportOffs) (fun _ => (hput _ _ _).trans (RegsBut.of_regs_eq _ rfl)) fun _ => hput _ _ _

theorem State.regsBut_ring0 (s : State) (b : Bytes) (cls : Nat) : RegsBut s (s.ring0 b cls) reportOffs := by
  unfold State.ring0
  split
  · exact s.regsBut_ringWrite (by decide) b cls
  · split
    · exact RegsBut.of_regs_eq _ rfl
    · exact State.regsBut_fset_mgtErrstat s (r := 0) (by decide) rfl

theorem State.regsBut_ringPart (s : State) (b : Bytes) (cls : Nat) {p : Nat} (hp : p < 8) : RegsBut s (s.ringPart b cls p) reportOffs := by
  unfold State.ringPart
  split
  · exact s.regsBut_ringWrite (by omega) b cls
  · exact State.regsBut_fset_mgtErrstat s (r := 1 + p) (by omega) rfl

theorem State.haloKeep_regs (s : State) (b : Bytes) (cls : Nat) : (s.haloKeep b cls).regs = s.regs := by
  unfold State.haloKeep; split <;> rfl

/-- A Tail packet changes no register but the loss counts of the buffers it is made for (R452). -/
theorem State.regsBut_tailPkt (s : State) (kind src event die : Nat) (part : Option Nat) (payload : Nat) {bs : List Nat} (hb : ∀ b ∈ bs, b < 9) :
    RegsBut s (s.tailPkt kind src event die part payload bs) reportOffs := by
  unfold State.tailPkt
  dsimp only
  split
  · exact RegsBut.refl s _
  · split
    · exact RegsBut.of_regs_eq _ rfl
    · refine regsBut_foldl _ _ _ _ fun t b hb' => ?_
      refine RegsBut.trans (RegsBut.of_regs_eq _ rfl) ((regsBut_fsat _ (F.trcBloss_DROPPED b) 1).mono ?_)
      simpa [F.trcBloss_DROPPED] using mem_reportOffs_trcBloss (hb b hb')

/-- The partition that an error record names (R315). -/
def State.errPart (s : State) (e : ErrRec) : Option Nat :=
  match e.part with
  | some p => some p
  | none => if e.noPart then none else s.partOfUnit e.unit e.stream

/-- The partitions whose rings take a copy of a record of partition `part` (R317). -/
def State.errCopies (s : State) (e : ErrRec) (part : Option Nat) : List Nat :=
  if e.cls = 4 then (List.range 8).filter fun p => s.fbit (F.mgtErrbase_EN (1 + p))
  else match part with
    | some p => if [1, 2, 4, 6, 7].contains (e.unit / 4096) || e.cls = 3 then [p] else []
    | none => []

theorem State.errPart_lt (s : State) (e : ErrRec) (he : ∀ p, e.part = some p → p < 8) (p : Nat) (h : s.errPart e = some p) : p < 8 := by
  unfold State.errPart at h
  split at h
  · rename_i q hq
    exact Option.some.inj h ▸ he q hq
  · split at h
    · cases h
    · exact s.partOfUnit_lt _ _ p h

theorem State.errCopies_lt (s : State) (e : ErrRec) (part : Option Nat) (hp : ∀ p, part = some p → p < 8) : ∀ p ∈ s.errCopies e part, p < 8 := by
  unfold State.errCopies
  intro p h
  split at h
  · exact List.mem_range.mp (List.mem_of_mem_filter h)
  · cases part with
    | none => cases h
    | some q =>
      dsimp only at h
      split at h
      · exact List.mem_singleton.mp h ▸ hp q rfl
      · cases h

/-- What making an error record does (R315-R317): an occurrence under the limit is counted; else the record goes to the Halo store, to ring 0, to the rings of the partitions it concerns, and as an ERROR event to Tail buffers. -/
theorem State.error_cases (s : State) (e : ErrRec) (he : ∀ p, e.part = some p → p < 8) :
    (∃ l, s.error e = { s with err := { s.err with last := l } })
    ∨ ∃ (l : Sparse (Nat × Nat)) (rec' : Bytes) (copies : List Nat) (payload : Nat) (bs : List Nat), (∀ p ∈ copies, p < 8) ∧ (∀ b ∈ bs, b < 9)
      ∧ s.error e = (copies.foldl (fun (t : State) p => t.ringPart rec' e.cls p)
          ((({ s with err := { s.err with last := l } } : State).haloKeep rec' e.cls).ring0 rec' e.cls)).tailPkt 0 (srcOfUnit e.unit) 0x70
            (dieOfUnit e.unit) (s.errPart e) payload bs := by
  refine (ite_eq_or_eq _ _ _).imp (fun h => ⟨_, h⟩) fun h => ⟨_, _, State.errCopies _ e (s.errPart e), _, _, ?_, ?_, h⟩
  · exact State.errCopies_lt _ e _ (s.errPart_lt e he)
  · exact fun b hb => List.mem_range.mp (List.mem_of_mem_filter hb)

/-- Making an error record changes no register but those that count records and lost packets. -/
theorem State.regsBut_error (s : State) (e : ErrRec) (he : ∀ p, e.part = some p → p < 8) : RegsBut s (s.error e) reportOffs := by
  rcases s.error_cases e he with ⟨l, h⟩ | ⟨l, rec', copies, payload, bs, hc, hb, h⟩
  · rw [h]; exact RegsBut.of_regs_eq _ rfl
  · rw [h]
    refine RegsBut.trans ?_ (State.regsBut_tailPkt _ _ _ _ _ _ _ hb)
    refine RegsBut.trans ?_ (regsBut_foldl _ _ _ _ fun t p hp => t.regsBut_ringPart _ _ (hc p hp))
    refine RegsBut.trans ?_ (State.regsBut_ring0 _ _ _)
    exact RegsBut.of_regs_eq _ (State.haloKeep_regs _ _ _)

end Sys2Proof.Machine
end

section
/-! SUPPORT. Register accesses (R13-R15, R369, R384, R490, R491): one equation per case of a write and of a read. -/

namespace Sys2Proof.Machine

open Sys2Proof.Safety

/-! ### The commands -/

theorem exec_registerWrite (q : Req) (off : BitVec 28) (data : Bytes) (s : State) :
    exec (.registerWrite q off data) s = .next (State.sendAnswer (s.regWriteBytes q off.toNat data)) := rfl

theorem exec_rcRead (q : Req) (off : BitVec 28) (len : Nat) (s : State) : exec (.rcRead q off len) s = .next (s.readAnswer q off.toNat len) := rfl

theorem exec_partitionCounterRead (p : Fin 8) (off : BitVec 28) (s : State) :
    exec (.partitionCounterRead p off) s = .next (s.readAnswer (.vf p) off.toNat 8) := rfl

theorem Reg.mod_eight_of_ofOff {o : Nat} {r : Reg} (h : Reg.ofOff o = some r) : o % 8 = 0 := by
  by_contra h8
  rw [Reg.ofOff, if_pos h8] at h
  cases h

/-! ### Writes: the checks before the register -/

theorem State.sendAnswer_pending (t : State) : State.sendAnswer (stPending, t) = t := rfl

theorem State.sendAnswer_of_ne {st : Nat} (t : State) (h : st ≠ stPending) : State.sendAnswer (st, t) = t.answer st [] := if_neg h

section Writes

variable (s : State) (q : Req) (off : Nat)

theorem State.regWriteBytes_badCap (data : Bytes) (hb : badCap q = true) : s.regWriteBytes q off data = (stPending, s.badMessage) := by
  unfold State.regWriteBytes State.regWrite
  simp only [hb, if_true, ite_self]

/-- A write of another length than 8 is refused unless it is one of the window's 64 bytes (R490). -/
theorem State.regWriteBytes_badLength (data : Bytes) (hb : badCap q = false) (h8 : data.length ≠ 8)
    (h : data.length ≠ 64 ∨ off % 64 ≠ 0 ∨ inFwwin off = false) : s.regWriteBytes q off data = (stDenied, s) := by
  have hw : (decide (data.length = 64) && decide (off % 64 = 0) && inFwwin off) = false := by
    rcases h with h | h | h <;> simp [h]
  unfold State.regWriteBytes
  simp only [h8, hb, hw, if_false, Bool.false_eq_true]

theorem State.regWriteBytes_eight (data : Bytes) (h8 : data.length = 8) : s.regWriteBytes q off data = s.regWrite q off (leVal data) := if_pos h8

variable (v : Nat) (hb : badCap q = false)
include hb

/-- An access to the PRT_ block waits for an outstanding region write of its requester (R169). -/
theorem State.regWrite_waits (hw : s.prtWaits q off = true) :
    s.regWrite q off v = (stPending, { s with prtq := s.prtq ++ [⟨q, off, .write (leBytes 8 v)⟩] }) := by
  unfold State.regWrite
  simp only [hb, hw, if_true, if_false, Bool.false_eq_true]

variable (hw : s.prtWaits q off = false)
include hw

theorem State.regWrite_misaligned (h : off % 8 ≠ 0) : s.regWrite q off v = (stDenied, s) := by
  unfold State.regWrite
  simp only [hb, hw, h, if_false, Bool.false_eq_true, ne_eq, not_false_eq_true, if_true]

/-- An unassigned offset takes nothing (R13). -/
theorem State.regWrite_unassigned (h8 : off % 8 = 0) (h : Reg.ofOff off = none) :
    s.regWrite q off v = (if q = .i3c then stOutOfBounds else stOK, s) := by
  unfold State.regWrite
  simp only [hb, hw, h8, h, if_false, Bool.false_eq_true, ne_eq, not_true_eq_false]

theorem State.regWrite_assigned {r : Reg} (h : Reg.ofOff off = some r) : s.regWrite q off v = s.regPut q r v := by
  unfold State.regWrite
  simp only [hb, hw, Reg.mod_eight_of_ofOff h, h, if_false, Bool.false_eq_true, ne_eq, not_true_eq_false]

end Writes

/-! ### Writes: the checks of the register -/

section Puts

variable (s : State) (q : Req) (r : Reg) (v : Nat)

theorem State.regPut_down (h : s.regUp q r = false) : s.regPut q r v = (stTargetReset, s) := by
  unfold State.regPut
  simp only [h, Bool.not_false, Bool.true_or, if_true]

variable (hu : s.regUp q r = true) (hr : s.regResetting r = false)
include hu hr

/-- Every write that only Halo may make is counted when another makes it (R15). -/
theorem State.regPut_notHalo (h : isRwh r = true) (hq : s.isHalo q = false) :
    s.regPut q r v = (stDenied, (s.capRefused q r.off r).fsat F.safStat_DENIED 1) := by
  unfold State.regPut
  simp only [hu, hr, h, hq, Bool.not_true, Bool.not_false, Bool.or_self, Bool.and_self, if_true, if_false, Bool.false_eq_true]

theorem State.regPut_unseen {p : Fin 8} (hq : q = .vf p) (h : s.partSees p r = false) (hh : isRwh r = false) : s.regPut q r v = (stDenied, s) := by
  subst hq
  unfold State.regPut
  simp only [hu, hr, h, hh, Bool.not_true, Bool.not_false, Bool.or_self, Bool.false_and, if_true, if_false, Bool.false_eq_true]

variable (hs : ∀ p, q = .vf p → s.partSees p r = true) (hh : isRwh r = true → s.isHalo q = true)
include hs hh

/-- The checks that a requester of the register's view passes come down to its capability, the lock and the access codes. -/
theorem State.regPut_seen : s.regPut q r v =
    if !s.capMay q r.off r then (stDenied, s.capRefused q r.off r)
    else if s.setLocked r then (stDenied, s)
    else if !(r.layout.any fun f => (s.accOf q r f).writes) then (stOK, s)
    else if s.sealDenies r (s.merged q r v) then (stDenied, s) else s.regEffect ⟨q, r, s.rawOf q r v, s.merged q r v⟩ := by
  have h1 : (isRwh r && !s.isHalo q) = false := by
    cases h : isRwh r
    · rfl
    · simp [hh h]
  unfold State.regPut
  simp only [hu, hr, h1, Bool.not_true, Bool.or_self, if_false, Bool.false_eq_true]
  cases q with
  | vf p => simp only [hs p rfl, Bool.not_true, if_false, Bool.false_eq_true]
  | _ => rfl

end Puts

/-! ### Reads -/

section Reads

variable (s : State) (q : Req) (off : Nat)

theorem State.readAnswer_badCap (len : Nat) (hb : badCap q = true) : s.readAnswer q off len = s.badMessage := by
  unfold State.readAnswer
  simp only [hb, if_true]

variable (hb : badCap q = false)
include hb

theorem State.readAnswer_waits (len : Nat) (hw : s.prtWaits q off = true) :
    s.readAnswer q off len = { s with prtq := s.prtq ++ [⟨q, off, .read len⟩] } := by
  unfold State.readAnswer
  simp only [hb, hw, if_true, if_false, Bool.false_eq_true]

variable (hw : s.prtWaits q off = false)
include hw

/-- A read of a length that no register serves is refused (R490). -/
theorem State.readAnswer_badLength (len : Nat) (h8 : len ≠ 8) (h : len < 16 ∨ 64 < len ∨ len % 8 ≠ 0 ∨ off % len ≠ 0) :
    s.readAnswer q off len = s.answer stDenied [] := by
  have hwide : (decide (len % 8 = 0) && decide (16 ≤ len) && decide (len ≤ 64) && decide (off % len = 0)) = false := by
    rw [← Bool.not_eq_true]
    simp only [Bool.and_eq_true, decide_eq_true_eq]
    omega
  unfold State.readAnswer State.regRead
  simp only [hb, hw, h8, hwide, decide_false, Bool.false_and, Bool.not_false, Bool.and_self, if_true, if_false, Bool.false_eq_true]

/-- A read of 8 aligned bytes is the read of one register. -/
theorem State.readAnswer_eight (h8 : off % 8 = 0) :
    s.readAnswer q off 8 = (s.regGet q off).2.2.answer (s.regGet q off).1 (leBytes 8 (s.regGet q off).2.1) := by
  unfold State.readAnswer State.regRead
  simp [hb, hw, h8]

end Reads

section Gets

variable (s : State) (q : Req) {off : Nat} {r : Reg}

theorem State.regGet_unassigned (h : Reg.ofOff off = none) : s.regGet q off = (if q = .i3c then stOutOfBounds else stOK, 0, s) := by
  unfold State.regGet
  simp only [h]

variable (h : Reg.ofOff off = some r)
include h

theorem State.regGet_down (hu : s.regUp q r = false) : s.regGet q off = (stTargetReset, 0, s) := by
  unfold State.regGet
  simp only [h, hu, Bool.not_false, if_true]

variable (hu : s.regUp q r = true)
include hu

theorem State.regGet_unreadable (hm : s.mayRead q r = false) : s.regGet q off = (stDenied, 0, s) := by
  unfold State.regGet
  simp only [h, hu, hm, Bool.not_true, Bool.not_false, if_true, if_false, Bool.false_eq_true]

variable (hm : s.mayRead q r = true) (hr : ∀ w, r ≠ .trcRdwin w)
include hm hr

/-- A requester other than a partition reads the word, and its read clears the RC fields (R15). -/
theorem State.regGet_word (hq : ∀ p, q ≠ .vf p) : s.regGet q off = (stOK, s.regWord r, if readClears q then s.clearRc r else s) := by
  unfold State.regGet
  simp only [h, hu, hm, Bool.not_true, if_false, Bool.false_eq_true]

/-- A partition reads its counters coarsened (R369). -/
theorem State.regGet_part {p : Fin 8} (hq : q = .vf p) : s.regGet q off = (stOK, s.partWord p r) := by
  subst hq
  unfold State.regGet
  simp only [h, hu, hm, Bool.not_true, if_false, Bool.false_eq_true]

end Gets

end Sys2Proof.Machine
end

section
/-! SUPPORT. What a read clears and coarsens, and what a refused write counts. -/

namespace Sys2Proof.Machine

open Sys2Proof.Safety

/-! ### Reads that clear (R15, R215) -/

/-- The word of a register after a read that clears its RC fields. -/
def Reg.cleared (r : Reg) (v : Nat) : Nat := r.layout.foldl (fun n f => if f.op = .rc then setBits n f.hi f.lo 0 else n) v

theorem Reg.cleared_lt (r : Reg) {v : Nat} (hv : v < 2 ^ 64) : r.cleared v < 2 ^ 64 := by
  refine List.foldlRecOn (motive := (· < 2 ^ 64)) r.layout _ hv fun n hn f hf => ?_
  split
  · exact setBits_lt _ _ hn (r.layout_hi_lt f hf)
  · exact hn

/-- An RC field is cleared, and every other field stands. -/
theorem Reg.bitsOf_cleared (r : Reg) (v : Nat) {f : FldSpec} (hf : f ∈ r.layout) :
    bitsOf (r.cleared v) f.hi f.lo = if f.op = .rc then 0 else bitsOf v f.hi f.lo := by
  rw [← Nat.zero_mod (2 ^ (f.hi + 1 - f.lo))]
  exact bitsOf_foldl_setBits FldSpec.hi FldSpec.lo (fun _ => 0) (fun f => f.op = .rc) r.layout r.layout_disjoint v hf

/-- A register without RC fields stands as it is. -/
theorem State.clearRc_none (s : State) (r : Reg) (h : ∀ f ∈ r.layout, f.op ≠ .rc) : s.clearRc r = s := by
  unfold State.clearRc
  rw [if_neg (by simpa using h)]

/-- A register with RC fields other than MEM_MCH_PIN is cleared. -/
theorem State.clearRc_cleared (s : State) (r : Reg) (h : ∃ f ∈ r.layout, f.op = .rc) (hm : ∀ m, r ≠ .memMchPin m) :
    s.clearRc r = s.setReg r (r.cleared (s.reg r)) := by
  unfold State.clearRc
  rw [if_pos (by simpa using h)]
  cases r with
  | memMchPin m => exact absurd rfl (hm m)
  | _ => rfl

/-- The counts of each pin of MCH `m` and the PIN that was named forgotten (R215). -/
def State.pinForgotten (s : State) (m : Nat) : State := (s.modMch m fun c => { c with pinCnt := [] }).fset (F.memMchPin_PIN m) 0

theorem State.clearRc_memMchPin (s : State) (m : Nat) :
    s.clearRc (.memMchPin m) = (s.pinForgotten m).setReg (.memMchPin m) ((Reg.memMchPin m).cleared ((s.pinForgotten m).reg (.memMchPin m))) := by
  unfold State.clearRc
  exact if_pos (by simp [Reg.layout])

theorem State.fset_modMch_frame (s : State) (m : Nat) (g : Mch → Mch) (f : Fld) (v : Nat) :
    RegsBut s ((s.modMch m g).fset f v) [f.reg.off] ∧ { (s.modMch m g).fset f v with regs := s.regs, mchs := s.mchs } = s :=
  ⟨RegsBut.trans (t := s.modMch m g) (RegsBut.of_regs_eq _ rfl) (regsBut_fset _ f v), rfl⟩

theorem State.pinForgotten_frame (s : State) (m : Nat) :
    RegsBut s (s.pinForgotten m) [(Reg.memMchPin m).off] ∧ { s.pinForgotten m with regs := s.regs, mchs := s.mchs } = s := by
  unfold State.pinForgotten
  exact s.fset_modMch_frame m _ (F.memMchPin_PIN m) 0

theorem State.setReg_frame {u s : State} (h : { u with regs := s.regs, mchs := s.mchs } = s) (r : Reg) (v : Nat) :
    { u.setReg r v with regs := s.regs, mchs := s.mchs } = s := h

/-- Reading a register changes its own word alone, and for MEM_MCH_PIN what stands behind it. -/
theorem State.clearRc_frame (s : State) (r : Reg) : RegsBut s (s.clearRc r) [r.off] ∧ { s.clearRc r with regs := s.regs, mchs := s.mchs } = s := by
  by_cases h : ∃ f ∈ r.layout, f.op = .rc
  · by_cases hm : ∃ m, r = .memMchPin m
    · obtain ⟨m, rfl⟩ := hm
      obtain ⟨hregs, hrest⟩ := s.pinForgotten_frame m
      rw [s.clearRc_memMchPin m]
      exact ⟨hregs.trans (regsBut_setReg _ _ _), State.setReg_frame hrest _ _⟩
    · rw [s.clearRc_cleared r h fun m hr => hm ⟨m, hr⟩]
      exact ⟨regsBut_setReg s r _, rfl⟩
  · rw [s.clearRc_none r fun f hf hr => h ⟨f, hf, hr⟩]
    exact ⟨RegsBut.refl s _, rfl⟩

/-- The fields after a clearing read of a register other than MEM_MCH_PIN. -/
theorem State.bitsOf_clearRc (s : State) (r : Reg) (hm : ∀ m, r ≠ .memMchPin m) {f : FldSpec} (hf : f ∈ r.layout) :
    bitsOf ((s.clearRc r).reg r) f.hi f.lo = if f.op = .rc then 0 else bitsOf (s.reg r) f.hi f.lo := by
  by_cases h : ∃ f ∈ r.layout, f.op = .rc
  · rw [s.clearRc_cleared r h hm, State.reg_setReg_of_lt _ _ (r.cleared_lt (s.reg_lt r)), r.bitsOf_cleared _ hf]
  · rw [s.clearRc_none r fun f hf hr => h ⟨f, hf, hr⟩, if_neg fun hr => h ⟨f, hf, hr⟩]

theorem State.clearRc_mchs (s : State) (r : Reg) (hm : ∀ m, r ≠ .memMchPin m) : (s.clearRc r).mchs = s.mchs := by
  by_cases h : ∃ f ∈ r.layout, f.op = .rc
  · rw [s.clearRc_cleared r h hm]; rfl
  · rw [s.clearRc_none r fun f hf hr => h ⟨f, hf, hr⟩]

theorem State.fget_clearRc_memMchPin (s : State) (m : Nat) :
    (s.clearRc (.memMchPin m)).fget (F.memMchPin_COUNT m) = 0 ∧ (s.clearRc (.memMchPin m)).fget (F.memMchPin_PIN m) = 0 := by
  have hpin : (s.pinForgotten m).fget (F.memMchPin_PIN m) = 0 := by
    unfold State.pinForgotten
    rw [State.fget_fset_self _ (F.memMchPin_PIN m) 0 (by simp [F.memMchPin_PIN]), Nat.zero_mod]
  have hfld : ∀ f ∈ (Reg.memMchPin m).layout, bitsOf ((s.clearRc (.memMchPin m)).reg (.memMchPin m)) f.hi f.lo
      = if f.op = .rc then 0 else bitsOf ((s.pinForgotten m).reg (.memMchPin m)) f.hi f.lo := fun f hf => by
    rw [s.clearRc_memMchPin m, State.reg_setReg_of_lt _ _ (Reg.cleared_lt _ (State.reg_lt _ _)), Reg.bitsOf_cleared _ _ hf]
  simp only [Reg.layout, List.forall_mem_cons, reduceCtorEq, if_true, if_false] at hfld
  unfold State.fget F.memMchPin_PIN at hpin
  unfold State.fget F.memMchPin_COUNT F.memMchPin_PIN
  obtain ⟨hPIN, hCOUNT, -⟩ := hfld
  exact ⟨hCOUNT, hPIN.trans hpin⟩

/-! ### Counters of a partition (R369) -/

/-- The counter fields of a coarsened word have their low bytes cleared. -/
theorem bitsOf_coarsen (r : Reg) (v : Nat) {f : Nat × Nat} (hf : f ∈ counterFields r) : bitsOf (coarsen r v) (f.2 + 7) f.2 = 0 := by
  have h := bitsOf_foldl_setBits (fun f => f.2 + 7) Prod.snd (fun _ => 0) (fun _ => True) (counterFields r) (counterFields_lowBytes_disjoint r) v hf
  unfold coarsen
  simpa only [if_true, Nat.zero_mod] using h

theorem State.partWord_plain (s : State) (p : Nat) (r : Reg) (h : counterFields r = []) : s.partWord p r = (s.regWord r, s) := by
  unfold State.partWord
  simp only [h, List.isEmpty_nil, if_true]

/-- A snapshot holds for 1 ms: the counters read as it has them. -/
theorem State.partWord_held (s : State) (p : Nat) (r : Reg) (h : counterFields r ≠ []) {o x : Nat}
    (hf : Sparse.find s.coarse (p * 2 ^ 28 + r.off) = some (o, x)) (hx : s.now 8 < x + 1200000) :
    ∃ v, s.partWord p r = (v, s) ∧ ∀ f ∈ counterFields r, bitsOf v f.1 f.2 = bitsOf o f.1 f.2 := by
  refine ⟨(counterFields r).foldl (fun n f => setBits n f.1 f.2 (bitsOf o f.1 f.2)) (s.regWord r), ?_, fun f hf => ?_⟩
  · unfold State.partWord
    simp only [List.isEmpty_iff, h, hf, if_false]
    exact if_pos hx
  · have := bitsOf_foldl_setBits Prod.fst Prod.snd (fun f => bitsOf o f.1 f.2) (fun _ => True) (counterFields r) (counterFields_disjoint r) (s.regWord r) hf
    simp only [if_true] at this
    rw [this, Nat.mod_eq_of_lt (bitsOf_lt o f.1 f.2)]

/-- Once 1 ms has passed the snapshot is taken anew. -/
theorem State.partWord_taken (s : State) (p : Nat) (r : Reg) (h : counterFields r ≠ [])
    (hx : ∀ o x, Sparse.find s.coarse (p * 2 ^ 28 + r.off) = some (o, x) → x + 1200000 ≤ s.now 8) :
    s.partWord p r = (coarsen r (s.regWord r),
      { s with coarse := Sparse.insert s.coarse (p * 2 ^ 28 + r.off) (coarsen r (s.regWord r), s.now 8) }) := by
  unfold State.partWord
  simp only [List.isEmpty_iff, h, if_false]
  split
  · rename_i o x hf
    exact if_neg (Nat.not_lt.mpr (hx o x hf))
  · rfl

/-! ### Refused writes (R15, R384) -/

/-- A refused capability counts in MGT_CAPSTAT.VIOL; beside that it changes only registers that count records and packets. -/
theorem State.capViolation_counts (s : State) (off : Nat) :
    (s.capViolation off).fget F.mgtCapstat_VIOL = min (s.fget F.mgtCapstat_VIOL + 1) (2 ^ 32 - 1)
    ∧ RegsBut s (s.capViolation off) (F.mgtCapstat_VIOL.reg.off :: reportOffs) := by
  have herr : RegsBut (s.fsat F.mgtCapstat_VIOL 1) (s.capViolation off) reportOffs := State.regsBut_error _ _ nofun
  refine ⟨?_, RegsBut.trans ((regsBut_fsat s F.mgtCapstat_VIOL 1).mono (by simp)) (herr.mono fun o ho => List.mem_cons_of_mem _ ho)⟩
  rw [herr.fget_eq (by decide)]
  exact State.fget_fsat_self s F.mgtCapstat_VIOL 1 (by decide)

theorem State.capRefused_regsBut (s : State) (q : Req) (off : Nat) (r : Reg) :
    RegsBut s (s.capRefused q off r) (Reg.mgtCapstat.off :: reportOffs) := by
  unfold State.capRefused
  split
  · split
    · exact RegsBut.refl s _
    · exact (s.capViolation_counts off).2
  · exact RegsBut.refl s _

theorem State.capRefused_of_capMay (s : State) (q : Req) (off : Nat) (r : Reg) (h : s.capMay q off r = true) : s.capRefused q off r = s := by
  unfold State.capRefused
  split
  · exact if_pos h
  · rfl

/-- A refused write of a register of Halo's counts in SAF_STAT.DENIED. -/
theorem State.fget_safStat_DENIED_refused (s : State) (q : Req) (off : Nat) (r : Reg) :
    ((s.capRefused q off r).fsat F.safStat_DENIED 1).fget F.safStat_DENIED = min (s.fget F.safStat_DENIED + 1) 65535 := by
  rw [State.fget_fsat_self _ F.safStat_DENIED 1 (by decide), (s.capRefused_regsBut q off r).fget_eq (by decide)]
  rfl

end Sys2Proof.Machine
end

section
/-! O56: register access rules. Each lemma settles the clauses of one kind of access; the last theorem puts them together. -/

namespace Sys2Proof.Machine

open Sys2Proof.Safety

/-! ### Frames of an answered access -/

theorem regsBut_answer {s t : State} {offs : List Nat} (h : RegsBut s t offs) (st : Nat) (d : Bytes) : RegsBut s (t.answer st d) offs := h

theorem State.answer_setReg_frame (s : State) (r : Reg) (v st : Nat) (d : Bytes) :
    { (s.setReg r v).answer st d with regs := s.regs, resp := s.resp } = s := rfl

theorem State.answer_frame {s u : State} (h : { u with regs := s.regs, mchs := s.mchs } = s) (st : Nat) (d : Bytes) :
    { u.answer st d with regs := s.regs, resp := s.resp, mchs := s.mchs } = s := congrArg (fun x : State => { x with resp := s.resp }) h

/-! ### Writes -/

section Writes

variable {q : Req} {off : BitVec 28} {r : Reg} {s : State}

theorem exec_registerWrite_assigned (hb : badCap q = false) (hw : s.prtWaits q off.toNat = false) (h : Reg.ofOff off.toNat = some r)
    (data : Bytes) (h8 : data.length = 8) : exec (.registerWrite q off data) s = .next (State.sendAnswer (s.regPut q r (leVal data))) := by
  rw [exec_registerWrite, s.regWriteBytes_eight q _ data h8, s.regWrite_assigned q _ _ hb hw h]

/-- The registers whose write does nothing but take its fields. -/
theorem State.regEffect_takesFields (s : State) (w : Wr) (h : takesFields w.reg = true) : s.regEffect w = s.wOk w := by
  obtain ⟨q, r, raw, new⟩ := w
  cases r <;> cases h <;> rfl

/-- A write that reaches a register that takes its fields leaves the merged word there, and nothing else (R14, R15). -/
theorem registerWrite_takes (data : Bytes) (ho : off.toNat = r.off) (h8 : data.length = 8) (hreach : Reaches s q r (leVal data)) (ht : takesFields r = true) :
    ∃ t, exec (.registerWrite q off data) s = .next t ∧ t.resp = ⟨stOK, []⟩ ∧ t.reg r = s.merged q r (leVal data) ∧ RegsBut s t [r.off]
      ∧ { t with regs := s.regs, resp := s.resp } = s := by
  obtain ⟨hb, hr, hu, hrs, hw, hl, hs, hc, hh, ⟨f, hf, hfw⟩, -, hseal⟩ := hreach
  rw [← ho] at hr hw
  have hany : (r.layout.any fun f => (s.accOf q r f).writes) = true := List.any_eq_true.mpr ⟨f, hf, hfw⟩
  have hput : s.regPut q r (leVal data) = (stOK, s.setReg r (s.merged q r (leVal data))) := by
    rw [s.regPut_seen q r _ hu hrs hs hh]
    simp only [hc, hl, hany, hseal, Bool.not_true, if_false, Bool.false_eq_true]
    exact s.regEffect_takesFields _ ht
  refine ⟨_, exec_registerWrite_assigned hb hw hr data h8, ?_⟩
  rw [hput, State.sendAnswer_of_ne _ (by decide)]
  exact ⟨rfl, State.reg_setReg_of_lt _ _ (s.merged_lt q r _), regsBut_answer (regsBut_setReg s r _) _ _, s.answer_setReg_frame r _ _ _⟩

variable (hb : badCap q = false) (hw : s.prtWaits q off.toNat = false) (h : Reg.ofOff off.toNat = some r) (data : Bytes) (h8 : data.length = 8)
include hb hw h h8

theorem registerWrite_down (hu : s.regUp q r = false) : exec (.registerWrite q off data) s = .next (s.answer stTargetReset []) := by
  rw [exec_registerWrite_assigned hb hw h data h8, s.regPut_down q r _ hu, State.sendAnswer_of_ne _ (by decide)]

variable (hu : s.regUp q r = true) (hr : s.regResetting r = false)
include hu hr

/-- A write of a register of Halo's by another is refused and counted in SAF_STAT.DENIED, and in MGT_CAPSTAT too where the capability is refused. -/
theorem registerWrite_notHalo (hh : isRwh r = true) (hq : s.isHalo q = false) :
    ∃ t, exec (.registerWrite q off data) s = .next t ∧ t.resp = ⟨stDenied, []⟩
      ∧ t.fget F.safStat_DENIED = min (s.fget F.safStat_DENIED + 1) 65535 ∧ RegsBut s t (Reg.safStat.off :: Reg.mgtCapstat.off :: reportOffs)
      ∧ (s.capMay q r.off r = true → RegsBut s t [Reg.safStat.off] ∧ { t with regs := s.regs, resp := s.resp } = s) := by
  refine ⟨_, exec_registerWrite_assigned hb hw h data h8, ?_⟩
  rw [s.regPut_notHalo q r _ hu hr hh hq, State.sendAnswer_of_ne _ (by decide)]
  refine ⟨rfl, s.fget_safStat_DENIED_refused q r.off r, regsBut_answer ?_ _ _, fun hc => ?_⟩
  · exact ((s.capRefused_regsBut q r.off r).mono fun o ho => List.mem_cons_of_mem _ ho).trans ((regsBut_fsat _ F.safStat_DENIED 1).mono (by simp [F.safStat_DENIED]))
  · rw [s.capRefused_of_capMay q r.off r hc]
    exact ⟨regsBut_answer (regsBut_fsat s F.safStat_DENIED 1) _ _, s.answer_setReg_frame _ _ _ _⟩

theorem registerWrite_unseen (p : Fin 8) (hq : q = .vf p) (hs : s.partSees p r = false) (hh : isRwh r = false) :
    exec (.registerWrite q off data) s = .next (s.answer stDenied []) := by
  rw [exec_registerWrite_assigned hb hw h data h8, s.regPut_unseen q r _ hu hr hq hs hh, State.sendAnswer_of_ne _ (by decide)]

variable (hh : isRwh r = true → s.isHalo q = true)
include hh

/-- A write that its target refuses for its capability is counted in MGT_CAPSTAT.VIOL (R384). -/
theorem registerWrite_badCapability (c : BitVec 4) (hq : q = .cap c) (hc : s.capMay q r.off r = false) :
    ∃ t, exec (.registerWrite q off data) s = .next t ∧ t.resp = ⟨stDenied, []⟩
      ∧ t.fget F.mgtCapstat_VIOL = min (s.fget F.mgtCapstat_VIOL + 1) (2 ^ 32 - 1) ∧ RegsBut s t (F.mgtCapstat_VIOL.reg.off :: reportOffs) := by
  subst hq
  have hput : s.regPut (.cap c) r (leVal data) = (stDenied, s.capViolation r.off) := by
    rw [s.regPut_seen (.cap c) r _ hu hr nofun hh]
    simp only [hc, State.capRefused, Bool.not_false, if_true, if_false, Bool.false_eq_true]
  refine ⟨_, exec_registerWrite_assigned hb hw h data h8, ?_⟩
  rw [hput, State.sendAnswer_of_ne _ (by decide)]
  exact ⟨rfl, (s.capViolation_counts r.off).1, regsBut_answer (s.capViolation_counts r.off).2 _ _⟩

variable (hs : ∀ p, q = .vf p → s.partSees p r = true) (hc : s.capMay q r.off r = true)
include hs hc

theorem registerWrite_locked (hl : s.setLocked r = true) : exec (.registerWrite q off data) s = .next (s.answer stDenied []) := by
  rw [exec_registerWrite_assigned hb hw h data h8, s.regPut_seen q r _ hu hr hs hh]
  simp only [hc, hl, Bool.not_true, if_true, if_false, Bool.false_eq_true]
  rw [State.sendAnswer_of_ne _ (by decide)]

theorem registerWrite_readOnly (hl : s.setLocked r = false) (hro : (r.layout.any fun f => (s.accOf q r f).writes) = false) :
    exec (.registerWrite q off data) s = .next (s.answer stOK []) := by
  rw [exec_registerWrite_assigned hb hw h data h8, s.regPut_seen q r _ hu hr hs hh]
  simp only [hc, hl, hro, Bool.not_true, Bool.not_false, if_true, if_false, Bool.false_eq_true]
  rw [State.sendAnswer_of_ne _ (by decide)]

/-- A write of STR_CQHEAD for which no record waits takes its field (R225). -/
theorem registerWrite_strCqhead (k : Nat) (hk : r = .strCqhead k) (hcq : (s.str k).cqWait = []) :
    exec (.registerWrite q off data) s = .next ((s.setReg r (s.merged q r (leVal data))).answer stOK []) := by
  subst hk
  have hany : ((Reg.strCqhead k).layout.any fun f => (s.accOf q (.strCqhead k) f).writes) = true := by cases q <;> rfl
  have hflush : ∀ v, (s.setReg (.strCqhead k) v).cqFlush k = s.setReg (.strCqhead k) v := fun v => by
    unfold State.cqFlush
    rw [show ((s.setReg (.strCqhead k) v).str k).cqWait = [] from hcq]
    rfl
  rw [exec_registerWrite_assigned hb hw h data h8, s.regPut_seen q _ _ hu hr hs hh]
  simp only [hc, hany, State.setLocked, State.sealDenies, frozenOf, partFieldOf, Bool.not_true, Bool.or_self, if_false, Bool.false_eq_true]
  simp only [State.regEffect, State.strCqheadWrite, hflush]
  rw [State.sendAnswer_of_ne _ (by decide)]

end Writes

/-! ### Reads -/

section Reads

variable {q : Req} {off : BitVec 28} {r : Reg} {s : State}

/-- A read gives the word, and clears the RC fields unless a partition or the debug port makes it (R15). -/
theorem rcRead_reads (hb : badCap q = false) (hw : s.prtWaits q off.toNat = false) (h8 : off.toNat % 8 = 0) (h : Reg.ofOff off.toNat = some r)
    (hq : ∀ p, q ≠ .vf p) (hu : s.regUp q r = true) (hm : s.mayRead q r = true) (hr : ∀ w, r ≠ .trcRdwin w) :
    ∃ t, exec (.rcRead q off 8) s = .next t ∧ t.resp = ⟨stOK, leBytes 8 (s.regWord r)⟩ ∧ RegsBut s t [r.off]
      ∧ { t with regs := s.regs, resp := s.resp, mchs := s.mchs } = s
      ∧ ((∀ m, r ≠ .memMchPin m) → t.mchs = s.mchs ∧ ∀ f ∈ r.layout, bitsOf (t.reg r) f.hi f.lo = if readClears q = true ∧ f.op = .rc then 0 else bitsOf (s.reg r) f.hi f.lo)
      ∧ ∀ m, r = .memMchPin m → readClears q = true → t.fget (F.memMchPin_COUNT m) = 0 ∧ t.fget (F.memMchPin_PIN m) = 0 := by
  rw [exec_rcRead, s.readAnswer_eight q _ hb hw h8, s.regGet_word q h hu hm hr hq]
  refine ⟨_, rfl, rfl, ?_⟩
  cases hc : readClears q
  · exact ⟨RegsBut.refl s _, rfl, fun _ => ⟨rfl, fun f _ => by simp⟩, nofun⟩
  · obtain ⟨hregs, hrest⟩ := s.clearRc_frame r
    refine ⟨regsBut_answer hregs _ _, State.answer_frame hrest _ _, fun hpin => ⟨s.clearRc_mchs r hpin, fun f hf => ?_⟩, ?_⟩
    · simpa using s.bitsOf_clearRc r hpin hf
    · rintro m rfl -
      exact s.fget_clearRc_memMchPin m

theorem rcRead_down (hb : badCap q = false) (hw : s.prtWaits q off.toNat = false) (h8 : off.toNat % 8 = 0) (h : Reg.ofOff off.toNat = some r)
    (hu : s.regUp q r = false) : ∃ t, exec (.rcRead q off 8) s = .next t ∧ t.resp.status = stTargetReset ∧ { t with resp := s.resp } = s := by
  rw [exec_rcRead, s.readAnswer_eight q _ hb hw h8, s.regGet_down q h hu]
  exact ⟨_, rfl, rfl, rfl⟩

/-- What a partition sees of its own registers: its counters as the snapshot of the last millisecond has them (R369). -/
theorem partitionCounterRead_eq {p : Fin 8} (hw : s.prtWaits (.vf p) off.toNat = false) (h : Reg.ofOff off.toNat = some r)
    (h8 : off.toNat % 8 = 0) (hu : s.regUp (.vf p) r = true) (hs : s.partSees p r = true) :
    exec (.partitionCounterRead p off) s = .next ((s.partWord p r).2.answer stOK (leBytes 8 (s.partWord p r).1)) := by
  have hr : ∀ w, r ≠ .trcRdwin w := by
    rintro w rfl
    simp [State.partSees] at hs
  rw [exec_partitionCounterRead, s.readAnswer_eight _ _ rfl hw h8, s.regGet_part (.vf p) h hu hs hr rfl]

theorem partitionCounterRead_unseen {p : Fin 8} (hw : s.prtWaits (.vf p) off.toNat = false) (h : Reg.ofOff off.toNat = some r)
    (h8 : off.toNat % 8 = 0) (hu : s.regUp (.vf p) r = true) (hs : s.partSees p r = false) :
    ∃ t, exec (.partitionCounterRead p off) s = .next t ∧ t.resp.status = stDenied ∧ { t with resp := s.resp } = s := by
  rw [exec_partitionCounterRead, s.readAnswer_eight _ _ rfl hw h8, s.regGet_unreadable (.vf p) h hu hs]
  exact ⟨_, rfl, rfl, rfl⟩

end Reads

/-- Settles O56: a clause for each kind of access, from the cases of a write and of a read. -/
theorem registerAccessRules : Obligations.RegisterAccessRules := by
  unfold Obligations.RegisterAccessRules
  refine ⟨?_, ?_, ?_, ?_, ?_⟩
  · exact fun q off data r s ho h8 hreach ht => registerWrite_takes data ho h8 hreach ht
  · exact fun q off r s hb hw h8 h hq hu hm hr => rcRead_reads hb hw h8 h hq hu hm hr
  · intro p off r s hw h h8 hu hs
    have heq := partitionCounterRead_eq hw h h8 hu hs
    refine ⟨fun hn => ?_, fun hn => ⟨fun o x hf hx => ?_, fun hx => ?_⟩⟩
    · rw [heq, s.partWord_plain p r hn]
    · obtain ⟨v, hv, hfld⟩ := s.partWord_held p r hn hf hx
      exact ⟨_, v, heq, by rw [hv]; rfl, by rw [hv]; rfl, hfld⟩
    · rw [heq, s.partWord_taken p r hn hx]
      exact ⟨_, rfl, rfl, Sparse.find_insert_self _ _ _, fun f hf => bitsOf_coarsen r _ hf, rfl⟩
  · exact fun o r h => Reg.off_of_ofOff r h
  · intro q off s
    refine ⟨fun hb data len => ⟨?_, ?_⟩, fun hb hw => ⟨fun data h8 => ?_, fun len => ?_⟩, fun hb hw => ?_⟩
    · rw [exec_registerWrite, s.regWriteBytes_badCap q _ data hb, State.sendAnswer_pending]
    · rw [exec_rcRead, s.readAnswer_badCap q _ len hb]
    · rw [exec_registerWrite, s.regWriteBytes_eight q _ data h8, s.regWrite_waits q _ _ hb hw, State.sendAnswer_pending]
    · rw [exec_rcRead, s.readAnswer_waits q _ hb len hw]
    refine ⟨fun data hl h => ?_, fun data h8 h => ?_, fun len hl h => ?_, fun h8 h => ⟨fun data hl => ?_, ?_⟩, fun r h8 h => ?_⟩
    · rw [exec_registerWrite, s.regWriteBytes_badLength q _ data hb hl h, State.sendAnswer_of_ne _ (by decide)]
    · rw [exec_registerWrite, s.regWriteBytes_eight q _ data h8, s.regWrite_misaligned q _ _ hb hw h, State.sendAnswer_of_ne _ (by decide)]
    · rw [exec_rcRead, s.readAnswer_badLength q _ hb hw len hl h]
    · rw [exec_registerWrite, s.regWriteBytes_eight q _ data hl, s.regWrite_unassigned q _ _ hb hw h8 h,
        State.sendAnswer_of_ne _ (by split <;> decide)]
    · rw [exec_rcRead, s.readAnswer_eight q _ hb hw h8, s.regGet_unassigned q h]
    refine ⟨fun hu => ⟨?_, ?_⟩, ?_, ?_, ?_, ?_⟩
    · exact fun data hl => registerWrite_down hb hw h data hl hu
    · exact rcRead_down hb hw h8 h hu
    · exact fun data hl hu hr hh hq => registerWrite_notHalo hb hw h data hl hu hr hh hq
    · exact fun c hq hu hr hc hh data hl => registerWrite_badCapability hb hw h data hl hu hr hh c hq hc
    · exact fun data hl hu hr hs hc hh => ⟨registerWrite_locked hb hw h data hl hu hr hh hs hc, registerWrite_readOnly hb hw h data hl hu hr hh hs hc,
        registerWrite_strCqhead hb hw h data hl hu hr hh hs hc⟩
    · rintro p rfl hu hs
      exact ⟨fun data hl hr hh => registerWrite_unseen hb hw h data hl hu hr p rfl hs hh, partitionCounterRead_unseen hw h h8 hu hs⟩

end Sys2Proof.Machine
end

section
/-! SUPPORT. Scalar operations (R41, R43, R44): the fields of a scalar word, what the operation reads, writes and does to the PC, by opcode. -/

namespace Sys2Proof.Machine

open Sys2Proof.Safety

/-! ### A core after a register write -/

@[simp] theorem CoreS.setReg_pc (c : CoreS) (i : Nat) (v : Word) : (c.setReg i v).pc = c.pc := by
  unfold CoreS.setReg; split <;> rfl

@[simp] theorem CoreS.setReg_umode (c : CoreS) (i : Nat) (v : Word) : (c.setReg i v).umode = c.umode := by
  unfold CoreS.setReg; split <;> rfl

theorem goTo_setReg (c : CoreS) (i pc : Nat) (v : Word) : goTo (c.setReg i v) pc c.umode = coreTo c i v pc := by
  unfold goTo coreTo
  rw [← CoreS.setReg_umode c i v]

/-! ### Where the PC goes -/

theorem PcMove.jump_apply {um : Bool} {t : Nat} (h : InRegion um t) (pc : Nat) : (PcMove.jump (t : Int)).apply pc um = some (t, um) := by
  unfold InRegion at h
  unfold PcMove.apply
  cases um <;> simp_all

theorem PcMove.jump_outside {um : Bool} {t : Nat} (h : InRegion um t) : (PcMove.jump (t : Int)).outside = false := by
  unfold InRegion at h
  have : t ≤ 8191 := by split at h <;> omega
  simp [PcMove.outside, this]

/-- The opcodes that transfer control are 0x30 to 0x36 and END. -/
theorem CoreS.pcMove_next (c : CoreS) {x : Nat} (h : scOp x < 0x30 ∨ scOp x = 0x3E) : c.pcMove x = .next := by
  unfold CoreS.pcMove
  split <;> simp_all

/-! ### A scalar operation that issues -/

section Issue

variable {s : State} {n x : Nat}

/-- An operation that writes `v` to register `r` and moves on to the next bundle. -/
theorem State.issueSc_writes {r : Nat} {v : Word} (hi : IssuesHere s n) (hl : scLegal x = true) (hE : scOp x ≠ 0x3F)
    (hr : Ready (s.core n) (scReads x) (scWrites x)) (hm : (s.core n).pcMove x = .next) (hv : s.scResult n x = some (r, v)) :
    Issued s (s.issueSc n x) n (coreTo (s.core n) r v ((s.core n).pc + 1)) := by
  have h := s.issueSc_spec n x _ _ hi.1 hl hE hr (by rw [hm]; rfl) (by rw [hm]; exact PcMove.apply_next _ _ hi.2)
  rw [hv] at h
  rw [← goTo_setReg]
  exact h

/-- An operation that writes no register and moves the PC. -/
theorem State.issueSc_goes {m : PcMove} {pc : Nat} {um : Bool} (hi : Issues s n) (hl : scLegal x = true) (hE : scOp x ≠ 0x3F)
    (hr : Ready (s.core n) (scReads x) (scWrites x)) (hm : (s.core n).pcMove x = m) (ho : m.outside = false)
    (ha : m.apply (s.core n).pc (s.core n).umode = some (pc, um)) (hv : s.scResult n x = none) :
    Issued s (s.issueSc n x) n (goTo (s.core n) pc um) := by
  subst hm
  have h := s.issueSc_spec n x pc um hi hl hE hr ho ha
  rw [hv] at h
  exact h

end Issue

/-! ### The immediate -/

/-- A sign-extended field spells the integer of its bits. -/
theorem sextN_eq_toInt {w : Nat} (b : BitVec w) {n : Nat} (h : n % 2 ^ w = b.toNat) : sextN w n = b.toInt := by
  unfold sextN
  rw [BitVec.toInt_eq_toNat_cond, h]
  cases w with
  | zero => simp [Subsingleton.elim b 0]
  | succ w =>
    have h2 : 2 ^ (w + 1) = 2 * 2 ^ w := Nat.pow_succ'
    simp only [Nat.add_sub_cancel]
    split <;> split <;> omega

/-! ### The slot words, by the form of the operation -/

section Words

variable (c : CoreS) {op : Nat} (rd rs1 rs2 : Fin 64) (imm : BitVec 28)

/-- The register forms (R43). -/
theorem scWord_reg (ho : 1 ≤ op ∧ op ≤ 0xD) :
    let x := scWord op rd rs1 rs2 0
    scOp x = op ∧ scRd x = rd ∧ scRs1 x = rs1 ∧ scRs2 x = rs2 ∧ scIsReg x = true ∧ scReads x = [rs1.val, rs2.val] ∧ scWrites x = [rd.val]
    ∧ ((rd : Nat) < 48 → (rs1 : Nat) < 48 → (rs2 : Nat) < 48 → scLegal x = true) := by
  obtain ⟨h1, h2, h3, h4, -⟩ := scWord_fields op rd rs1 rs2 0 (by omega) rd.isLt rs1.isLt rs2.isLt (by decide)
  obtain ⟨h4, h5⟩ := h4 ho
  have hR : scIsReg (scWord op rd rs1 rs2 0) = true := by simp [scIsReg, h1, ho]
  refine ⟨h1, h2, h3, h4, hR, by simp [scReads, hR, h3, h4], by simp [scWrites, hR, h2], fun a b d => ?_⟩
  have : ¬ (op = 0 ∨ op = 0x3F) := by omega
  simp only [scLegal, h1, hR, h2, h3, h4, h5, this]
  simp [a, b, d]

/-- The other operations: the fields and IMM28. -/
theorem scWord_imm (ho : 0xD < op) (ho' : op < 64) :
    let x := scWord op rd rs1 0 imm.toNat
    scOp x = op ∧ scRd x = rd ∧ scRs1 x = rs1 ∧ scImm x = imm.toInt ∧ x % 2 ^ 28 = imm.toNat ∧ scIsReg x = false := by
  obtain ⟨h1, h2, h3, -, h5⟩ := scWord_fields op rd rs1 0 imm.toNat (by omega) rd.isLt rs1.isLt (by decide) imm.isLt
  have h5 := h5 (by omega)
  exact ⟨h1, h2, h3, sextN_eq_toInt imm h5, h5, by simp [scIsReg, h1]; omega⟩

end Words

/-! ### R43, R44: results -/

section Results

variable {s : State} {n : Fin 384}

theorem issueSc_reg {op : Nat} (ho : 1 ≤ op ∧ op ≤ 0xD) {rd rs1 rs2 : Fin 64} (hd : (rd : Nat) < 48) (h1 : (rs1 : Nat) < 48) (h2 : (rs2 : Nat) < 48)
    (hi : IssuesHere s n) (hr : Ready (s.core n) [rs1.val, rs2.val] [rd.val]) :
    Issued s (s.issueSc n (scWord op rd rs1 rs2 0)) n
      (coreTo (s.core n) rd (aluOp op ((s.core n).reg rs1) ((s.core n).reg rs2)) ((s.core n).pc + 1)) := by
  obtain ⟨e1, e2, e3, e4, e5, e6, e7, e8⟩ := scWord_reg rd rs1 rs2 ho
  refine State.issueSc_writes hi (e8 hd h1 h2) (by rw [e1]; omega) (by rw [e6, e7]; exact hr) (CoreS.pcMove_next _ (by rw [e1]; omega)) ?_
  simp [State.scResult, e1, e2, e3, e4, e5]

theorem issueSc_immOp {op : Nat} (ho : 0x11 ≤ op ∧ op ≤ 0x1D) {rd rs1 : Fin 64} (imm : BitVec 28) (hd : (rd : Nat) < 48) (h1 : (rs1 : Nat) < 48)
    (hi : IssuesHere s n) (hr : Ready (s.core n) [rs1.val] [rd.val]) :
    Issued s (s.issueSc n (scWord op rd rs1 0 imm.toNat)) n
      (coreTo (s.core n) rd (aluOp (op - 0x10) ((s.core n).reg rs1) (imm.signExtend 64)) ((s.core n).pc + 1)) := by
  obtain ⟨e1, e2, e3, e4, e5, e6⟩ := scWord_imm rd rs1 imm (by omega : 0xD < op) (by omega)
  have hI : scIsImm (scWord op rd rs1 0 imm.toNat) = true := by simp [scIsImm, e1, ho]
  refine State.issueSc_writes hi ?_ (by rw [e1]; omega) ?_ (CoreS.pcMove_next _ (by rw [e1]; omega)) ?_
  · have : ¬ (op = 0 ∨ op = 0x3F) := by omega
    simp only [scLegal, e1, e2, e3, e6, hI, this]
    simpa using ⟨hd, h1⟩
  · simpa [scReads, scWrites, e2, e3, e6, hI] using hr
  · simp only [State.scResult, e1, e2, e3, e4, e6, hI]
    rfl

theorem issueSc_li {rd : Fin 64} (imm : BitVec 28) (hd : (rd : Nat) < 48) (hi : IssuesHere s n) (hr : Ready (s.core n) [] [rd.val]) :
    Issued s (s.issueSc n (scWord 0x20 rd 0 0 imm.toNat)) n (coreTo (s.core n) rd (imm.signExtend 64) ((s.core n).pc + 1)) := by
  obtain ⟨e1, e2, e3, e4, e5, e6⟩ := scWord_imm rd 0 imm (by decide : 0xD < 0x20) (by decide)
  rw [Fin.val_zero] at *
  refine State.issueSc_writes hi ?_ (by rw [e1]; decide) ?_ (CoreS.pcMove_next _ (by rw [e1]; decide)) ?_
  · simpa [scLegal, scIsImm, e1, e2, e6] using hd
  · simpa [scReads, scWrites, scIsImm, scIsCond, e1, e2, e6] using hr
  · simp only [State.scResult, scIsImm, e1, e2, e4, e6]
    rfl

/-- LIH keeps the low 28 bits. -/
theorem lih_value (imm : BitVec 28) (r : Word) :
    BitVec.ofNat 64 (wrapI 36 imm.toInt * 2 ^ 28 + r.toNat % 2 ^ 28) = imm.signExtend 36 ++ r.extractLsb' 0 28 := by
  have hw : (imm.signExtend 36).toNat = wrapI 36 imm.toInt := BitVec.toNat_ofInt imm.toInt
  have hlt : r.toNat % 2 ^ 28 < 2 ^ 28 := Nat.mod_lt _ (by decide)
  refine BitVec.eq_of_toNat_eq ?_
  rw [BitVec.toNat_append, hw, BitVec.extractLsb'_toNat, Nat.shiftRight_zero, ← Nat.shiftLeft_add_eq_or_of_lt hlt, Nat.shiftLeft_eq,
    BitVec.toNat_ofNat, Nat.mod_eq_of_lt]
  have := (imm.signExtend 36).isLt
  omega

theorem issueSc_lih {rd : Fin 64} (imm : BitVec 28) (hd : (rd : Nat) < 48) (hi : IssuesHere s n) (hr : Ready (s.core n) [rd.val] [rd.val]) :
    Issued s (s.issueSc n (scWord 0x21 rd 0 0 imm.toNat)) n
      (coreTo (s.core n) rd (imm.signExtend 36 ++ ((s.core n).reg rd).extractLsb' 0 28) ((s.core n).pc + 1)) := by
  obtain ⟨e1, e2, e3, e4, e5, e6⟩ := scWord_imm rd 0 imm (by decide : 0xD < 0x21) (by decide)
  rw [Fin.val_zero] at *
  refine State.issueSc_writes hi ?_ (by rw [e1]; decide) ?_ (CoreS.pcMove_next _ (by rw [e1]; decide)) ?_
  · simpa [scLegal, scIsImm, e1, e2, e6] using hd
  · simpa [scReads, scWrites, scIsImm, scIsCond, e1, e2, e6] using hr
  · rw [← lih_value]
    simp [State.scResult, scIsImm, e1, e2, e4, e6]

/-! ### CSRR (R44) -/

/-- The word of a CSRR. -/
theorem scWord_csrr (rd : Fin 64) (k : BitVec 8) :
    let x := scWord 0x3E rd 0 0 k.toNat
    scOp x = 0x3E ∧ scRd x = rd ∧ scIsReg x = false ∧ bitsOf x 7 0 = k.toNat := by
  have hk : (k.setWidth 28).toNat = k.toNat := BitVec.toNat_setWidth_of_le (by decide)
  obtain ⟨e1, e2, -, -, e5, e6⟩ := scWord_imm rd 0 (k.setWidth 28) (by decide : 0xD < 0x3E) (by decide)
  rw [hk] at *
  refine ⟨e1, e2, e6, ?_⟩
  have hlt := k.isLt
  show _ / 2 ^ 0 % 2 ^ 8 = _
  simp only [Fin.val_zero] at e5 ⊢
  omega

theorem scLegal_csrr (rd : Fin 64) (k : BitVec 8) :
    scLegal (scWord 0x3E rd 0 0 k.toNat) = (decide ((rd : Nat) < 48) && decide (k.toNat ≤ 6)) := by
  obtain ⟨e1, e2, e3, e4⟩ := scWord_csrr rd k
  simp [scLegal, scIsImm, scIsCond, e1, e2, e3, e4]

theorem issueSc_csrr {rd : Fin 64} {k : BitVec 8} (hd : (rd : Nat) < 48) (hk : k.toNat ≤ 6) (hi : IssuesHere s n) (hr : Ready (s.core n) [] [rd.val]) :
    Issued s (s.issueSc n (scWord 0x3E rd 0 0 k.toNat)) n (coreTo (s.core n) rd (s.csr n k.toNat) ((s.core n).pc + 1)) := by
  obtain ⟨e1, e2, e3, e4⟩ := scWord_csrr rd k
  refine State.issueSc_writes hi ?_ (by rw [e1]; decide) ?_ (CoreS.pcMove_next _ (by rw [e1]; decide)) ?_
  · rw [scLegal_csrr]; simpa using ⟨hd, hk⟩
  · simpa [scReads, scWrites, scIsImm, scIsCond, e1, e2, e3] using hr
  · simp [State.scResult, scIsImm, e1, e2, e3, e4]

end Results

end Sys2Proof.Machine
end

section
/-! SUPPORT. What observers see, and the end of an instance (R38, R71, R446): an EVENT packet changes only what Tail holds and the loss counts, a program error only CORE_ERR, the core and the stream beside that. -/

namespace Sys2Proof.Safety

open Sys2Proof.Machine

/-! ### Tail packets -/

/-- From `s` to `t` only Tail's queues, buffers and loss counts have changed (R447, R452). -/
def Seen (s t : State) : Prop := RegsBut s t lossOffs ∧ ∃ r q b, t = { s with regs := r, tailq := q, tbufs := b }

theorem mem_lossOffs {o : Nat} : o ∈ lossOffs ↔ ∃ b < 9, (Reg.trcBloss b).off = o := by
  simp [lossOffs]

namespace Seen

variable {s t u : State}

theorem refl (s : State) : Seen s s := ⟨RegsBut.refl s _, _, _, _, rfl⟩

theorem trans (h : Seen s t) (h' : Seen t u) : Seen s u := by
  refine ⟨h.1.trans h'.1, ?_⟩
  obtain ⟨-, r, q, b, rfl⟩ := h
  obtain ⟨-, r', q', b', rfl⟩ := h'
  exact ⟨r', q', b', rfl⟩

theorem core (h : Seen s t) (n : Nat) : t.core n = s.core n := by obtain ⟨-, r, q, b, rfl⟩ := h; rfl
theorem str (h : Seen s t) (k : Nat) : t.str k = s.str k := by obtain ⟨-, r, q, b, rfl⟩ := h; rfl
theorem mem (h : Seen s t) : t.mem = s.mem := by obtain ⟨-, r, q, b, rfl⟩ := h; rfl

end Seen

end Sys2Proof.Safety

namespace Sys2Proof.Machine

open Sys2Proof.Safety

theorem State.seen_tailDrop (s : State) {b : Nat} (hb : b < 9) (src ts : Nat) : Seen s (s.tailDrop b src ts) := by
  refine ⟨RegsBut.trans (RegsBut.of_regs_eq _ rfl) ((regsBut_fsat _ (F.trcBloss_DROPPED b) 1).mono ?_), _, _, _, rfl⟩
  simpa [F.trcBloss_DROPPED] using mem_lossOffs.mpr ⟨b, hb, rfl⟩

/-- A Tail packet is seen by observers alone: it waits in its source's FIFO, or is counted as lost (R445, R452). -/
theorem State.seen_tailPkt (s : State) (kind src event die : Nat) (part : Option Nat) (payload : Nat) {bs : List Nat} (hb : ∀ b ∈ bs, b < 9) :
    Seen s (s.tailPkt kind src event die part payload bs) := by
  unfold State.tailPkt
  dsimp only
  split
  · exact Seen.refl s
  split
  · exact ⟨RegsBut.of_regs_eq _ rfl, _, _, _, rfl⟩
  · exact List.foldlRecOn (motive := Seen s) bs _ (Seen.refl s) fun t ht b hmem => ht.trans (t.seen_tailDrop (hb b hmem) _ _)

theorem State.seen_tailCore (s : State) (n j event payload : Nat) : Seen s (s.tailCore n j event payload) :=
  s.seen_tailPkt _ _ _ _ _ _ fun _ hb => List.mem_range.mp (List.mem_of_mem_filter hb)

theorem coreErr_off_not_lost (n : Fin 384) : (Reg.coreErr n).off ∉ lossOffs := by
  rw [mem_lossOffs]
  rintro ⟨b, hb, h⟩
  simp only [Reg.off] at h
  omega

/-! ### Streams -/

theorem State.str_modStr_self (s : State) (k : Nat) (f : StreamS → StreamS) : (s.modStr k f).str k = f (s.str k) :=
  Sparse.getD_setD_self _ _ _ _

theorem State.str_modStr_ne (s : State) {k j : Nat} (f : StreamS → StreamS) (h : j ≠ k) : (s.modStr k f).str j = s.str j :=
  Sparse.getD_setD_ne _ _ _ h

theorem State.started_modOp_self (s : State) (k seq : Nat) (f : StrOp → StrOp) :
    ((s.modOp k seq f).str k).started = (s.str k).started.map fun o => if o.seq = seq then f o else o := by
  unfold State.modOp; rw [State.str_modStr_self]

theorem State.str_modOp_ne (s : State) {k j : Nat} (seq : Nat) (f : StrOp → StrOp) (h : j ≠ k) : (s.modOp k seq f).str j = s.str j :=
  State.str_modStr_ne _ _ h

/-! ### The end of an instance (R38) -/

/-- A core whose instance has ended: what was queued is discarded (R54, R135). -/
def CoreS.ended (c : CoreS) : CoreS :=
  { c with inst := none, mq := [], vq := [], vrun := [], ldBusy := false, stBusy := false, drBusy := false, drParts := [], fifo := 0,
           dmaq := c.dmaq.map (·.filter (·.checked)), bar := 0, tb := none, ending := false, waiting := false,
           fault := none, parked := false, umode := false }

/-- The descriptor of an instance that has ended with a status (R228). -/
def KInst.left (i : KInst) (status detail : Nat) (o : StrOp) : StrOp :=
  { o with left := o.left - 1, fails := if status = 0 then o.fails else o.fails ++ [(i.vcore, status, detail)] }

theorem State.endInstance_eq (s : State) (n status detail : Nat) {i : KInst} (hi : (s.core n).inst = some i) :
    s.endInstance n status detail
      = ((s.tailCore n 0 0x02 (status + (s.core n).pc % 8192 * 256)).modOp i.stream i.seq (i.left status detail)).setCore n (s.core n).ended := by
  unfold State.endInstance
  simp only [hi]
  rfl

section Ended

variable (s : State) (n status detail : Nat) {i : KInst} (hi : (s.core n).inst = some i)
include hi

theorem State.core_endInstance_self : (s.endInstance n status detail).core n = (s.core n).ended := by
  rw [s.endInstance_eq n _ _ hi, State.core_setCore_self]

/-- No other core, no byte of memory and no other stream sees the end of an instance. -/
theorem State.endInstance_frame : ∃ r q b cs ss, s.endInstance n status detail = { s with regs := r, tailq := q, tbufs := b, cores := cs, strs := ss } := by
  obtain ⟨-, r, q, b, h⟩ := s.seen_tailCore n 0 0x02 (status + (s.core n).pc % 8192 * 256)
  rw [s.endInstance_eq n _ _ hi, h]
  exact ⟨r, q, b, _, _, rfl⟩

theorem State.coresBut_endInstance : CoresBut s (s.endInstance n status detail) n := fun m hm => by
  rw [s.endInstance_eq n _ _ hi, State.core_setCore_ne _ _ hm]
  exact (s.seen_tailCore ..).core m

theorem State.mem_endInstance : (s.endInstance n status detail).mem = s.mem := by
  obtain ⟨r, q, b, cs, ss, h⟩ := s.endInstance_frame n status detail hi
  rw [h]

theorem State.regsBut_endInstance : RegsBut s (s.endInstance n status detail) lossOffs := by
  rw [s.endInstance_eq n _ _ hi]
  exact (s.seen_tailCore ..).1

theorem State.started_endInstance : ((s.endInstance n status detail).str i.stream).started
    = (s.str i.stream).started.map fun o => if o.seq = i.seq then i.left status detail o else o := by
  rw [s.endInstance_eq n _ _ hi, ← (s.seen_tailCore n 0 0x02 (status + (s.core n).pc % 8192 * 256)).str i.stream]
  exact State.started_modOp_self _ _ _ _

theorem State.str_endInstance_ne {k : Nat} (hk : k ≠ i.stream) : (s.endInstance n status detail).str k = s.str k := by
  rw [s.endInstance_eq n _ _ hi, ← (s.seen_tailCore n 0 0x02 (status + (s.core n).pc % 8192 * 256)).str k]
  exact State.str_modOp_ne _ _ _ hk

end Ended

/-- CORE_ERR holds the first error of a core (R73). -/
theorem State.coreErr_first (s : State) (n code : Nat) {i : KInst} (hi : (s.core n).inst = some i) (hst : i.stream < 65536)
    (hc : code < 256) (hv : s.fbit (F.coreErr_VALID n) = false) :
    (s.coreErr n code).fget (F.coreErr_VALID n) = 1 ∧ (s.coreErr n code).fget (F.coreErr_CODE n) = code := by
  have ho : s.fget (F.coreErr_OVR n) < 2 := bitsOf_lt _ 62 62
  have hr : (s.coreErr n code).reg (.coreErr n)
      = (2 ^ 63 + s.fget (F.coreErr_OVR n) * 2 ^ 62 + code * 2 ^ 48 + i.stream * 2 ^ 32 + (s.core n).pc % 8192) % 2 ^ 64 := by
    unfold State.coreErr
    simp only [hv, hi, Bool.false_eq_true, if_false]
    exact State.reg_setReg_self _ _ _
  constructor
  · show bitsOf ((s.coreErr n code).reg (.coreErr n)) 63 63 = 1
    rw [hr]; unfold bitsOf; omega
  · show bitsOf ((s.coreErr n code).reg (.coreErr n)) 55 48 = code
    rw [hr]; unfold bitsOf; omega

theorem State.coreErr_regs (s : State) (n code : Nat) : ∃ r, s.coreErr n code = { s with regs := r } := by
  unfold State.coreErr
  split <;> exact ⟨_, rfl⟩

theorem State.regsBut_coreErr (s : State) (n code : Nat) : RegsBut s (s.coreErr n code) [(Reg.coreErr n).off] := by
  unfold State.coreErr
  split
  · exact regsBut_fset s (F.coreErr_OVR n) 1
  · exact regsBut_setReg s (.coreErr n) _

section ProgError

variable (s : State) (n : Fin 384) (code : Nat) {i : KInst} (hi : (s.core n).inst = some i)
include hi

/-- A program error ends the instance (R71); no other core and no byte of memory changes. -/
theorem State.progError_ends :
    (s.progError n code).core n = (s.core n).ended ∧ CoresBut s (s.progError n code) n ∧ (s.progError n code).mem = s.mem := by
  obtain ⟨r, h⟩ := s.coreErr_regs n code
  unfold State.progError
  rw [h]
  have hi' : (({ s with regs := r } : State).core n).inst = some i := hi
  exact ⟨State.core_endInstance_self _ _ _ _ hi', State.coresBut_endInstance _ _ _ _ hi', State.mem_endInstance _ _ _ _ hi'⟩

/-- A program error writes CORE_ERR (R71, R73). -/
theorem State.progError_coreErr (hst : i.stream < 65536) (hc : code < 256) (hv : s.fbit (F.coreErr_VALID n) = false) :
    (s.progError n code).fget (F.coreErr_VALID n) = 1 ∧ (s.progError n code).fget (F.coreErr_CODE n) = code := by
  obtain ⟨r, h⟩ := s.coreErr_regs n code
  have hi' : ((s.coreErr n code).core n).inst = some i := by rw [h]; exact hi
  have hr := State.regsBut_endInstance _ n (progStatus code) code hi'
  obtain ⟨h1, h2⟩ := s.coreErr_first n code hi hst hc hv
  have hk := coreErr_off_not_lost n
  exact ⟨(hr.fget_eq (f := F.coreErr_VALID n) hk).trans h1, (hr.fget_eq (f := F.coreErr_CODE n) hk).trans h2⟩

end ProgError

end Sys2Proof.Machine
end

section
/-! O2, O3: scalar operations. -/

namespace Sys2Proof.Machine

open Sys2Proof.Safety

theorem State.issue_issueNow {s : State} {n : Nat} (hi : Issues s n) (b : Bundle) : s.issue n b = s.issueNow n b := by
  obtain ⟨h1, h2, h3⟩ := hi
  simp [State.issue, h1, h2, h3]

/-- An illegal bundle ends the instance with ILLEGAL_OP (R42, R71). -/
theorem State.issue_illegal {s : State} {n : Nat} (hi : Issues s n) {b : Bundle} (hl : b.legal = false) : s.issue n b = s.progError n 1 := by
  rw [State.issue_issueNow hi]
  simp [State.issueNow, hl]

theorem Bundle.illegal_sc {x : Nat} (h : scLegal x = false) : Bundle.legal { Bundle.empty with sc := some x } = false := by
  simp [Bundle.legal, Bundle.slots, Bundle.empty, h]

/-- What an illegal operation leaves: no instance, ILLEGAL_OP in CORE_ERR. -/
theorem illegal_ends {s : State} {n : Fin 384} {i : KInst} (hi : (s.core n).inst = some i) (hst : i.stream < 65536)
    (hv : s.fbit (F.coreErr_VALID n) = false) :
    let t := s.progError n 1
    (t.core n).inst = none ∧ t.fget (F.coreErr_VALID n) = 1 ∧ t.fget (F.coreErr_CODE n) = 1 ∧ t.mem = s.mem ∧ CoresBut s t n := by
  obtain ⟨e1, e2, e3⟩ := s.progError_ends n 1 hi
  obtain ⟨e4, e5⟩ := s.progError_coreErr n 1 hi hst (by decide) hv
  exact ⟨by rw [e1]; rfl, e4, e5, e3, e2⟩

end Sys2Proof.Machine

namespace Sys2Proof.Safety

open Sys2Proof.Machine

/-- The rows of the register forms are opcodes 0x01 to 0x0D (R43). -/
theorem aluTable_opcodes : ∀ row ∈ aluTable, ∃ op, (1 ≤ op ∧ op ≤ 0xD) ∧ row.2 = aluOp op
    ∧ ∀ (n : Fin 384) (rd rs1 rs2 : Fin 64) (s : State), exec (row.1 n rd rs1 rs2) s = .next (s.issueSc n (scWord op rd rs1 rs2 0)) := by
  simp only [aluTable, List.forall_mem_cons]
  exact ⟨⟨0x1, by decide, rfl, fun _ _ _ _ _ => rfl⟩, ⟨0x2, by decide, rfl, fun _ _ _ _ _ => rfl⟩, ⟨0x3, by decide, rfl, fun _ _ _ _ _ => rfl⟩,
    ⟨0x4, by decide, rfl, fun _ _ _ _ _ => rfl⟩, ⟨0x5, by decide, rfl, fun _ _ _ _ _ => rfl⟩, ⟨0x6, by decide, rfl, fun _ _ _ _ _ => rfl⟩,
    ⟨0x7, by decide, rfl, fun _ _ _ _ _ => rfl⟩, ⟨0x8, by decide, rfl, fun _ _ _ _ _ => rfl⟩, ⟨0x9, by decide, rfl, fun _ _ _ _ _ => rfl⟩,
    ⟨0xA, by decide, rfl, fun _ _ _ _ _ => rfl⟩, ⟨0xB, by decide, rfl, fun _ _ _ _ _ => rfl⟩, ⟨0xC, by decide, rfl, fun _ _ _ _ _ => rfl⟩,
    ⟨0xD, by decide, rfl, fun _ _ _ _ _ => rfl⟩, fun _ h => nomatch h⟩

/-- The rows of the immediate forms are opcodes 0x11 to 0x1D (R43). -/
theorem aluImmTable_opcodes : ∀ row ∈ aluImmTable, ∃ op, (0x11 ≤ op ∧ op ≤ 0x1D) ∧ row.2 = aluOp (op - 0x10)
    ∧ ∀ (n : Fin 384) (rd rs1 : Fin 64) (imm : BitVec 28) (s : State), exec (row.1 n rd rs1 imm) s = .next (s.issueSc n (scWord op rd rs1 0 imm.toNat)) := by
  simp only [aluImmTable, List.forall_mem_cons]
  exact ⟨⟨0x11, by decide, rfl, fun _ _ _ _ _ => rfl⟩, ⟨0x12, by decide, rfl, fun _ _ _ _ _ => rfl⟩, ⟨0x13, by decide, rfl, fun _ _ _ _ _ => rfl⟩,
    ⟨0x14, by decide, rfl, fun _ _ _ _ _ => rfl⟩, ⟨0x15, by decide, rfl, fun _ _ _ _ _ => rfl⟩, ⟨0x16, by decide, rfl, fun _ _ _ _ _ => rfl⟩,
    ⟨0x17, by decide, rfl, fun _ _ _ _ _ => rfl⟩, ⟨0x18, by decide, rfl, fun _ _ _ _ _ => rfl⟩, ⟨0x19, by decide, rfl, fun _ _ _ _ _ => rfl⟩,
    ⟨0x1A, by decide, rfl, fun _ _ _ _ _ => rfl⟩, ⟨0x1B, by decide, rfl, fun _ _ _ _ _ => rfl⟩, ⟨0x1C, by decide, rfl, fun _ _ _ _ _ => rfl⟩,
    ⟨0x1D, by decide, rfl, fun _ _ _ _ _ => rfl⟩, fun _ h => nomatch h⟩

/-- Settles O2: the tables' rows by their opcodes, the rest operation by operation. -/
theorem scalarOperationResults : Obligations.ScalarOperationResults := by
  unfold Obligations.ScalarOperationResults
  refine ⟨?_, ?_, ?_, ?_⟩
  · intro row hrow n rd rs1 rs2 s hd h1 h2 hi hr
    obtain ⟨op, ho, hf, he⟩ := aluTable_opcodes row hrow
    exact ⟨_, he n rd rs1 rs2 s, by rw [hf]; exact issueSc_reg ho hd h1 h2 hi hr⟩
  · intro row hrow n rd rs1 imm s hd h1 hi hr
    obtain ⟨op, ho, hf, he⟩ := aluImmTable_opcodes row hrow
    exact ⟨_, he n rd rs1 imm s, by rw [hf]; exact issueSc_immOp ho imm hd h1 hi hr⟩
  · intro n rd imm s hd hi
    refine ⟨fun hr => ⟨_, rfl, issueSc_li imm hd hi hr⟩, fun hr => ⟨_, rfl, issueSc_lih imm hd hi hr⟩, fun i hinst p hp hr => ?_⟩
    have hk : p.1 ≤ 6 ∧ s.csr n p.1 = BitVec.ofNat 64 p.2 := by
      simp only [List.mem_cons, List.not_mem_nil, or_false] at hp
      rcases hp with rfl | rfl | rfl | rfl | rfl | rfl | rfl <;> simp [State.csr, hinst, dieOfCore]
    obtain ⟨h6, hv⟩ := hk
    have hb : (BitVec.ofNat 8 p.1).toNat = p.1 := by rw [BitVec.toNat_ofNat]; exact Nat.mod_eq_of_lt (by omega)
    refine ⟨_, rfl, ?_⟩
    rw [← hv]
    simpa only [hb] using issueSc_csrr (k := BitVec.ofNat 8 p.1) hd (by omega) hi hr
  · intro n rd k s i hi hk hinst hst hv
    have hl : scLegal (scWord 0x3E rd 0 0 k.toNat) = false := by
      rw [scLegal_csrr, Bool.and_eq_false_iff]
      exact .inr (decide_eq_false (by omega))
    have he : exec (.csrr n rd k) s = .next (s.progError n 1) :=
      congrArg Host.Outcome.next (State.issue_illegal hi (Bundle.illegal_sc hl))
    exact ⟨_, he, illegal_ends hinst hst hv⟩

end Sys2Proof.Safety
end

section
/-! O3: scalar transfers of control (R41, R43). -/

namespace Sys2Proof.Machine

open Sys2Proof.Safety


section Transfers

variable {s : State} {n : Fin 384} {rs1 : Fin 64} {imm : BitVec 28} {tgt : Nat}

theorem scalarNop_issued (hi : IssuesHere s n) : Issued s (s.issueSc n 0) n (stepped (s.core n)) :=
  State.issueSc_goes (m := .next) hi.1 rfl (by decide) ⟨by simp [scReads, scIsReg, scIsImm, scIsCond, scOp, bitsOf], by simp [scWrites, scIsReg, scIsImm, scOp, bitsOf]⟩
    (CoreS.pcMove_next _ (by decide)) rfl (PcMove.apply_next _ _ hi.2) rfl

/-- The words of the transfers: opcodes 0x30 to 0x36 with RS1 and IMM28. -/
theorem scWord_transfer {op : Nat} (ho : 0x30 ≤ op ∧ op ≤ 0x36) (rs1 : Fin 64) (imm : BitVec 28) :
    let x := scWord op 0 rs1 0 imm.toNat
    scOp x = op ∧ scRs1 x = rs1 ∧ scImm x = imm.toInt ∧ scIsReg x = false ∧ scIsImm x = false ∧ scIsCond x = decide (0x31 ≤ op ∧ op ≤ 0x34) := by
  obtain ⟨e1, e2, e3, e4, e5, e6⟩ := scWord_imm 0 rs1 imm (by omega : 0xD < op) (by omega)
  rw [Fin.val_zero] at *
  exact ⟨e1, e3, e4, e6, by simp [scIsImm, e1]; omega, by simp [scIsCond, e1]⟩

theorem br_issued (hi : Issues s n) (ht : ((s.core n).pc : Int) + imm.toInt = tgt) (hu : InRegion (s.core n).umode tgt) :
    Issued s (s.issueSc n (scWord 0x30 0 0 0 imm.toNat)) n (goTo (s.core n) tgt (s.core n).umode) := by
  obtain ⟨e1, e2, e3, e4, e5, e6⟩ := scWord_transfer (by decide : 0x30 ≤ 0x30 ∧ 0x30 ≤ 0x36) 0 imm
  rw [Fin.val_zero] at *
  refine State.issueSc_goes hi ?_ (by rw [e1]; decide) ?_ ?_ (PcMove.jump_outside hu) (PcMove.jump_apply hu _) ?_
  · simp [scLegal, e1, e4, e5]
  · simp [Ready, scReads, scWrites, e1, e4, e5, e6]
  · simp only [CoreS.pcMove, e1, e3, ht]
  · simp [State.scResult, e1, e4, e5]

/-- A conditional branch: its word is legal, reads RS1 and writes nothing. -/
theorem scWord_cond {op : Nat} (ho : 0x31 ≤ op ∧ op ≤ 0x34) (h1 : (rs1 : Nat) < 48) :
    let x := scWord op 0 rs1 0 imm.toNat
    scLegal x = true ∧ scReads x = [rs1.val] ∧ scWrites x = [] ∧ scOp x ≠ 0x3F ∧ s.scResult n x = none := by
  obtain ⟨e1, e2, e3, e4, e5, e6⟩ := scWord_transfer (by omega : 0x30 ≤ op ∧ op ≤ 0x36) rs1 imm
  have hne : op ≠ 0 ∧ op ≠ 0x3F ∧ op ≠ 0x20 ∧ op ≠ 0x21 ∧ op ≠ 0x30 ∧ op ≠ 0x36 ∧ op ≠ 0x3E := by omega
  obtain ⟨n1, n2, n3, n4, n5, n6, n7⟩ := hne
  refine ⟨?_, ?_, ?_, by rw [e1]; exact n2, ?_⟩
  · simp [scLegal, e1, e2, e4, e5, e6, ho, h1, n1, n2, n3, n4, n5, n6]
  · simp [scReads, e2, e4, e5, e6, ho]
  · simp [scWrites, e1, e4, e5, n3, n4, n6, n7]
  · simp [State.scResult, e1, e4, e5, n3, n4, n6, n7]

/-- What a conditional branch does where its condition is `b` (R43). -/
theorem cond_issued {op : Nat} {b : Bool} {t : Nat} (ho : 0x31 ≤ op ∧ op ≤ 0x34) (h1 : (rs1 : Nat) < 48) (hi : Issues s n) (hr : Ready (s.core n) [rs1.val] [])
    (hm : (s.core n).pcMove (scWord op 0 rs1 0 imm.toNat) = if b then .jump (((s.core n).pc : Int) + imm.toInt) else .next)
    (hb : if b then ((s.core n).pc : Int) + imm.toInt = t else t = (s.core n).pc + 1) (hu : InRegion (s.core n).umode t) :
    Issued s (s.issueSc n (scWord op 0 rs1 0 imm.toNat)) n (goTo (s.core n) t (s.core n).umode) := by
  obtain ⟨e1, e2, e3, e4, e5⟩ := scWord_cond (s := s) (n := n) (imm := imm) ho h1
  have hrd : Ready (s.core n) (scReads (scWord op 0 rs1 0 imm.toNat)) (scWrites (scWord op 0 rs1 0 imm.toNat)) := by rw [e2, e3]; exact hr
  cases b with
  | true =>
    simp only [if_true] at hm hb
    exact State.issueSc_goes hi e1 e4 hrd (hm.trans (by rw [hb])) (PcMove.jump_outside hu) (PcMove.jump_apply hu _) e5
  | false =>
    simp only [Bool.false_eq_true, if_false] at hm hb
    subst hb
    exact State.issueSc_goes hi e1 e4 hrd hm rfl (PcMove.apply_next _ _ hu) e5

/-- The rows of the conditional branches are opcodes 0x31 to 0x34 with their conditions (R43). -/
theorem branchTable_opcodes : ∀ row ∈ branchTable, ∃ op, (0x31 ≤ op ∧ op ≤ 0x34)
    ∧ (∀ (n : Fin 384) (rs1 : Fin 64) (imm : BitVec 28) (s : State), exec (row.1 n rs1 imm) s = .next (s.issueSc n (scWord op 0 rs1 0 imm.toNat)))
    ∧ ∀ (c : CoreS) (x : Nat), scOp x = op → c.pcMove x = if row.2 (c.reg (scRs1 x)) then .jump ((c.pc : Int) + scImm x) else .next := by
  simp only [branchTable, List.forall_mem_cons]
  refine ⟨⟨0x31, by decide, fun _ _ _ _ => rfl, fun c x h => ?_⟩, ⟨0x32, by decide, fun _ _ _ _ => rfl, fun c x h => ?_⟩,
    ⟨0x33, by decide, fun _ _ _ _ => rfl, fun c x h => ?_⟩, ⟨0x34, by decide, fun _ _ _ _ => rfl, fun c x h => ?_⟩, fun _ h => nomatch h⟩
  all_goals simp [CoreS.pcMove, h]

theorem call_issued {um : Bool} (hi : Issues s n) (ht : ((s.core n).pc : Int) + imm.toInt = tgt) (hr : Ready (s.core n) [] [31])
    (hu : (tgt < 64 ∧ um = true) ∨ (64 ≤ tgt ∧ um = (s.core n).umode ∧ InRegion (s.core n).umode tgt)) :
    Issued s (s.issueSc n (scWord 0x36 0 0 0 imm.toNat)) n (goTo ((s.core n).setReg 31 (BitVec.ofNat 64 ((s.core n).pc + 1))) tgt um) := by
  obtain ⟨e1, e2, e3, e4, e5, e6⟩ := scWord_transfer (by decide : 0x30 ≤ 0x36 ∧ 0x36 ≤ 0x36) 0 imm
  rw [Fin.val_zero] at *
  have hm : (s.core n).pcMove (scWord 0x36 0 0 0 imm.toNat) = .call tgt := by simp only [CoreS.pcMove, e1, e3, ht]
  have hreg : tgt ≤ 8191 ∧ (PcMove.call (tgt : Int)).apply (s.core n).pc (s.core n).umode = some (tgt, um) := by
    rcases hu with ⟨h64, rfl⟩ | ⟨h64, rfl, hin⟩
    · exact ⟨by omega, by simp [PcMove.apply, h64]⟩
    · have := PcMove.jump_outside hin
      simp only [PcMove.outside] at this
      refine ⟨by simpa using this, ?_⟩
      have h := PcMove.jump_apply hin (s.core n).pc
      simpa [PcMove.apply, Nat.not_lt.mpr h64] using h
  have h := s.issueSc_spec n (scWord 0x36 0 0 0 imm.toNat) tgt um hi (by simp [scLegal, e1, e4, e5]) (by rw [e1]; decide)
    (by simpa [scReads, scWrites, e1, e4, e5, e6] using hr) (by rw [hm]; simp [PcMove.outside, hreg.1]) (by rw [hm]; exact hreg.2)
  have hv : s.scResult n (scWord 0x36 0 0 0 imm.toNat) = some (31, BitVec.ofNat 64 ((s.core n).pc + 1)) := by simp [State.scResult, e1, e4, e5]
  rw [hv] at h
  exact h

theorem jr_issued {um : Bool} (h1 : (rs1 : Nat) < 48) (hi : Issues s n) (hr : Ready (s.core n) [rs1.val] []) (ht : tgt = ((s.core n).reg rs1).toNat % 8192)
    (ha : (PcMove.jr tgt).apply (s.core n).pc (s.core n).umode = some (tgt, um)) :
    Issued s (s.issueSc n (scWord 0x35 0 rs1 0 0)) n (goTo (s.core n) tgt um) := by
  obtain ⟨e1, e2, e3, e4, e5, e6⟩ := scWord_transfer (by decide : 0x30 ≤ 0x35 ∧ 0x35 ≤ 0x36) rs1 0
  rw [show (0 : BitVec 28).toNat = 0 from rfl] at *
  refine State.issueSc_goes (m := .jr tgt) hi ?_ (by rw [e1]; decide) ?_ ?_ rfl ha ?_
  · simp [scLegal, e1, e2, e4, e5, e6, h1]
  · simpa [scReads, scWrites, e1, e2, e4, e5, e6] using hr
  · simp only [CoreS.pcMove, e1, e2, ht]
  · simp [State.scResult, e1, e4, e5]

end Transfers

end Sys2Proof.Machine

namespace Sys2Proof.Safety

open Sys2Proof.Machine

/-- Settles O3, transfer by transfer. -/
theorem scalarTransfersOfControl : Obligations.ScalarTransfersOfControl := by
  unfold Obligations.ScalarTransfersOfControl
  intro n rs1 imm s h1 hi
  have cond : ∀ row ∈ branchTable, Ready (s.core n) [rs1.val] [] → ∀ t b, row.2 ((s.core n).reg rs1) = b →
      (if b then ((s.core n).pc : Int) + imm.toInt = (t : Nat) else t = (s.core n).pc + 1) → InRegion (s.core n).umode t →
      ∃ u, exec (row.1 n rs1 imm) s = .next u ∧ Issued s u n (goTo (s.core n) t (s.core n).umode) := by
    intro row hrow hr t b hb ht hu
    obtain ⟨op, ho, he, hm⟩ := branchTable_opcodes row hrow
    obtain ⟨e1, e2, e3, -⟩ := scWord_transfer (by omega : 0x30 ≤ op ∧ op ≤ 0x36) rs1 imm
    refine ⟨_, he n rs1 imm s, cond_issued ho h1 hi hr ?_ ht hu⟩
    rw [hm _ _ e1, e2, e3, hb]
  refine ⟨fun hh => ⟨_, rfl, scalarNop_issued hh⟩, fun tgt ht hu => ⟨⟨_, rfl, br_issued hi ht hu⟩, fun hr row hrow hc => ?_, fun h64 hr => ?_⟩,
    fun tgt ht h64 hr => ?_, fun hh hr row hrow hc => ?_, fun tgt hr ht => ⟨fun h => ?_, fun h hum => ?_⟩⟩
  · exact cond row hrow hr tgt true hc ht hu
  · exact ⟨_, rfl, call_issued hi ht hr (.inr ⟨h64, rfl, hu⟩)⟩
  · exact ⟨_, rfl, call_issued hi ht hr (.inl ⟨h64, rfl⟩)⟩
  · exact cond row hrow hr _ false hc rfl hh.2
  · exact ⟨_, rfl, jr_issued h1 hi hr ht (by simp [PcMove.apply, h])⟩
  · exact ⟨_, rfl, jr_issued h1 hi hr ht (by simp [PcMove.apply, h, hum, Nat.not_le.mpr h])⟩

end Sys2Proof.Safety
end

section
/-! SUPPORT. A bundle that issues (R39, R40, R42): its effect slot by slot, and when nothing holds it back. -/

namespace Sys2Proof.Safety

open Sys2Proof.Machine

/-! ### A change of one core -/

theorem CoreBecomes.refl (s : State) (n : Nat) : CoreBecomes s s n (s.core n) := ⟨rfl, fun _ _ => rfl, rfl⟩

theorem CoreBecomes.trans {s t u : State} {n : Nat} {c d : CoreS} (h : CoreBecomes s t n c) (h' : CoreBecomes t u n d) : CoreBecomes s u n d := by
  obtain ⟨h1, h2, h3⟩ := h
  obtain ⟨h1', h2', h3'⟩ := h'
  refine ⟨h1', fun m hm => (h2' m hm).trans (h2 m hm), ?_⟩
  calc ({ u with cores := s.cores } : State) = { ({ u with cores := t.cores } : State) with cores := s.cores } := rfl
    _ = s := by rw [h3', h3]

theorem coreBecomes_modCore (s : State) (n : Nat) (f : CoreS → CoreS) : CoreBecomes s (s.modCore n f) n (f (s.core n)) :=
  ⟨State.core_modCore_self s n f, fun _ hm => State.core_modCore_ne s f hm, rfl⟩

/-- One more change of the core that has changed. -/
theorem CoreBecomes.mod {s t : State} {n : Nat} {c : CoreS} (h : CoreBecomes s t n c) (f : CoreS → CoreS) : CoreBecomes s (t.modCore n f) n (f c) := by
  have h' := coreBecomes_modCore t n f
  rw [h.1] at h'
  exact h.trans h'

theorem CoreBecomes.issued {s u : State} {n : Nat} {c : CoreS} (h : CoreBecomes s u n c) : Issued s (u.finc (F.cntCbund_N n) 1) n c :=
  issued_of s u n c h.1 h.2.1 h.2.2

theorem Issued.move {s t : State} {n : Nat} {c : CoreS} (h : Issued s t n c) (ha : t.arbs = s.arbs) : IssuedMove s t n c := by
  refine ⟨?_, fun ty u _ => by unfold State.arb; rw [ha]⟩
  rw [← ha]
  exact h

end Sys2Proof.Safety

namespace Sys2Proof.Machine

open Sys2Proof.Safety

/-! ### The effect of a bundle, slot by slot -/

/-- The state after the move slot of a bundle. -/
def State.moved (s : State) (n : Nat) (b : Bundle) : State :=
  match b.mv with
  | some x => s.mvEffect n x (s.core n)
  | none => s

/-- How a bundle moves the PC. -/
def CoreS.bundleMove (c : CoreS) (b : Bundle) : PcMove :=
  match b.sc with
  | some x => c.pcMove x
  | none => .next

/-- What the scalar slot of a bundle writes. -/
def State.bundleResult (s : State) (n : Nat) (b : Bundle) : Option (Nat × Word) :=
  match b.sc with
  | some x => s.scResult n x
  | none => none

/-- A core with the scalar result written, if there is one. -/
def CoreS.wrote (c : CoreS) : Option (Nat × Word) → CoreS
  | some (r, v) => c.setReg r v
  | none => c

/-- The sync slot of a bundle, `pc` the bundle after it. -/
def State.synced (s : State) (n : Nat) (b : Bundle) (pc : Nat) (c0 : CoreS) : State :=
  match b.sy with
  | some x => s.syEffect n x pc c0
  | none => s

theorem coreBecomes_wrote (s : State) (n : Nat) (res : Option (Nat × Word)) :
    CoreBecomes s (match res with | some (r, v) => s.modCore n (·.setReg r v) | none => s) n ((s.core n).wrote res) := by
  cases res with
  | none => exact CoreBecomes.refl s n
  | some p => exact coreBecomes_modCore s n _

/-- A bundle without END whose PC stays in its region: the move slot, then the registers and queues of the core, then the sync slot, then the count of bundles. -/
theorem State.issueEffect_steps (s : State) (n : Nat) (b : Bundle) {pc : Nat} {um : Bool} (hE : ∀ x, b.sc = some x → scOp x ≠ 0x3F)
    (ha : ((s.core n).bundleMove b).apply (s.core n).pc (s.core n).umode = some (pc, um)) :
    ∃ u, CoreBecomes (s.moved n b) u n
        { ((((s.moved n b).core n).wrote (s.bundleResult n b)).enqueue (s.core n) b) with waiting := false, pc := pc, umode := um }
      ∧ s.issueEffect n b = (u.synced n b pc (s.core n)).finc (F.cntCbund_N n) 1 := by
  have h1 := coreBecomes_wrote (s.moved n b) n (s.bundleResult n b)
  have h2 := (h1.mod fun c => { c.enqueue (s.core n) b with waiting := false }).mod fun c => { c with pc := pc, umode := um }
  refine ⟨_, h2, ?_⟩
  unfold State.issueEffect
  unfold CoreS.bundleMove at ha
  cases hsc : b.sc with
  | none =>
    simp only [hsc] at ha ⊢
    rw [ha]
    simp only [State.synced, State.bundleResult, hsc]
    rfl
  | some x =>
    simp only [hsc] at ha ⊢
    rw [ha]
    simp only [State.synced, State.bundleResult, hsc, hE x hsc, if_false]
    rfl

/-! ### When nothing holds a bundle back -/

/-- Ready registers and queues with room keep no bundle waiting (R39). -/
theorem CoreS.regWaits_false (c : CoreS) (b : Bundle) (h : Ready c b.reads b.writes) (hx : ∀ x, b.mx = some x → mxOp x = 0 ∨ c.mq.length < 16)
    (hv : ∀ x, b.vc = some x → vcOp x = 0 ∨ c.vq.length < 16) (hm : ∀ x, b.mv = some x → mvOp x = 1 → (c.dmaq.getD (mvQ x) []).length < 16) :
    c.regWaits b = false := by
  have h1 := any_contains_false h.1
  have h2 := any_contains_false fun r hr => (h.2 r hr).1
  have h3 := any_contains_false fun r hr => (h.2 r hr).2
  unfold CoreS.regWaits
  simp only [h1, h2, h3, Bool.or_self, Bool.false_or, Bool.or_eq_false_iff]
  refine ⟨⟨?_, ?_⟩, ?_⟩
  · cases hb : b.mx with
    | none => rfl
    | some x => rcases hx x hb with h | h <;> simp [h]
  · cases hb : b.vc with
    | none => rfl
    | some x => rcases hv x hb with h | h <;> simp [h]
  · cases hb : b.mv with
    | none => rfl
    | some x =>
      by_cases h : mvOp x = 1
      · simpa [h] using hm x hb h
      · simp [h]

/-- A bundle of one sync operation that does not wait. -/
theorem issueSy_steps {s : State} {n x : Nat} (hi : IssuesHere s n) (hl : syLegal x = true) (hr : Ready (s.core n) (syReads x) [])
    (hy : (s.core n).syWaits x = false) :
    ∃ u, CoreBecomes s u n (stepped (s.core n)) ∧ s.issueSy n x = (u.syEffect n x ((s.core n).pc + 1) (s.core n)).finc (F.cntCbund_N n) 1 := by
  have hlb : Bundle.legal { Bundle.empty with sy := some x } = true := by simp [Bundle.legal, Bundle.slots, Bundle.empty, hl]
  have hw : (s.core n).regWaits { Bundle.empty with sy := some x } = false :=
    CoreS.regWaits_false _ _ (by simpa [Bundle.reads, Bundle.writes, Bundle.slots, Bundle.empty] using hr)
      (fun _ h => nomatch h) (fun _ h => nomatch h) (fun _ h => nomatch h)
  have he : s.issue n { Bundle.empty with sy := some x } = s.issueEffect n { Bundle.empty with sy := some x } :=
    s.issue_effect n _ hi.1 hlb hw rfl fun y h => Option.some.inj h ▸ hy
  obtain ⟨u, hu, hs⟩ := s.issueEffect_steps n { Bundle.empty with sy := some x } (fun _ h => nomatch h) (PcMove.apply_next _ _ hi.2)
  exact ⟨u, hu, he.trans hs⟩

end Sys2Proof.Machine
end

section
/-! O6: sync operations of a core's own (R48). -/

namespace Sys2Proof.Machine

open Sys2Proof.Safety

/-- X of R48 is the sum modulo 2^32. -/
theorem CoreS.syX_eq (c : CoreS) {x : Nat} {rs : Nat} {imm : BitVec 8} (hr : syRs x = rs) (hi : syImm x = imm.toNat) :
    c.syX x = (c.reg rs).setWidth 32 + imm.setWidth 32 := by
  unfold CoreS.syX
  rw [hr, hi]
  refine BitVec.eq_of_toNat_eq ?_
  simp [BitVec.toNat_add]

section Sync

variable {s : State} {n : Fin 384} {ec rs : Fin 64} {imm : BitVec 8}

/-- The sync operation only changes the core. -/
theorem issueSy_issued {x : Nat} (f : CoreS → CoreS) (hi : IssuesHere s n) (hl : syLegal x = true) (hr : Ready (s.core n) (syReads x) [])
    (hy : (s.core n).syWaits x = false)
    (hf : ∀ u : State, CoreBecomes u (u.syEffect n x ((s.core n).pc + 1) (s.core n)) n (f (u.core n))) :
    Issued s (s.issueSy n x) n (f (stepped (s.core n))) := by
  obtain ⟨u, hu, he⟩ := issueSy_steps hi hl hr hy
  have h := hu.trans (hf u)
  rw [hu.1] at h
  rw [he]
  exact h.issued

theorem syWord_event {op : Nat} (ho : 1 ≤ op ∧ op ≤ 4) (hrs : (rs : Nat) < 48) :
    let x := syWord op ec rs imm.toNat
    syOp x = op ∧ syEc x = ec ∧ syRs x = rs ∧ syImm x = imm.toNat ∧ syLegal x = true ∧ syReads x = [rs.val] := by
  obtain ⟨e1, e2, e3, e4⟩ := syWord_fields op ec rs imm.toNat (by omega) ec.isLt rs.isLt imm.isLt
  refine ⟨e1, e2, e3, e4, ?_, by simp [syReads, e1, e3, ho]⟩
  obtain rfl | rfl | rfl | rfl : op = 1 ∨ op = 2 ∨ op = 3 ∨ op = 4 := by omega
  all_goals simp [syLegal, e1, e3, hrs]

theorem evinc_issued (hrs : (rs : Nat) < 48) (hi : IssuesHere s n) (hr : Ready (s.core n) [rs.val] []) :
    Issued s (s.issueSy n (syWord 1 ec rs imm.toNat)) n
      (stepped ((s.core n).setEv ec ((s.core n).evc ec + (((s.core n).reg rs).setWidth 32 + imm.setWidth 32)))) := by
  obtain ⟨e1, e2, e3, e4, e5, e6⟩ := syWord_event (ec := ec) (imm := imm) (by decide : 1 ≤ 1 ∧ 1 ≤ 4) hrs
  refine issueSy_issued (fun c => c.setEv ec (c.evc ec + (((s.core n).reg rs).setWidth 32 + imm.setWidth 32))) hi e5 (by rw [e6]; exact hr) ?_ fun u => ?_
  · simp [CoreS.syWaits, e1]
  · simp only [State.syEffect, e1, e2, CoreS.syX_eq _ e3 e4]
    exact coreBecomes_modCore u n _

theorem evset_issued (hrs : (rs : Nat) < 48) (hi : IssuesHere s n) (hr : Ready (s.core n) [rs.val] []) :
    Issued s (s.issueSy n (syWord 2 ec rs imm.toNat)) n (stepped ((s.core n).setEv ec (((s.core n).reg rs).setWidth 32 + imm.setWidth 32))) := by
  obtain ⟨e1, e2, e3, e4, e5, e6⟩ := syWord_event (ec := ec) (imm := imm) (by decide : 1 ≤ 2 ∧ 2 ≤ 4) hrs
  refine issueSy_issued (fun c => c.setEv ec (((s.core n).reg rs).setWidth 32 + imm.setWidth 32)) hi e5 (by rw [e6]; exact hr) ?_ fun u => ?_
  · simp [CoreS.syWaits, e1]
  · simp only [State.syEffect, e1, e2, CoreS.syX_eq _ e3 e4]
    exact coreBecomes_modCore u n _

/-- A sync operation that passes and has no effect of its own. -/
theorem syPass_issued {x : Nat} (hi : IssuesHere s n) (hl : syLegal x = true) (hr : Ready (s.core n) (syReads x) []) (hy : (s.core n).syWaits x = false)
    (ho : syOp x = 0 ∨ syOp x = 3 ∨ syOp x = 6) : Issued s (s.issueSy n x) n (stepped (s.core n)) := by
  refine issueSy_issued id hi hl hr hy fun u => ?_
  have hu : u.syEffect n x ((s.core n).pc + 1) (s.core n) = u := by rcases ho with h | h | h <;> simp [State.syEffect, h]
  rw [hu]
  exact CoreBecomes.refl u n

/-- A legal sync operation that waits for no register and whose own wait is not over. -/
theorem issueSy_waits {x : Nat} (hi : Issues s n) (hl : syLegal x = true) (hr : Ready (s.core n) (syReads x) []) (hy : (s.core n).syWaits x = true)
    (ho : syOp x ≠ 5) : s.issueSy n x = s.modCore n fun c => { c with waiting := true } := by
  have hlb : Bundle.legal { Bundle.empty with sy := some x } = true := by simp [Bundle.legal, Bundle.slots, Bundle.empty, hl]
  have hw : (s.core n).regWaits { Bundle.empty with sy := some x } = false :=
    CoreS.regWaits_false _ _ (by simpa [Bundle.reads, Bundle.writes, Bundle.slots, Bundle.empty] using hr)
      (fun _ h => nomatch h) (fun _ h => nomatch h) (fun _ h => nomatch h)
  unfold State.issueSy
  rw [State.issue_issueNow hi]
  simp [State.issueNow, hlb, hw, Option.filter, hy, ho]

theorem evwait_waits (hrs : (rs : Nat) < 48) (hi : IssuesHere s n) (hr : Ready (s.core n) [rs.val] [])
    (hlt : (s.core n).evc ec < ((s.core n).reg rs).setWidth 32 + imm.setWidth 32) :
    s.issueSy n (syWord 3 ec rs imm.toNat) = s.modCore n fun c => { c with waiting := true } := by
  obtain ⟨e1, e2, e3, e4, e5, e6⟩ := syWord_event (ec := ec) (imm := imm) (by decide : 1 ≤ 3 ∧ 3 ≤ 4) hrs
  refine issueSy_waits hi.1 e5 (by rw [e6]; exact hr) ?_ (by rw [e1]; decide)
  simp only [CoreS.syWaits, e1, e2, CoreS.syX_eq _ e3 e4]
  exact BitVec.ult_iff_lt.mpr hlt

theorem evwait_issued (hrs : (rs : Nat) < 48) (hi : IssuesHere s n) (hr : Ready (s.core n) [rs.val] [])
    (hle : ((s.core n).reg rs).setWidth 32 + imm.setWidth 32 ≤ (s.core n).evc ec) :
    Issued s (s.issueSy n (syWord 3 ec rs imm.toNat)) n (stepped (s.core n)) := by
  obtain ⟨e1, e2, e3, e4, e5, e6⟩ := syWord_event (ec := ec) (imm := imm) (by decide : 1 ≤ 3 ∧ 3 ≤ 4) hrs
  refine syPass_issued hi e5 (by rw [e6]; exact hr) ?_ (.inr (.inl e1))
  simp only [CoreS.syWaits, e1, e2, CoreS.syX_eq _ e3 e4]
  rw [Bool.eq_false_iff, ne_eq, BitVec.ult_iff_lt]
  exact BitVec.not_lt.mpr hle

theorem bitAt_toNat {w : Nat} (b : BitVec w) (i : Nat) : bitAt b.toNat i = b.getLsbD i := by
  unfold bitAt BitVec.getLsbD
  rw [Nat.testBit_eq_decide_div_mod_eq]

theorem fence_issued (hi : IssuesHere s n) (hl : imm.toNat < 8) (hd : imm.getLsbD 0 = true → (s.core n).dmaIdle = true)
    (hm : imm.getLsbD 1 = true → (s.core n).mxIdle = true) (hv : imm.getLsbD 2 = true → (s.core n).vcIdle = true) :
    Issued s (s.issueSy n (syWord 6 0 0 imm.toNat)) n (stepped (s.core n)) := by
  obtain ⟨e1, -, -, e4⟩ := syWord_fields 6 0 0 imm.toNat (by decide) (by decide) (by decide) imm.isLt
  refine syPass_issued hi (by simp [syLegal, e1, e4, hl]) (by simp [syReads, e1, Ready]) ?_ (.inr (.inr e1))
  have pass : ∀ {b d : Bool}, (b = true → d = true) → (!b || d) = true := by decide
  simp only [CoreS.syWaits, e1, e4, CoreS.fenceDone, bitAt_toNat, pass hd, pass hm, pass hv]
  rfl

end Sync

end Sys2Proof.Machine

namespace Sys2Proof.Safety

open Sys2Proof.Machine

/-- Settles O6, operation by operation. -/
theorem syncSlotLocal : Obligations.SyncSlotLocal := by
  unfold Obligations.SyncSlotLocal
  intro n ec rs imm s hi
  refine ⟨⟨_, rfl, syPass_issued hi rfl ?_ rfl (.inl rfl)⟩, fun hrs hr => ⟨⟨_, rfl, evinc_issued hrs hi hr⟩, ⟨_, rfl, evset_issued hrs hi hr⟩,
    fun hle => ⟨_, rfl, evwait_issued hrs hi hr hle⟩, fun hlt => ?_⟩, fun hl hd hm hv => ⟨_, rfl, fence_issued hi hl hd hm hv⟩⟩
  · simp [syReads, syOp, bitsOf, Ready]
  · exact congrArg Host.Outcome.next (evwait_waits hrs hi hr hlt)

end Sys2Proof.Safety
end

section
/-! SUPPORT. Places in memory (R162, R195, R213): the key under which a byte is listed, which bytes share one, and what storing bytes changes. -/

namespace Sys2Proof.Machine

open Sys2Proof.Safety

/-! ### The map -/

theorem fold8_lt (i : Nat) : fold8 i < 256 := by
  have h1 : bitsOf i 15 8 < 2 ^ 8 := bitsOf_lt i 15 8
  have h2 : bitsOf i 21 16 < 2 ^ 6 := bitsOf_lt i 21 16
  exact Nat.xor_lt_two_pow (n := 8) (Nat.xor_lt_two_pow (n := 8) (Nat.mod_lt _ (by decide)) h1) (by omega)

theorem mem_liveList_lt {s : State} {m : Nat} (h : m ∈ s.liveList) : m < 768 := by
  unfold State.liveList at h
  simp only [List.mem_flatten, List.mem_map, List.mem_range] at h
  obtain ⟨l, ⟨i, hi, rfl⟩, hm⟩ := h
  simp only [onesOf, List.mem_map, List.mem_filter, List.mem_range] at hm
  omega

theorem State.nodup_liveList (s : State) : s.liveList.Nodup := by
  unfold State.liveList
  rw [List.nodup_flatten]
  constructor
  · intro l hl
    obtain ⟨i, -, rfl⟩ := List.mem_map.mp hl
    exact (List.nodup_range.filter _).map (fun a b h => Nat.add_right_cancel h)
  · refine List.pairwise_map.mpr (List.pairwise_lt_range.imp fun {i j} hij => ?_)
    intro x hx hy
    simp only [onesOf, List.mem_map, List.mem_filter, List.mem_range] at hx hy
    omega

/-- A stacked-memory byte stands in one of 768 MCHs, no further in than its address. -/
theorem State.physOf_bounds (s : State) (a : Nat) : (s.physOf a).1 < 768 ∧ (s.physOf a).2 ≤ a := by
  unfold State.physOf
  split
  · unfold hashMap
    have : (a / 256 % 256) ^^^ fold8 (a / 256 / 256 / 3) < 2 ^ 8 := Nat.xor_lt_two_pow (Nat.mod_lt _ (by decide)) (fold8_lt _)
    dsimp only
    omega
  · dsimp only
    refine ⟨?_, ?_⟩
    · rw [List.getD_eq_getElem?_getD]
      cases h : s.liveList[(a / 256 % max s.mapN 1 + fold8 (a / 256 / max s.mapN 1)) % max s.mapN 1]? with
      | none => simp
      | some m => exact mem_liveList_lt (List.mem_of_getElem? h)
    · have := Nat.div_le_self (a / 256) (max s.mapN 1)
      omega

/-- The map of R195 sends distinct addresses to distinct places. -/
theorem hashMap_inj {a b : Nat} (h : hashMap a = hashMap b) : a = b := by
  simp only [hashMap, Prod.mk.injEq] at h
  obtain ⟨h1, h2⟩ := h
  have hi : a / 256 / 256 / 3 = b / 256 / 256 / 3 := by omega
  rw [hi] at h1
  have hx : ∀ x, (x / 256 % 256) ^^^ fold8 (b / 256 / 256 / 3) < 2 ^ 8 := fun x => Nat.xor_lt_two_pow (Nat.mod_lt _ (by decide)) (fold8_lt _)
  have ha := hx a
  have hb := hx b
  have hl : a / 256 % 256 = b / 256 % 256 := by
    have he : (a / 256 % 256) ^^^ fold8 (b / 256 / 256 / 3) = (b / 256 % 256) ^^^ fold8 (b / 256 / 256 / 3) := by omega
    exact Nat.xor_left_injective he
  omega

/-- Addresses below N GiB stand in distinct places, each within its MCH's GiB (R195, R213). -/
theorem State.physOf_inj {s : State} (hm : MapOk s) {a b : Nat} (ha : a < s.mapN * 2 ^ 30) (h : s.physOf a = s.physOf b) : a = b := by
  unfold State.physOf at h
  split at h
  · exact hashMap_inj h
  · rename_i hn
    have hlen := hm.resolve_left hn
    have hpos : 0 < s.mapN := by omega
    rw [Nat.max_eq_left hpos] at h
    simp only [Prod.mk.injEq] at h
    obtain ⟨h1, h2⟩ := h
    have hi : a / 256 / s.mapN = b / 256 / s.mapN := by omega
    rw [hi] at h1
    have hlt : ∀ x, x % s.mapN < s.liveList.length := fun x => by rw [hlen]; exact Nat.mod_lt _ hpos
    rw [List.getD_eq_getElem _ _ (hlt _), List.getD_eq_getElem _ _ (hlt _)] at h1
    have hidx := (s.nodup_liveList.getElem_inj_iff).mp h1
    have hg : a / 256 % s.mapN = b / 256 % s.mapN := by
      have := Nat.ModEq.add_right_cancel' _ hidx
      unfold Nat.ModEq at this
      simpa using this
    have hq : a / 256 = b / 256 := by rw [← Nat.div_add_mod (a / 256) s.mapN, ← Nat.div_add_mod (b / 256) s.mapN, hi, hg]
    omega

theorem State.physOf_snd_lt {s : State} {a : Nat} (ha : a < s.mapN * 2 ^ 30) (ha' : a < 0xC000000000) : (s.physOf a).2 < 2 ^ 30 := by
  unfold State.physOf
  split
  · simp only [hashMap]; omega
  · have hpos : 0 < s.mapN := by omega
    have : a / 256 / s.mapN < 2 ^ 22 := Nat.div_lt_of_lt_mul (by omega)
    rw [Nat.max_eq_left hpos]
    dsimp only
    omega

/-! ### Keys -/

theorem State.memKey_stack (s : State) {a : Nat} (h : a < 0xC000000000) : s.memKey a = (s.physOf a).1 * 2 ^ 30 + (s.physOf a).2 := by
  simp [State.memKey, spaceOf, h]

/-- Beyond stacked memory a byte is listed under its address. -/
theorem State.memKey_other (s : State) {a : Nat} (h : 0xC000000000 ≤ a) : s.memKey a = a := by
  have hs : ∀ x, spaceOf a ≠ .stack x := by
    intro x hx
    unfold spaceOf at hx
    rw [if_neg (Nat.not_lt.mpr h)] at hx
    repeat' split at hx
    all_goals cases hx
  unfold State.memKey
  split
  · exact absurd ‹_› (hs _)
  · rfl

theorem State.memKey_stack_lt (s : State) {a : Nat} (h : a < 0xC000000000) : s.memKey a < 0x20000000000 := by
  obtain ⟨h1, h2⟩ := s.physOf_bounds a
  rw [s.memKey_stack h]
  omega

/-- An address from the scratchpads on shares its key with no other. -/
theorem State.memKey_ne_of_spm (s : State) {a x : Nat} (ha : 0x20000000000 ≤ a) (h : x ≠ a) : s.memKey x ≠ s.memKey a := by
  rw [s.memKey_other (by omega : 0xC000000000 ≤ a)]
  by_cases hx : x < 0xC000000000
  · have := s.memKey_stack_lt hx; omega
  · rw [s.memKey_other (by omega)]; exact h

/-- Backed bytes have keys of their own. -/
theorem State.memKey_inj {s : State} (hm : MapOk s) {a x : Nat} (ha : a < s.mapN * 2 ^ 30) (ha' : a < 0xC000000000) (hx : s.backed x = true) (h : s.memKey x = s.memKey a) :
    x = a := by
  obtain ⟨ha1, -⟩ := s.physOf_bounds a
  have ha2 := State.physOf_snd_lt ha ha'
  rw [s.memKey_stack ha'] at h
  by_cases hx' : x < 0xC000000000
  · have hb : x < s.mapN * 2 ^ 30 := by
      simp only [State.backed, spaceOf, hx', if_true, Bool.and_eq_true, decide_eq_true_eq] at hx
      exact hx.1
    have hx2 := State.physOf_snd_lt hb hx'
    rw [s.memKey_stack hx'] at h
    exact State.physOf_inj hm hb (Prod.ext (by omega) (by omega))
  · rw [s.memKey_other (by omega)] at h
    have : x < 0x10000000000 := by omega
    have hun : spaceOf x = .unassigned := by
      unfold spaceOf
      repeat' rw [if_neg (by omega)]
    simp [State.backed, hun] at hx

/-! ### States of one map -/

section SameMap

variable {s t : State} {offs : List Nat} (h : RegsBut s t offs) (hm : Reg.memMap.off ∉ offs) (hl : ∀ i < 12, (Reg.memLive i).off ∉ offs)
include h hm hl

theorem physOf_congr (a : Nat) : t.physOf a = s.physOf a := by
  have hn : t.mapN = s.mapN := h.fget_eq (f := F.memMap_N) hm
  have hll : t.liveList = s.liveList := by
    unfold State.liveList
    congr 1
    refine List.map_congr_left fun i hi => ?_
    rw [h.reg_eq (hl i (List.mem_range.mp hi))]
  unfold State.physOf
  rw [hn, hll]

/-- The map's registers alone decide the place of a byte (R195, R213). -/
theorem memKey_congr (a : Nat) : t.memKey a = s.memKey a := by
  unfold State.memKey
  split
  · rw [physOf_congr h hm hl]
  · rfl

theorem getByte_congr (hmem : t.mem = s.mem) (a : Nat) : t.getByte a = s.getByte a := by
  unfold State.getByte
  rw [hmem, memKey_congr h hm hl]

end SameMap

theorem getBytes_congr {s t : State} {a b : Nat} {k : Nat} (h : ∀ i < k, t.getByte (a + i) = s.getByte (b + i)) : t.getBytes a k = s.getBytes b k :=
  List.map_congr_left fun i hi => h i (List.mem_range.mp hi)

/-! ### Storing bytes -/

theorem State.setBytes_mem_eq (s : State) (a : Nat) (d : Bytes) : ∃ m, s.setBytes a d = { s with mem := m } := ⟨_, State.setBytes_eq d s a⟩

@[simp] theorem State.memKey_setBytes (s : State) (a : Nat) (d : Bytes) (x : Nat) : (s.setBytes a d).memKey x = s.memKey x := by
  rw [State.setBytes_eq]; rfl

theorem State.getByte_setBytes_ne (d : Bytes) (s : State) (a : Nat) {x : Nat} (h : ∀ i, i < d.length → s.memKey x ≠ s.memKey (a + i)) :
    (s.setBytes a d).getByte x = s.getByte x := by
  induction d generalizing s a with
  | nil => rfl
  | cons b d ih =>
    have h0 : s.memKey x ≠ s.memKey a := h 0 (Nat.succ_pos _)
    rw [State.setBytes, ih (s.setByte a b) (a + 1) fun i hi => by simpa [Nat.add_assoc, Nat.add_comm 1] using h (i + 1) (Nat.succ_lt_succ hi)]
    exact State.getByte_setByte_ne s b h0

theorem State.getByte_setBytes (d : Bytes) (s : State) (a : Nat) (h : ∀ i j, i < d.length → j < d.length → s.memKey (a + i) = s.memKey (a + j) → i = j)
    {i : Nat} (hi : i < d.length) : (s.setBytes a d).getByte (a + i) = d[i] := by
  induction d generalizing s a i with
  | nil => cases hi
  | cons b d ih =>
    rw [State.setBytes]
    cases i with
    | zero =>
      have hne : ∀ j, j < d.length → s.memKey a ≠ s.memKey (a + 1 + j) := fun j hj e => by
        have := h 0 (j + 1) (Nat.succ_pos _) (Nat.succ_lt_succ hj) (by simpa [Nat.add_assoc, Nat.add_comm 1] using e)
        omega
      show ((s.setByte a b).setBytes (a + 1) d).getByte a = b
      rw [State.getByte_setBytes_ne d (s.setByte a b) (a + 1) hne]
      exact State.getByte_setByte_self s a b
    | succ i =>
      rw [show a + (i + 1) = a + 1 + i by omega]
      refine ih (s.setByte a b) (a + 1) (fun j k hj hk e => ?_) (Nat.lt_of_succ_lt_succ hi)
      have := h (j + 1) (k + 1) (Nat.succ_lt_succ hj) (Nat.succ_lt_succ hk) (by simpa [Nat.add_assoc, Nat.add_comm 1] using e)
      omega

/-- Bytes stored read back where no two of them share a key. -/
theorem State.getBytes_setBytes (s : State) (a : Nat) (d : Bytes) (h : ∀ i j, i < d.length → j < d.length → s.memKey (a + i) = s.memKey (a + j) → i = j) :
    (s.setBytes a d).getBytes a d.length = d := by
  unfold State.getBytes
  refine List.ext_getElem (by simp) fun i h1 h2 => ?_
  rw [List.getElem_map, List.getElem_range]
  exact State.getByte_setBytes d s a h h2

/-! ### Byte lists -/

@[simp] theorem length_leBytes (k n : Nat) : (leBytes k n).length = k := by
  induction k generalizing n with
  | zero => rfl
  | succ k ih => simp [leBytes, ih]

theorem leVal_leBytes (k n : Nat) : leVal (leBytes k n) = n % 256 ^ k := by
  induction k generalizing n with
  | zero => simp [leBytes, leVal, Nat.mod_one]
  | succ k ih => rw [leBytes, leVal, ih, BitVec.toNat_ofNat, Nat.pow_succ' (m := 256), Nat.mod_mul (a := 256) (b := 256 ^ k)]

@[simp] theorem length_getBytes (s : State) (a len : Nat) : (s.getBytes a len).length = len := by simp [State.getBytes]

end Sys2Proof.Machine
end

section
/-! O4, O5: move operations (R45). A move decides in the banks of its core, then loads a register of the core or stores in its scratchpad. -/

namespace Sys2Proof.Machine

open Sys2Proof.Safety

/-! ### Banks -/

theorem Sparse.find_setD_ne {β : Type} [DecidableEq β] (d : Nat → β) (m : Sparse β) {k j : Nat} (v : β) (h : j ≠ k) : (Sparse.setD d m k v).find j = m.find j := by
  unfold Sparse.setD
  split
  · exact Sparse.find_erase_ne m h
  · exact Sparse.find_insert_ne m v h

theorem State.arb_setArb_ne (s : State) {t u ty w : Nat} (a : Arb) (h : ty * 100000 + w ≠ t * 100000 + u) : (s.setArb t u a).arb ty w = s.arb ty w :=
  congrArg (fun o => Option.getD o (Arb.init ty)) (Sparse.find_setD_ne (fun _ => Arb.init t) s.arbs a h)

theorem bankOf_bounds (n off : Nat) : 64 * n ≤ bankOf n off ∧ bankOf n off < 64 * n + 64 := by unfold bankOf; omega

/-- Lines that move are granted by the banks of their core alone (R171). -/
theorem State.bankLines_banks (s : State) (n : Fin 384) (r off len : Nat) :
    (∃ a, s.bankLines n r off len = { s with arbs := a }) ∧ BanksOnly s (s.bankLines n r off len) n := by
  unfold State.bankLines
  refine List.foldlRecOn (motive := fun t => (∃ a, t = { s with arbs := a }) ∧ BanksOnly s t n) _ _ ⟨⟨_, rfl⟩, fun _ _ _ => rfl⟩ ?_
  rintro t ⟨⟨a, rfl⟩, hb⟩ i -
  refine ⟨⟨_, rfl⟩, fun ty u hu => ?_⟩
  have hk := bankOf_bounds n (off + 64 * i)
  have hn := n.isLt
  exact (State.arb_setArb_ne _ _ (by omega)).trans (hb ty u hu)

/-! Memory reads do not see the arbiters. -/

theorem State.getBytes_arbs (s : State) (b : Sparse Arb) (a len : Nat) : ({ s with arbs := b } : State).getBytes a len = s.getBytes a len := rfl

theorem State.inDrain_arbs (s : State) (b : Sparse Arb) (a len : Nat) : ({ s with arbs := b } : State).inDrain a len = s.inDrain a len := rfl

theorem State.spm_arbs (s : State) (b : Sparse Arb) (m off len : Nat) : ({ s with arbs := b } : State).spm m off len = s.spm m off len := by
  unfold State.spm
  exact s.getBytes_arbs b _ _

theorem core_bankLines (s : State) (n : Fin 384) (r a l m : Nat) : (s.bankLines n r a l).core m = s.core m := by
  obtain ⟨⟨b, h⟩, -⟩ := s.bankLines_banks n r a l
  rw [h]
  rfl

theorem spm_bankLines (s : State) (n : Fin 384) (r a l m off len : Nat) : (s.bankLines n r a l).spm m off len = s.spm m off len := by
  obtain ⟨⟨b, h⟩, -⟩ := s.bankLines_banks n r a l
  rw [h]
  exact s.spm_arbs b _ _ _

/-! ### What each move operation does (R45) -/

section Effect

variable (s : State) {n : Fin 384} {x off : Nat} {c : CoreS} (ho : c.mvAddr x = off)
include ho

theorem mvEffect_dma (h : mvOp x = 1) : s.mvEffect n x c = (s.bankLines n 5 off 128).modCore n
    fun d => { d with dmaq := d.dmaq.modify (mvQ x) (· ++ [⟨s.spmLE n off 128, false, 0, [], none⟩]) } := by
  simp [State.mvEffect, mvExtent, State.spmLE, spm_bankLines, h, ho]

theorem mvEffect_vld (h : mvOp x = 2) : s.mvEffect n x c = (s.bankLines n 3 off 8192).modCore n (·.setVbytes (mvV x) 0 (s.spm n off 8192)) := by
  simp [State.mvEffect, mvExtent, spm_bankLines, h, ho]

theorem mvEffect_vst (h : mvOp x = 3) : s.mvEffect n x c = (s.bankLines n 3 off 8192).setRaced (spmAddr n off) (c.vbytes (mvV x) 0 8192) := by
  simp [State.mvEffect, mvExtent, h, ho]

theorem mvEffect_tld (h : mvOp x = 4) :
    s.mvEffect n x c = (s.bankLines n 5 off 32).modCore n (·.setTile (mvT x) (BitVec.ofNat 256 (s.spmLE n off 32))) := by
  simp [State.mvEffect, mvExtent, State.spmLE, spm_bankLines, h, ho]

theorem mvEffect_tst (h : mvOp x = 5) : s.mvEffect n x c = (s.bankLines n 5 off 32).setRaced (spmAddr n off) (leBytes 32 (c.tile (mvT x)).toNat) := by
  simp [State.mvEffect, mvExtent, h, ho]

theorem mvEffect_tsetb (h : mvOp x = 6) :
    s.mvEffect n x c = s.modCore n (·.setTile (mvT x) (BitVec.ofNat 256 (setBits (c.tile (mvT x)).toNat 20 0 off))) := by
  simp [State.mvEffect, State.bankLines, h, ho]

theorem mvEffect_ld (h : mvOp x = 8) :
    s.mvEffect n x c = (s.bankLines n 5 off 8).modCore n (·.setReg (mvR x) (BitVec.ofNat 64 (s.spmLE n off 8))) := by
  simp [State.mvEffect, mvExtent, State.spmLE, spm_bankLines, h, ho]

theorem mvEffect_st (h : mvOp x = 9) : s.mvEffect n x c = (s.bankLines n 5 off 8).setRaced (spmAddr n off) (leBytes 8 (c.reg (mvR x)).toNat) := by
  simp [State.mvEffect, mvExtent, h, ho]

end Effect

/-! ### A bundle of one move operation -/

section Move

variable {s : State} {n : Fin 384} {x : Nat}

/-- A move operation that may issue: its effect, then the PC and the count of bundles. -/
theorem issueMv_steps (hi : IssuesHere s n) (hl : mvLegal x = true) (hr : Ready (s.core n) (mvReads x) (mvWrites x)) (ha : (s.core n).mvAddrOk x = true)
    (hq : mvOp x = 1 → ((s.core n).dmaq.getD (mvQ x) []).length < 16) (ht : mvOp x = 4 → tileReserved (s.spmLE n ((s.core n).mvAddr x).toNat 32) = false) :
    ∃ u, CoreBecomes (s.mvEffect n x (s.core n)) u n (goTo ((s.mvEffect n x (s.core n)).core n) ((s.core n).pc + 1) (s.core n).umode)
      ∧ s.issueMv n x = u.finc (F.cntCbund_N n) 1 := by
  have hnd : (mvWrites x).Nodup := by unfold mvWrites; split <;> simp
  have hlb : Bundle.legal { Bundle.empty with mv := some x } = true := by simp [Bundle.legal, Bundle.slots, Bundle.empty, hl, hnd]
  have hw : (s.core n).regWaits { Bundle.empty with mv := some x } = false :=
    CoreS.regWaits_false _ _ (by simpa [Bundle.reads, Bundle.writes, Bundle.slots, Bundle.empty] using hr) (fun _ h => nomatch h) (fun _ h => nomatch h)
      fun y hy => Option.some.inj hy ▸ hq
  have herr : s.issueError n { Bundle.empty with mv := some x } = none := by
    have : ¬ (mvOp x = 4 ∧ tileReserved (s.spmLE n ((s.core n).mvAddr x).toNat 32) = true) := fun h => by simp [ht h.1] at h
    simp [State.issueError, Bundle.empty, ha, this]
  have he := s.issue_effect n { Bundle.empty with mv := some x } hi.1 hlb hw herr fun _ h => nomatch h
  obtain ⟨u, hu, hs⟩ := s.issueEffect_steps n { Bundle.empty with mv := some x } (fun _ h => nomatch h) (PcMove.apply_next _ _ hi.2)
  exact ⟨u, hu, he.trans hs⟩

/-- A change of a core beside a change of arbiters. -/
theorem coreBecomes_of_arbs {s t : State} {n : Nat} {c : CoreS} {a : Sparse Arb} (h : CoreBecomes { s with arbs := a } t n c) :
    CoreBecomes s { t with arbs := s.arbs } n c := by
  obtain ⟨h1, h2, h3⟩ := h
  refine ⟨h1, h2, ?_⟩
  calc ({ ({ t with arbs := s.arbs } : State) with cores := s.cores } : State) = { ({ t with cores := s.cores } : State) with arbs := s.arbs } := rfl
    _ = s := by rw [h3]

/-- The counted bundle beside a change of banks. -/
theorem issued_of_banks {m u : State} {c : CoreS} {a : Sparse Arb} (h : CoreBecomes { m with arbs := a } u n c) :
    Issued m { u.finc (F.cntCbund_N n) 1 with arbs := m.arbs } n c :=
  (coreBecomes_of_arbs h).issued

theorem banksOnly_of_arbs {t u : State} (h : BanksOnly s t n) (he : u.arbs = t.arbs) : BanksOnly s u n := fun ty w hw => by
  rw [← h ty w hw]
  unfold State.arb
  rw [he]

theorem coreBecomes_arbs {t u : State} {c : CoreS} (h : CoreBecomes t u n c) : u.arbs = t.arbs := by
  have h := congrArg State.arbs h.2.2
  exact h

/-- Lines move, the core changes and the bundle is counted. -/
theorem issuedMove_of_banks {u : State} {c : CoreS} {r off len : Nat} {f : CoreS → CoreS} (h : CoreBecomes ((s.bankLines n r off len).modCore n f) u n c) :
    IssuedMove s (u.finc (F.cntCbund_N n) 1) n c := by
  obtain ⟨⟨a, hb⟩, hbo⟩ := s.bankLines_banks n r off len
  have hu := (coreBecomes_modCore (s.bankLines n r off len) n f).trans h
  have harb := coreBecomes_arbs hu
  rw [hb] at hu
  exact ⟨issued_of_banks hu, banksOnly_of_arbs hbo harb⟩

/-- A move that leaves memory and changes the core by `f`. -/
theorem issueMv_loads (hi : IssuesHere s n) (hl : mvLegal x = true) (hr : Ready (s.core n) (mvReads x) (mvWrites x)) (ha : (s.core n).mvAddrOk x = true)
    (hq : mvOp x = 1 → ((s.core n).dmaq.getD (mvQ x) []).length < 16) (ht : mvOp x = 4 → tileReserved (s.spmLE n ((s.core n).mvAddr x).toNat 32) = false)
    {r off len : Nat} {f : CoreS → CoreS} (he : s.mvEffect n x (s.core n) = (s.bankLines n r off len).modCore n f) :
    IssuedMove s (s.issueMv n x) n (goTo (f (s.core n)) ((s.core n).pc + 1) (s.core n).umode) := by
  obtain ⟨u, hu, hs⟩ := issueMv_steps hi hl hr ha hq ht
  have hf := (coreBecomes_modCore (s.bankLines n r off len) n f).1
  rw [core_bankLines] at hf
  rw [he, hf] at hu
  rw [hs]
  exact issuedMove_of_banks hu

theorem spmAddr_ge (n off : Nat) : 0x20000000000 ≤ spmAddr n off := by exact Nat.le_trans (Nat.le_add_right _ _) (Nat.le_add_right _ _)

theorem cntCbund_not_map (n : Fin 384) : Reg.memMap.off ∉ [(Reg.cntCbund n).off] ∧ ∀ i < 12, (Reg.memLive i).off ∉ [(Reg.cntCbund n).off] := by
  have := n.isLt
  refine ⟨?_, fun i hi => ?_⟩ <;> simp only [List.mem_singleton, Reg.off] <;> omega

theorem State.setRaced_eq {s : State} {a : Nat} {d : Bytes} (h : s.inDrain a d.length = false) : s.setRaced a d = s.setBytes a d := by
  unfold State.setRaced
  rw [h]
  rfl

theorem State.setBytes_arbs (s : State) (b : Sparse Arb) (a : Nat) (d : Bytes) :
    ({ s with arbs := b } : State).setBytes a d = { s.setBytes a d with arbs := b } := by
  induction d generalizing s a with
  | nil => rfl
  | cons x d ih => exact ih (s.setByte a x) (a + 1)

/-- A bundle issued on the bytes stored: seen from before, its store is what changes memory. -/
theorem issued_storing {t : State} {c : CoreS} {off : Nat} {d : Bytes} (h : Issued { s with mem := (s.setBytes (spmAddr n off) d).mem } t n c) :
    IssuedStoring s t n c off d.length ∧ t.spm n off d.length = d := by
  have hA := spmAddr_ge n off
  obtain ⟨i1, i2, i3, i4, i5⟩ := h
  unfold IssuedStoring State.spm
  generalize spmAddr n off = A at *
  obtain ⟨hk1, hk2⟩ := cntCbund_not_map n
  have hmem : t.mem = (s.setBytes A d).mem := by
    have h := congrArg State.mem i5
    exact h
  have hg : ∀ y, t.getByte y = (s.setBytes A d).getByte y := fun y => by
    rw [State.setBytes_eq]
    exact getByte_congr (s := { s with mem := (s.setBytes A d).mem }) i4 hk1 hk2 hmem y
  have hkey : ∀ j, s.memKey (A + j) = A + j := fun j => s.memKey_other (by omega)
  refine ⟨⟨i1, i2, i3, i4, fun y hy => (hg y).trans (State.getByte_setBytes_ne d s _ fun j hj => ?_), ?_⟩, ?_⟩
  · exact State.memKey_ne_of_spm s (by omega) (by omega)
  · have h := congrArg (fun t : State => { t with mem := s.mem }) i5
    exact h
  · rw [getBytes_congr (s := s.setBytes A d) (b := A) fun j _ => hg _]
    exact State.getBytes_setBytes s _ d fun j j' _ _ h => by rw [hkey, hkey] at h; omega

/-- A move that stores `d` in bytes that no drain command is writing. -/
theorem issueMv_stores (hi : IssuesHere s n) (hl : mvLegal x = true) (hr : Ready (s.core n) (mvReads x) []) (ha : (s.core n).mvAddrOk x = true)
    (ho : mvOp x = 3 ∨ mvOp x = 5 ∨ mvOp x = 9) {off r len : Nat} {d : Bytes} (hd : s.inDrain (spmAddr n off) d.length = false)
    (he : s.mvEffect n x (s.core n) = (s.bankLines n r off len).setRaced (spmAddr n off) d) :
    IssuedStore s (s.issueMv n x) n (stepped (s.core n)) off d.length ∧ (s.issueMv n x).spm n off d.length = d := by
  obtain ⟨⟨a, hb⟩, hbo⟩ := s.bankLines_banks n r off len
  have hw : mvWrites x = [] := by rcases ho with h | h | h <;> simp [mvWrites, h]
  obtain ⟨u, hu, hs⟩ := issueMv_steps hi hl (hw ▸ hr) ha (fun h => by omega) (fun h => by omega)
  have hd' : ({ s with arbs := a } : State).inDrain (spmAddr n off) d.length = false := (s.inDrain_arbs a _ _).trans hd
  have hm : s.mvEffect n x (s.core n) = { ({ s with mem := (s.setBytes (spmAddr n off) d).mem } : State) with arbs := a } := by
    rw [he, hb, State.setRaced_eq hd', State.setBytes_arbs, State.setBytes_eq d s]
  rw [hm] at hu
  rw [hs]
  obtain ⟨h1, h2⟩ := issued_storing (issued_of_banks hu)
  exact ⟨⟨h1, banksOnly_of_arbs hbo ((coreBecomes_arbs hu).trans (by rw [hb]))⟩, (State.spm_arbs ..).symm.trans h2⟩

end Move

/-! ### The operations (R45) -/

section Ops

variable {s : State} {n : Fin 384} {ab : Fin 16} {imm : BitVec 32}

/-- The address of a move word is that of R45. -/
theorem CoreS.mvAddr_eq (c : CoreS) {x : Nat} (hb : mvAb x = ab) (hm : x % 2 ^ 32 = imm.toNat) : c.mvAddr x = moveAddr c ab imm := by
  unfold CoreS.mvAddr moveAddr mvImm
  rw [hb, sextN_eq_toInt imm hm]

theorem moveAt_ok {c : CoreS} {len al off x : Nat} (h : MoveAt c ab imm len al off) (hb : mvAb x = ab) (hm : x % 2 ^ 32 = imm.toNat)
    (he : mvExtent x = (len, al)) : c.mvAddr x = off ∧ c.mvAddrOk x = true := by
  obtain ⟨h1, h2, h3⟩ := h
  have ha : c.mvAddr x = off := (c.mvAddr_eq hb hm).trans h1
  refine ⟨ha, ?_⟩
  simp [CoreS.mvAddrOk, ha, he, h2, h3]

/-- A core whose PC and mode bit stand as before goes on to the next bundle. -/
theorem goTo_next {c d : CoreS} (hp : d.pc = c.pc) (hu : d.umode = c.umode) : goTo d (c.pc + 1) c.umode = stepped d := by
  unfold stepped
  rw [hp, hu]

theorem goTo_setVbytes (c : CoreS) (v o : Nat) (b : Bytes) : goTo (c.setVbytes v o b) (c.pc + 1) c.umode = stepped (c.setVbytes v o b) := goTo_next rfl rfl

theorem goTo_setTile (c : CoreS) (i : Nat) (w : BitVec 256) : goTo (c.setTile i w) (c.pc + 1) c.umode = stepped (c.setTile i w) := goTo_next rfl rfl

theorem goTo_queueDma (c : CoreS) (q : Nat) (e : DmaJob) :
    goTo { c with dmaq := c.dmaq.modify q (· ++ [e]) } (c.pc + 1) c.umode = stepped { c with dmaq := c.dmaq.modify q (· ++ [e]) } := goTo_next rfl rfl

/-- The address replaces BASE, the tile's low 21 bits. -/
theorem ofNat_setBits_base (t : BitVec 256) (a : Nat) : BitVec.ofNat 256 (setBits t.toNat 20 0 a) = t.extractLsb' 21 235 ++ BitVec.ofNat 21 a := by
  have hlt : a % 2 ^ 21 < 2 ^ 21 := Nat.mod_lt _ (by decide)
  have ht := t.isLt
  refine BitVec.eq_of_toNat_eq ?_
  rw [BitVec.toNat_append, BitVec.extractLsb'_toNat, BitVec.toNat_ofNat, BitVec.toNat_ofNat, ← Nat.shiftLeft_add_eq_or_of_lt hlt, Nat.shiftLeft_eq,
    Nat.shiftRight_eq_div_pow]
  unfold setBits bitsOf
  omega

variable {off : Nat} (hi : IssuesHere s n)
include hi

theorem moveNop_issued : Issued s (s.issueMv n 0) n (stepped (s.core n)) := by
  obtain ⟨u, hu, hs⟩ := issueMv_steps (x := 0) hi rfl (by simp [mvReads, mvWrites, mvOp, bitsOf, Ready]) rfl (fun h => nomatch h) (fun h => nomatch h)
  have he : s.mvEffect n 0 (s.core n) = s := rfl
  rw [he] at hu
  rw [hs]
  exact hu.issued

theorem ld_issued {r : Fin 64} (hr : (r : Nat) < 48) (ha : MoveAt (s.core n) ab imm 8 8 off) (hw : Ready (s.core n) [32 + ab] [r]) :
    IssuedMove s (s.issueMv n (mvWord 8 ab r 0 0 0 imm.toNat)) n (coreTo (s.core n) r (BitVec.ofNat 64 (s.spmLE n off 8)) ((s.core n).pc + 1)) := by
  obtain ⟨e1, e2, e3, -, -, -, e7, e8⟩ := mvWord_fields 8 ab r 0 0 0 imm.toNat (by decide) ab.isLt r.isLt (by decide) (by decide) (by decide) imm.isLt
  obtain ⟨ho, hok⟩ := moveAt_ok ha e2 e8 (by simp [mvExtent, e1])
  rw [← goTo_setReg]
  have hx := mvEffect_ld s ho (n := n) e1
  rw [e3] at hx
  have h := issueMv_loads hi (by simp [mvLegal, e1, e3, e7, hr])
    (by simpa [mvReads, mvWrites, e1, e2, e3] using hw) hok (by simp [e1]) (by simp [e1]) hx
  exact h

theorem vld_issued {v : Fin 32} (ha : MoveAt (s.core n) ab imm 8192 64 off) (hw : Ready (s.core n) [32 + ab] [100 + v]) :
    IssuedMove s (s.issueMv n (mvWord 2 ab 0 v 0 0 imm.toNat)) n (stepped ((s.core n).setVbytes v 0 (s.spm n off 8192))) := by
  obtain ⟨e1, e2, -, e4, -, -, e7, e8⟩ := mvWord_fields 2 ab 0 v 0 0 imm.toNat (by decide) ab.isLt (by decide) v.isLt (by decide) (by decide) imm.isLt
  obtain ⟨ho, hok⟩ := moveAt_ok ha e2 e8 (by simp [mvExtent, e1])
  rw [← goTo_setVbytes]
  have hx := mvEffect_vld s ho (n := n) e1
  rw [e4] at hx
  have h := issueMv_loads hi (by simp [mvLegal, e1, e7]) (by simpa [mvReads, mvWrites, e1, e2, e4] using hw) hok
    (by simp [e1]) (by simp [e1]) hx
  exact h

theorem tld_issued {d : Fin 16} (ha : MoveAt (s.core n) ab imm 32 32 off) (hw : Ready (s.core n) [32 + ab] [200 + d]) (ht : tileReserved (s.spmLE n off 32) = false) :
    IssuedMove s (s.issueMv n (mvWord 4 ab 0 0 d 0 imm.toNat)) n (stepped ((s.core n).setTile d (BitVec.ofNat 256 (s.spmLE n off 32)))) := by
  obtain ⟨e1, e2, -, -, e5, -, e7, e8⟩ := mvWord_fields 4 ab 0 0 d 0 imm.toNat (by decide) ab.isLt (by decide) (by decide) d.isLt (by decide) imm.isLt
  obtain ⟨ho, hok⟩ := moveAt_ok ha e2 e8 (by simp [mvExtent, e1])
  rw [← goTo_setTile]
  have hx := mvEffect_tld s ho (n := n) e1
  rw [e5] at hx
  have h := issueMv_loads hi (by simp [mvLegal, e1, e7])
    (by simpa [mvReads, mvWrites, e1, e2, e5] using hw) hok (by simp [e1]) (fun _ => by rw [ho]; exact ht) hx
  exact h

theorem dma_issued {q : Fin 8} (ha : MoveAt (s.core n) ab imm 128 64 off) (hw : Ready (s.core n) [32 + ab] []) (hq : ((s.core n).dmaq.getD q []).length < 16) :
    IssuedMove s (s.issueMv n (mvWord 1 ab 0 0 0 q imm.toNat)) n
      (stepped { s.core n with dmaq := (s.core n).dmaq.modify q (· ++ [⟨s.spmLE n off 128, false, 0, [], none⟩]) }) := by
  obtain ⟨e1, e2, -, -, -, e6, e7, e8⟩ := mvWord_fields 1 ab 0 0 0 q imm.toNat (by decide) ab.isLt (by decide) (by decide) (by decide) q.isLt imm.isLt
  obtain ⟨ho, hok⟩ := moveAt_ok ha e2 e8 (by simp [mvExtent, e1])
  rw [← goTo_queueDma]
  have hx := mvEffect_dma s ho (n := n) e1
  rw [e6] at hx
  have h := issueMv_loads hi (by simp [mvLegal, e1, e7])
    (by simpa [mvReads, mvWrites, e1, e2] using hw) hok (fun _ => by rw [e6]; exact hq) (by simp [e1]) hx
  exact h

theorem tsetb_issued {d : Fin 16} (ha : MoveAt (s.core n) ab imm 1 64 off) (hw : Ready (s.core n) [32 + ab] [200 + d]) :
    Issued s (s.issueMv n (mvWord 6 ab 0 0 d 0 imm.toNat)) n
      (stepped ((s.core n).setTile d (((s.core n).tile d).extractLsb' 21 235 ++ BitVec.ofNat 21 off))) := by
  obtain ⟨e1, e2, -, -, e5, -, e7, e8⟩ := mvWord_fields 6 ab 0 0 d 0 imm.toNat (by decide) ab.isLt (by decide) (by decide) d.isLt (by decide) imm.isLt
  obtain ⟨ho, hok⟩ := moveAt_ok ha e2 e8 (by simp [mvExtent, e1])
  obtain ⟨u, hu, hs⟩ := issueMv_steps hi (by simp [mvLegal, e1, e7]) (by simpa [mvReads, mvWrites, e1, e2, e5] using hw) hok (by simp [e1]) (by simp [e1])
  have he : s.mvEffect n (mvWord 6 ab 0 0 d 0 imm.toNat) (s.core n)
      = s.modCore n (·.setTile d (((s.core n).tile d).extractLsb' 21 235 ++ BitVec.ofNat 21 off)) := by
    rw [mvEffect_tsetb s ho e1, e5, ofNat_setBits_base]
  have hf := coreBecomes_modCore s n (·.setTile d (((s.core n).tile d).extractLsb' 21 235 ++ BitVec.ofNat 21 off))
  rw [he, hf.1] at hu
  rw [hs]
  exact (hf.trans hu).issued

theorem st_issued {r : Fin 64} (hr : (r : Nat) < 48) (ha : MoveAt (s.core n) ab imm 8 8 off) (hw : Ready (s.core n) [32 + ab, r] [])
    (hd : s.inDrain (spmAddr n off) 8 = false) :
    IssuedStore s (s.issueMv n (mvWord 9 ab r 0 0 0 imm.toNat)) n (stepped (s.core n)) off 8
      ∧ (s.issueMv n (mvWord 9 ab r 0 0 0 imm.toNat)).spm n off 8 = leBytes 8 ((s.core n).reg r).toNat := by
  obtain ⟨e1, e2, e3, -, -, -, e7, e8⟩ := mvWord_fields 9 ab r 0 0 0 imm.toNat (by decide) ab.isLt r.isLt (by decide) (by decide) (by decide) imm.isLt
  obtain ⟨ho, hok⟩ := moveAt_ok ha e2 e8 (by simp [mvExtent, e1])
  have hx := mvEffect_st s ho (n := n) e1
  rw [e3] at hx
  have h := issueMv_stores hi (by simp [mvLegal, e1, e3, e7, hr])
    (by simpa [mvReads, e1, e2, e3] using hw) hok (by simp [e1]) (by rw [length_leBytes]; exact hd) hx
  rwa [length_leBytes] at h

theorem vst_issued {v : Fin 32} (ha : MoveAt (s.core n) ab imm 8192 64 off) (hw : Ready (s.core n) [32 + ab, 100 + v] [])
    (hd : s.inDrain (spmAddr n off) 8192 = false) :
    IssuedStore s (s.issueMv n (mvWord 3 ab 0 v 0 0 imm.toNat)) n (stepped (s.core n)) off 8192
      ∧ (s.issueMv n (mvWord 3 ab 0 v 0 0 imm.toNat)).spm n off 8192 = (s.core n).vbytes v 0 8192 := by
  obtain ⟨e1, e2, -, e4, -, -, e7, e8⟩ := mvWord_fields 3 ab 0 v 0 0 imm.toNat (by decide) ab.isLt (by decide) v.isLt (by decide) (by decide) imm.isLt
  obtain ⟨ho, hok⟩ := moveAt_ok ha e2 e8 (by simp [mvExtent, e1])
  have hlen : ((s.core n).vbytes v 0 8192).length = 8192 := by rw [CoreS.vbytes, List.length_map, List.length_range]
  have hx := mvEffect_vst s ho (n := n) e1
  rw [e4] at hx
  have h := issueMv_stores hi (by simp [mvLegal, e1, e7])
    (by simpa [mvReads, e1, e2, e4] using hw) hok (by simp [e1]) (by rw [hlen]; exact hd) hx
  rwa [hlen] at h

theorem tst_issued {d : Fin 16} (ha : MoveAt (s.core n) ab imm 32 32 off) (hw : Ready (s.core n) [32 + ab, 200 + d] [])
    (hd : s.inDrain (spmAddr n off) 32 = false) :
    IssuedStore s (s.issueMv n (mvWord 5 ab 0 0 d 0 imm.toNat)) n (stepped (s.core n)) off 32
      ∧ (s.issueMv n (mvWord 5 ab 0 0 d 0 imm.toNat)).spm n off 32 = leBytes 32 ((s.core n).tile d).toNat := by
  obtain ⟨e1, e2, -, -, e5, -, e7, e8⟩ := mvWord_fields 5 ab 0 0 d 0 imm.toNat (by decide) ab.isLt (by decide) (by decide) d.isLt (by decide) imm.isLt
  obtain ⟨ho, hok⟩ := moveAt_ok ha e2 e8 (by simp [mvExtent, e1])
  have hx := mvEffect_tst s ho (n := n) e1
  rw [e5] at hx
  have h := issueMv_stores hi (by simp [mvLegal, e1, e7])
    (by simpa [mvReads, e1, e2, e5] using hw) hok (by simp [e1]) (by rw [length_leBytes]; exact hd) hx
  rwa [length_leBytes] at h

end Ops

end Sys2Proof.Machine

namespace Sys2Proof.Safety

open Sys2Proof.Machine

/-- Settles O4, operation by operation. -/
theorem moveSlotLoads : Obligations.MoveSlotLoads := by
  unfold Obligations.MoveSlotLoads
  intro n ab imm s hi
  exact ⟨⟨_, rfl, moveNop_issued hi⟩, fun off => ⟨fun r hr ha hw => ⟨_, rfl, ld_issued hi hr ha hw⟩, fun v ha hw => ⟨_, rfl, vld_issued hi ha hw⟩,
    fun d ha hw ht => ⟨_, rfl, tld_issued hi ha hw ht⟩, fun d ha hw => ⟨_, rfl, tsetb_issued hi ha hw⟩, fun q ha hw hq => ⟨_, rfl, dma_issued hi ha hw hq⟩⟩⟩

/-- Settles O5, operation by operation. -/
theorem moveSlotStores : Obligations.MoveSlotStores := by
  unfold Obligations.MoveSlotStores
  intro n ab imm s off hi
  exact ⟨fun r hr ha hw hd => ⟨_, rfl, st_issued hi hr ha hw hd⟩, fun v ha hw hd => ⟨_, rfl, vst_issued hi ha hw hd⟩,
    fun d ha hw hd => ⟨_, rfl, tst_issued hi ha hw hd⟩⟩

end Sys2Proof.Safety
end

section
/-! O9: the slots of a bundle read the registers as they stand before any slot writes (R40). -/

namespace Sys2Proof.Machine

open Sys2Proof.Safety

/-! ### A bundle from instruction memory -/

theorem tb_none_of_issues {s : State} {n : Nat} (hi : Issues s n) : (s.core n).tb = none := by
  obtain ⟨h, -⟩ := hi
  unfold State.canIssue at h
  cases hinst : (s.core n).inst with
  | none => simp [hinst] at h
  | some i =>
    simp only [hinst, Bool.and_eq_true, Option.isNone_iff_eq_none] at h
    tauto

/-- A bundle that leaves no tile boundary open only issues. -/
theorem bundleIssue_eq {s : State} {n : Nat} {b : Bundle} (hb : Bundle.ofWord ((s.core n).bundle (s.core n).pc).toNat = b) (ht : (s.core n).tb = none)
    (ht' : ((s.issue n b).core n).tb = none) : s.bundleIssue n = s.issue n b := by
  subst hb
  simp [State.bundleIssue, ht, ht']

/-- A bundle without END and sync slot whose next bundle lies in the region: the move slot, the scalar result, the queues, the PC. -/
theorem issue_steps {s : State} {n : Nat} {b : Bundle} (hi : IssuesHere s n) (hl : b.legal = true) (hw : (s.core n).regWaits b = false)
    (he : s.issueError n b = none) (hy : b.sy = none) (hm : (s.core n).bundleMove b = .next) :
    ∃ u, CoreBecomes (s.moved n b) u n (goTo ((((s.moved n b).core n).wrote (s.bundleResult n b)).enqueue (s.core n) b) ((s.core n).pc + 1) (s.core n).umode)
      ∧ s.issue n b = u.finc (F.cntCbund_N n) 1 := by
  have h := s.issue_effect n b hi.1 hl hw he fun x hx => by rw [hy] at hx; cases hx
  have hE : ∀ x, b.sc = some x → scOp x ≠ 0x3F := fun x hx h => by simp [CoreS.bundleMove, CoreS.pcMove, hx, h] at hm
  obtain ⟨u, hu, hs⟩ := s.issueEffect_steps n b hE (hm ▸ PcMove.apply_next _ _ hi.2)
  refine ⟨u, hu, h.trans (hs.trans ?_)⟩
  unfold State.synced
  rw [hy]

/-! ### Two slots that write one register (R40, R42) -/

theorem Bundle.illegal_of_writes {b : Bundle} (h : ¬ b.writes.Nodup) : b.legal = false := by
  have h' : decide b.writes.Nodup = false := decide_eq_false h
  unfold Bundle.writes at h'
  simp [Bundle.legal, h']

/-! ### A queued operation and the registers of its bundle -/

theorem tile_setTile_self (c : CoreS) (i : Nat) (v : BitVec 256) : (c.setTile i v).tile i = v := Sparse.getD_setD_self _ _ _ _

theorem tile_setTile_ne (c : CoreS) {i j : Nat} (v : BitVec 256) (h : j ≠ i) : (c.setTile i v).tile j = c.tile j := Sparse.getD_setD_ne _ _ _ h

theorem setRegVal_tile (c : CoreS) (i v : Nat) : c.setRegVal (200 + i) v = c.setTile i (BitVec.ofNat 256 v) := by
  simp [CoreS.setRegVal, show ¬ 200 + i < 100 by omega]

theorem regVal_tile (c : CoreS) (i : Nat) : c.regVal (200 + i) = (c.tile i).toNat := by
  simp [CoreS.regVal, show ¬ 200 + i < 100 by omega]

/-- A matrix operation sees the tiles it reads as they stood before the tile that its bundle sets (R40). -/
theorem tile_seenBy_kept {c d : CoreS} {b : Bundle} {m pc i : Nat} {x : Nat} {reads : List Nat} (hb : b.writes = [200 + m])
    (hd : ∀ j, j ≠ m → d.tile j = c.tile j) (hi : 200 + i ∈ reads) : (d.seenBy ⟨x, pc, c.kept b reads []⟩).tile i = c.tile i := by
  unfold CoreS.seenBy CoreS.kept
  by_cases h : i = m
  · subst h
    simp [hb, hi, setRegVal_tile, regVal_tile, tile_setTile_self]
  · by_cases hm : 200 + m ∈ reads
    · simp [hb, hm, setRegVal_tile, tile_setTile_ne _ _ h, hd i h]
    · simp [hb, hm, hd i h]

/-! ### The three bundles of the statement -/

section Bundles

variable {s : State} {n : Fin 384}

/-- The registers an operation of the matrix queue may read. -/
def mxSees (x : Nat) : List Nat := mxReads x ++ (if mxOp x = 5 || mxOp x = 6 then (List.range 16).map (200 + ·) else [])

theorem enqueue_mx {c c0 : CoreS} {b : Bundle} {x : Nat} (hx : b.mx = some x) (hv : b.vc = none) (ho : mxOp x ≠ 0) :
    c.enqueue c0 b = { c with mq := c.mq ++ [⟨x, c0.pc, c0.kept b (mxSees x) []⟩] } := by
  simp [CoreS.enqueue, hx, hv, ho, mxSees]

theorem enqueue_none {c c0 : CoreS} {b : Bundle} (hx : b.mx = none) (hv : b.vc = none) : c.enqueue c0 b = c := by
  simp [CoreS.enqueue, hx, hv]

/-- A good address is an offset of the scratchpad. -/
theorem mvAddr_toNat {c : CoreS} {x : Nat} (ha : c.mvAddrOk x = true) (h0 : mvOp x ≠ 0) : c.mvAddr x = ((c.mvAddr x).toNat : Int) := by
  simp only [CoreS.mvAddrOk, Bool.and_eq_true, decide_eq_true_eq, Bool.or_eq_true] at ha
  omega

@[simp] theorem setReg_tb (c : CoreS) (i : Nat) (v : Word) : (c.setReg i v).tb = c.tb := by unfold CoreS.setReg; split <;> rfl

/-- A TSETB beside a matrix operation. -/
theorem tsetb_matrix_issued {mv mx : Nat} (hi : IssuesHere s n) (hl : Bundle.legal ⟨none, some mv, some mx, none, none, false⟩ = true)
    (hr : Ready (s.core n) (Bundle.reads ⟨none, some mv, some mx, none, none, false⟩) (Bundle.writes ⟨none, some mv, some mx, none, none, false⟩))
    (hq : (s.core n).mq.length < 16) (h6 : mvOp mv = 6) (ha : (s.core n).mvAddrOk mv = true) (h0 : mxOp mx ≠ 0)
    (hg : ∀ i ∈ mxTiles mx, (Tile.ofBits ((s.core n).tile i).toNat).addrOk = true) :
    Issued s (s.issue n ⟨none, some mv, some mx, none, none, false⟩) n
      (stepped { (s.core n).setTile (mvT mv) (((s.core n).tile (mvT mv)).extractLsb' 21 235 ++ BitVec.ofNat 21 ((s.core n).mvAddr mv).toNat) with
        mq := (s.core n).mq ++ [⟨mx, (s.core n).pc, (s.core n).kept ⟨none, some mv, some mx, none, none, false⟩ (mxSees mx) []⟩] }) := by
  generalize hb : (⟨none, some mv, some mx, none, none, false⟩ : Bundle) = b at *
  have hw : (s.core n).regWaits b = false := by
    subst hb
    exact CoreS.regWaits_false _ _ hr (fun _ _ => .inr hq) (fun _ h => nomatch h) fun y hy h1 => by
      rw [← Option.some.inj hy, h6] at h1; cases h1
  have he : s.issueError n b = none := by
    subst hb
    simp only [State.issueError, ha, h6, List.all_eq_true.mpr hg]
    rfl
  obtain ⟨u, hu, hs⟩ := issue_steps hi hl hw he (by rw [← hb]) (by rw [← hb]; rfl)
  have ho : (s.core n).mvAddr mv = (((s.core n).mvAddr mv).toNat : Int) := mvAddr_toNat ha (by omega)
  have hm : s.moved n b = s.modCore n (·.setTile (mvT mv) (((s.core n).tile (mvT mv)).extractLsb' 21 235 ++ BitVec.ofNat 21 ((s.core n).mvAddr mv).toNat)) := by
    rw [← ofNat_setBits_base, ← mvEffect_tsetb s ho h6, ← hb]
    rfl
  have hf := coreBecomes_modCore s n (·.setTile (mvT mv) (((s.core n).tile (mvT mv)).extractLsb' 21 235 ++ BitVec.ofNat 21 ((s.core n).mvAddr mv).toNat))
  have hres : s.bundleResult n b = none := by rw [← hb]; rfl
  rw [hm, hf.1, hres, enqueue_mx (x := mx) (by rw [← hb]) (by rw [← hb]) h0] at hu
  rw [hs]
  exact (hf.trans hu).issued

/-- A scalar operation beside an LD. -/
theorem ld_scalar_issued {sc mv r : Nat} {v : Word} (hi : IssuesHere s n) (hl : Bundle.legal ⟨some sc, some mv, none, none, none, false⟩ = true)
    (hr : Ready (s.core n) (Bundle.reads ⟨some sc, some mv, none, none, none, false⟩) (Bundle.writes ⟨some sc, some mv, none, none, none, false⟩))
    (hv : s.scResult n sc = some (r, v)) (hm : (s.core n).pcMove sc = .next) (h8 : mvOp mv = 8) (ha : (s.core n).mvAddrOk mv = true) :
    IssuedMove s (s.issue n ⟨some sc, some mv, none, none, none, false⟩) n
      (stepped (((s.core n).setReg (mvR mv) (BitVec.ofNat 64 (s.spmLE n ((s.core n).mvAddr mv).toNat 8))).setReg r v)) := by
  generalize hb : (⟨some sc, some mv, none, none, none, false⟩ : Bundle) = b at *
  have hw : (s.core n).regWaits b = false := by
    subst hb
    exact CoreS.regWaits_false _ _ hr (fun _ h => nomatch h) (fun _ h => nomatch h) fun y hy h1 => by
      rw [← Option.some.inj hy, h8] at h1; cases h1
  have he : s.issueError n b = none := by
    subst hb
    simp [State.issueError, ha, h8, hm, PcMove.outside]
  obtain ⟨u, hu, hs⟩ := issue_steps hi hl hw he (by rw [← hb]) (by rw [← hb]; exact hm)
  have ho : (s.core n).mvAddr mv = (((s.core n).mvAddr mv).toNat : Int) := mvAddr_toNat ha (by omega)
  have hmv : s.moved n b = (s.bankLines n 5 ((s.core n).mvAddr mv).toNat 8).modCore n
      (·.setReg (mvR mv) (BitVec.ofNat 64 (s.spmLE n ((s.core n).mvAddr mv).toNat 8))) := by
    rw [← mvEffect_ld s ho h8, ← hb]
    rfl
  have hf := (coreBecomes_modCore (s.bankLines n 5 ((s.core n).mvAddr mv).toNat 8) n
    (·.setReg (mvR mv) (BitVec.ofNat 64 (s.spmLE n ((s.core n).mvAddr mv).toNat 8)))).1
  rw [core_bankLines] at hf
  have hres : s.bundleResult n b = some (r, v) := by rw [← hb]; exact hv
  rw [hmv, hf, hres, enqueue_none (by rw [← hb]) (by rw [← hb])] at hu
  rw [hs, ← goTo_next (c := s.core n) (by simp) (by simp)]
  exact issuedMove_of_banks hu

end Bundles

end Sys2Proof.Machine

namespace Sys2Proof.Safety

open Sys2Proof.Machine

theorem stepped_tb (c : CoreS) : (stepped c).tb = c.tb := rfl

/-- Settles O9: the bundle with a register written twice, the TSETB beside a matrix operation, the LD beside a scalar operation. -/
theorem bundleSlotsReadBeforeTheyWrite : Obligations.BundleSlotsReadBeforeTheyWrite := by
  unfold Obligations.BundleSlotsReadBeforeTheyWrite
  refine ⟨?_, ?_, ?_⟩
  · intro n s i hi hinst hst hv hnd
    have he := State.issue_illegal hi (Bundle.illegal_of_writes hnd)
    obtain ⟨e1, -⟩ := s.progError_ends n 1 hinst
    refine ⟨s.progError n 1, congrArg Host.Outcome.next ((bundleIssue_eq rfl (tb_none_of_issues hi) ?_).trans he), illegal_ends hinst hst hv⟩
    rw [he, e1]
    rfl
  · intro n s mv mx hi htb b hb hl hr hq h6 ha h0 hg
    rw [hb] at hl hr
    obtain ⟨hc, -⟩ := tsetb_matrix_issued hi hl hr hq h6 ha h0 hg
    have hwr : Bundle.writes ⟨none, some mv, some mx, none, none, false⟩ = [200 + mvT mv] := by simp [Bundle.writes, Bundle.slots, mvWrites, h6]
    refine ⟨_, _, congrArg Host.Outcome.next (bundleIssue_eq hb htb (by rw [hc]; exact htb)), by rw [hc]; rfl, rfl, rfl, ?_, fun i _ hi => ?_⟩
    · rw [hc]
      exact tile_setTile_self _ _ _
    · rw [hc]
      exact tile_seenBy_kept hwr (fun j hj => tile_setTile_ne (s.core n) _ hj) (List.mem_append_left _ hi)
  · intro n s sc mv r v hi htb b hb hl hr hv hm h8 ha
    rw [hb] at hl hr
    have h := ld_scalar_issued hi hl hr hv hm h8 ha
    refine ⟨_, congrArg Host.Outcome.next (bundleIssue_eq hb htb ?_), h⟩
    obtain ⟨⟨hc, -⟩, -⟩ := h
    have hc' := congrArg CoreS.tb hc
    rw [stepped_tb, setReg_tb, setReg_tb, htb] at hc'
    exact hc'

end Sys2Proof.Safety
end

section
/-! O10: the head of the command queue, and the engines as they finish (R57, R80-R83, R102, R156). -/

namespace Sys2Proof.Machine

open Sys2Proof.Safety

/-! ### Reads of a scratchpad -/

theorem State.getBytes_modCore (s : State) (n : Nat) (f : CoreS → CoreS) (a len : Nat) : (s.modCore n f).getBytes a len = s.getBytes a len := rfl

theorem spmLE_modCore (s : State) (n : Nat) (f : CoreS → CoreS) (m off len : Nat) : (s.modCore n f).spmLE m off len = s.spmLE m off len := by
  unfold State.spmLE State.spm
  rw [State.getBytes_modCore]

theorem tileElem_modCore (s : State) (n : Nat) (f : CoreS → CoreS) (m : Nat) (t : Tile) (i j : Nat) :
    (s.modCore n f).tileElem m t i j = s.tileElem m t i j := by
  simp only [State.tileElem, spmLE_modCore]

theorem readCfg_modCore (s : State) (n : Nat) (f : CoreS → CoreS) (m w : Nat) : (s.modCore n f).readCfg m w = s.readCfg m w := by
  simp only [State.readCfg, spmLE_modCore]

/-! ### A map filled entry by entry -/

theorem Sparse.getD_foldl_setD_ne {β : Type} [DecidableEq β] (d : Nat → β) (key : Nat → Nat) (v : Nat → β) (k : Nat) (l : List Nat) (m : Sparse β)
    (h : ∀ i ∈ l, key i ≠ k) : Sparse.getD d (l.foldl (fun m i => Sparse.setD d m (key i) (v i)) m) k = Sparse.getD d m k := by
  refine List.foldlRecOn (motive := fun t => Sparse.getD d t k = Sparse.getD d m k) l _ rfl fun t ht i hi => ?_
  rw [Sparse.getD_setD_ne d t (v i) (h i hi).symm, ht]

/-- Entries of distinct keys each hold their value. -/
theorem Sparse.getD_foldl_setD {β : Type} [DecidableEq β] (d : Nat → β) (key : Nat → Nat) (v : Nat → β) {N i : Nat} (m : Sparse β) (hi : i < N)
    (hk : ∀ j < N, key j = key i → j = i) : Sparse.getD d ((List.range N).foldl (fun m i => Sparse.setD d m (key i) (v i)) m) (key i) = v i := by
  induction N with
  | zero => cases hi
  | succ N ih =>
    rw [List.range_succ, List.foldl_append, List.foldl_cons, List.foldl_nil, Sparse.getD_setD]
    by_cases h : i = N
    · rw [h, if_pos rfl]
    · rw [if_neg fun e => h (hk N (Nat.lt_succ_self N) e.symm).symm]
      exact ih (by omega) fun j hj => hk j (by omega)

/-! ### The head of the command queue -/

section Head

variable {s : State} {n : Fin 384} {op : Nat} {q : QCmd} {rest : List QCmd}

theorem mxHead_eq (h : MxHead s n op q rest) : s.mxHead n op = some q := by
  obtain ⟨hq, ho, hi, hf, hu⟩ := h
  simp [State.mxHead, hq, ho, hi, hf, hu]

theorem mxPop_becomes (h : MxHead s n op q rest) : CoreBecomes s (s.mxPop n) n { s.core n with mq := rest } := by
  have hc := coreBecomes_modCore s n fun c => { c with mq := c.mq.tail }
  rw [h.1] at hc
  exact hc

theorem setReg_mq (c : CoreS) (m : List QCmd) (i : Nat) (v : Word) : CoreS.setReg { c with mq := m } i v = { c.setReg i v with mq := m } := by
  unfold CoreS.setReg
  split <;> rfl

theorem setVbytes_mq (c : CoreS) (m : List QCmd) (v o : Nat) (b : Bytes) : CoreS.setVbytes { c with mq := m } v o b = { c.setVbytes v o b with mq := m } := rfl

theorem setTile_mq (c : CoreS) (m : List QCmd) (i : Nat) (v : BitVec 256) : CoreS.setTile { c with mq := m } i v = { c.setTile i v with mq := m } := rfl

theorem setRegVal_mq (c : CoreS) (m : List QCmd) (r v : Nat) : CoreS.setRegVal { c with mq := m } r v = { c.setRegVal r v with mq := m } := by
  unfold CoreS.setRegVal
  rw [setReg_mq, setVbytes_mq, setTile_mq]
  split_ifs <;> rfl

/-- What a queued operation reads does not depend on the queue. -/
theorem seenBy_mq (c : CoreS) (m : List QCmd) (q : QCmd) : CoreS.seenBy { c with mq := m } q = { c.seenBy q with mq := m } := by
  unfold CoreS.seenBy
  induction q.was generalizing c with
  | nil => rfl
  | cons e l ih => rw [List.foldl_cons, List.foldl_cons, setRegVal_mq, ih]

theorem tileOf_mxPop (h : MxHead s n op q rest) (i : Nat) : tileOf (s.mxPop n) n q i = tileOf s n q i := by
  unfold tileOf
  rw [(mxPop_becomes h).1, seenBy_mq]
  rfl

theorem mcfg_becomes (h : MxHead s n 1 q rest) (ha : (tileOf s n q (mxTa q.slot)).base % 64 = 0) (hb : (tileOf s n q (mxTa q.slot)).base + 128 ≤ 0x200000)
    (hl : cfgLegal (s.spmLE n (tileOf s n q (mxTa q.slot)).base 128) = true) :
    CoreBecomes s (s.mcfg n) n { s.core n with mq := rest, mcfg := s.readCfg n (s.spmLE n (tileOf s n q (mxTa q.slot)).base 128), cfgSeen := true } := by
  have ht : Tile.ofBits ((((s.mxPop n).core n).seenBy q).tile (mxTa q.slot)).toNat = tileOf s n q (mxTa q.slot) := tileOf_mxPop h _
  have hw : (s.mxPop n).spmLE n (tileOf s n q (mxTa q.slot)).base 128 = s.spmLE n (tileOf s n q (mxTa q.slot)).base 128 := spmLE_modCore ..
  have hr : (s.mxPop n).readCfg n = s.readCfg n := funext fun w => readCfg_modCore ..
  have hn : ¬ ((tileOf s n q (mxTa q.slot)).base % 64 ≠ 0 ∨ 0x200000 < (tileOf s n q (mxTa q.slot)).base + 128) := by omega
  have he : s.mcfg n = (s.mxPop n).modCore n fun c => { c with mcfg := s.readCfg n (s.spmLE n (tileOf s n q (mxTa q.slot)).base 128), cfgSeen := true } := by
    unfold State.mcfg
    rw [mxHead_eq h]
    simp only [ht, if_neg hn, hw, hl, if_true, hr]
  rw [he]
  exact (mxPop_becomes h).mod _

theorem mswap_becomes (h : MxHead s n 3 q rest) (hl : (s.core n).ldBusy = false) (hs : (s.core n).stBusy = false) (hi : (s.core n).inact.st ≠ 0) :
    CoreBecomes s (s.mswap n) n { s.core n with mq := rest, act := (s.core n).inact, inact := .empty } := by
  have he : s.mswap n = (s.mxPop n).modCore n fun c => { c with act := c.inact, inact := .empty } := by
    unfold State.mswap
    rw [mxHead_eq h]
    simp [hl, hs, hi]
  rw [he]
  exact (mxPop_becomes h).mod _

/-! ### MLOAD -/

/-- Rows of lines that move are granted by the banks of their core alone. -/
theorem foldl_bankLines_banks (s : State) (n : Fin 384) (r : Nat) (off len : Nat → Nat) (l : List Nat) :
    (∃ a, l.foldl (fun s i => s.bankLines n r (off i) (len i)) s = { s with arbs := a }) ∧ BanksOnly s (l.foldl (fun s i => s.bankLines n r (off i) (len i)) s) n := by
  refine List.foldlRecOn (motive := fun t => (∃ a, t = { s with arbs := a }) ∧ BanksOnly s t n) l _ ⟨⟨_, rfl⟩, fun _ _ _ => rfl⟩ ?_
  rintro t ⟨⟨a, rfl⟩, hb⟩ i -
  obtain ⟨⟨b, hb'⟩, ho⟩ := State.bankLines_banks { s with arbs := a } n r (off i) (len i)
  exact ⟨⟨b, by rw [hb']⟩, fun ty u hu => (ho ty u hu).trans (hb ty u hu)⟩

/-- The stationary buffer holds the tile's elements, and +0 beyond it (R83). -/
theorem loadTile_elems (s : State) (n : Nat) (t : Tile) (hc : 1 ≤ t.cols) (hc' : t.cols ≤ 64) {p k : Nat} (hk : k < 64) :
    Sparse.getD (fun _ => 0) (s.loadTile n t).elems (p * 64 + k) = if p < t.rows ∧ k < t.cols then s.tileElem n t p k else 0 := by
  have hkey : ∀ i, i % t.cols < 64 := fun i => Nat.lt_of_lt_of_le (Nat.mod_lt _ hc) hc'
  unfold State.loadTile
  dsimp only
  split
  · rename_i h
    obtain ⟨hp, hk'⟩ := h
    have hd : (p * t.cols + k) / t.cols = p := by
      rw [Nat.add_comm, Nat.add_mul_div_right _ _ hc, Nat.div_eq_of_lt hk', Nat.zero_add]
    have hm : (p * t.cols + k) % t.cols = k := by
      rw [Nat.add_comm, Nat.add_mul_mod_self_right, Nat.mod_eq_of_lt hk']
    have hi : p * t.cols + k < t.rows * t.cols := by
      have := Nat.mul_le_mul_right t.cols (show p + 1 ≤ t.rows from hp)
      rw [Nat.add_mul] at this
      omega
    have h := Sparse.getD_foldl_setD (fun _ => 0) (fun i => i / t.cols * 64 + i % t.cols) (fun i => s.tileElem n t (i / t.cols) (i % t.cols)) [] hi
      fun j _ hj => by
        rw [hd, hm] at hj
        have hj' := hkey j
        have h1 : j / t.cols = p := by omega
        have h2 : j % t.cols = k := by omega
        rw [← Nat.div_add_mod j t.cols, h1, h2, Nat.mul_comm]
    rwa [hd, hm] at h
  · rename_i h
    refine Sparse.getD_foldl_setD_ne (fun _ => 0) (fun i => i / t.cols * 64 + i % t.cols) (fun i => s.tileElem n t (i / t.cols) (i % t.cols)) _ _ []
      fun i hi e => h ?_
    have hi' := hkey i
    have h1 : i / t.cols = p := by omega
    have h2 : i % t.cols = k := by omega
    rw [← h1, ← h2]
    exact ⟨Nat.div_lt_of_lt_mul (Nat.mul_comm t.cols t.rows ▸ List.mem_range.mp hi), Nat.mod_lt _ hc⟩

/-- The lines that the load of a tile moves. -/
def State.tileLines (s : State) (n : Nat) (t : Tile) : State :=
  let s := (List.range t.rows).foldl (fun s i => s.bankLines n 1 (t.rowOff i) t.rowBytes) s
  if isMX t.fmt then s.bankLines n 1 t.scaleBase (t.scaleLen true) else s

theorem tileLines_banks (s : State) (n : Fin 384) (t : Tile) : ∃ a, s.tileLines n t = { s with arbs := a } ∧ BanksOnly s (s.tileLines n t) n := by
  obtain ⟨⟨a, h⟩, ho⟩ := foldl_bankLines_banks s n 1 t.rowOff (fun _ => t.rowBytes) (List.range t.rows)
  unfold State.tileLines
  dsimp only
  rw [h] at ho ⊢
  split
  · obtain ⟨⟨b, h'⟩, ho'⟩ := State.bankLines_banks { s with arbs := a } n 1 t.scaleBase (t.scaleLen true)
    exact ⟨b, by rw [h'], fun ty u hu => (ho' ty u hu).trans (ho ty u hu)⟩
  · exact ⟨a, rfl, ho⟩

theorem cols_of_mloadError {t : Tile} (h : mloadError t = none) : t.cols ≤ 64 := by
  by_contra hc
  have : 128 * prodPerCell t.fmt < t.rows ∨ 64 < t.cols ∨ (isMX t.fmt = true ∧ t.rows % 32 ≠ 0) := .inr (.inl (Nat.lt_of_not_le hc))
  unfold mloadError at h
  rw [if_pos this] at h
  split at h <;> cases h

theorem mload_loads (h : MxHead s n 2 q rest) (hl : (s.core n).ldBusy = false) (hs : (s.core n).cfgSeen = true)
    (he : mloadError (tileOf s n q (mxTb q.slot)) = none) :
    CoreBecomes s { s.mload n with arbs := s.arbs } n
        { s.core n with mq := rest, inact := (s.mxPop n).loadTile n (tileOf s n q (mxTb q.slot)), ldBusy := true }
      ∧ BanksOnly s (s.mload n) n := by
  obtain ⟨a, hb, hbo⟩ := tileLines_banks (s.mxPop n) n (tileOf s n q (mxTb q.slot))
  have hm : s.mload n = ((s.mxPop n).tileLines n (tileOf s n q (mxTb q.slot))).modCore n
      fun c => { c with inact := (s.mxPop n).loadTile n (tileOf s n q (mxTb q.slot)), ldBusy := true } := by
    unfold State.mload
    rw [mxHead_eq h]
    unfold tileOf at he ⊢
    simp only [hl, hs, he, Bool.not_true, Bool.false_eq_true, if_false]
    rfl
  have hp := mxPop_becomes h
  have hc := (coreBecomes_modCore ((s.mxPop n).tileLines n (tileOf s n q (mxTb q.slot))) n
    fun c => { c with inact := (s.mxPop n).loadTile n (tileOf s n q (mxTb q.slot)), ldBusy := true })
  rw [← hm] at hc
  have harb := coreBecomes_arbs hc
  rw [hb] at hc
  refine ⟨?_, banksOnly_of_arbs (fun ty u hu => (hbo ty u hu).trans rfl) harb⟩
  have hc' := coreBecomes_of_arbs hc
  have hx : ({ s.mxPop n with arbs := a } : State).core n = { s.core n with mq := rest } := hp.1
  rw [hx] at hc'
  exact hp.trans hc'

/-- An engine that finishes steps its event counter and frees its unit (R57, R102). -/
theorem mloadDone_becomes (h : (s.core n).ldBusy = true) :
    CoreBecomes s (s.mloadDone n) n { (s.core n).setEv 63 ((s.core n).evc 63 + 1) with ldBusy := false, inact := { (s.core n).inact with st := 2 } } := by
  unfold State.mloadDone
  rw [if_pos h]
  exact coreBecomes_modCore s n _

theorem mstreamDone_becomes (h : (s.core n).stBusy = true) :
    CoreBecomes s (s.mstreamDone n) n { (s.core n).setEv 62 ((s.core n).evc 62 + 1) with stBusy := false } := by
  unfold State.mstreamDone
  rw [if_pos h]
  exact coreBecomes_modCore s n _

theorem drainDone_becomes (h : (s.core n).drBusy = true) :
    CoreBecomes s (s.drainDone n) n { (s.core n).setEv 61 ((s.core n).evc 61 + 1) with drBusy := false, drParts := [] } := by
  unfold State.drainDone
  rw [if_pos h]
  exact coreBecomes_modCore s n _

/-- A vector operation that finishes counts in VXE_PERF and, under SIG, in ev60 (R57, R156). -/
theorem vfinish_becomes {v : VRun} {rest : List VRun} (h : (s.core n).vrun = v :: rest) :
    let t := s.vfinish n
    t.core n = (if v.sig then { (s.core n).setEv 60 ((s.core n).evc 60 + 1) with vrun := rest } else { s.core n with vrun := rest })
      ∧ CoresBut s t n ∧ RegsBut s t [(Reg.vxePerf n).off] ∧ { t with cores := s.cores, regs := s.regs } = s := by
  have he : s.vfinish n = (s.fsat (F.vxePerf_OPS n) 1).setCore n (if v.sig then CoreS.incEv { s.core n with vrun := rest } 60 1 else { s.core n with vrun := rest }) := by
    unfold State.vfinish
    simp only [h]
  rw [he]
  exact ⟨State.core_setCore_self _ _ _, fun m hm => State.core_setCore_ne _ _ hm, regsBut_fsat s (F.vxePerf_OPS n) 1, rfl⟩

/-- A NOP of an engine only issues. -/
theorem engineNop_issued {b : Bundle} (hi : IssuesHere s n) (hb : b = { Bundle.empty with mx := some 0 } ∨ b = { Bundle.empty with vc := some 0 }) :
    Issued s (s.issue n b) n (stepped (s.core n)) := by
  have hw : (s.core n).regWaits b = false := by
    rcases hb with rfl | rfl
    · exact CoreS.regWaits_false _ _ ⟨fun _ h => (nomatch h), fun _ h => (nomatch h)⟩ (fun y hy => Option.some.inj hy ▸ .inl rfl) (fun _ h => nomatch h) fun _ h => nomatch h
    · exact CoreS.regWaits_false _ _ ⟨fun _ h => (nomatch h), fun _ h => (nomatch h)⟩ (fun _ h => nomatch h) (fun y hy => Option.some.inj hy ▸ .inl rfl) fun _ h => nomatch h
  have hl : b.legal = true := by rcases hb with rfl | rfl <;> rfl
  have he : s.issueError n b = none := by rcases hb with rfl | rfl <;> rfl
  obtain ⟨u, hu, hs⟩ := issue_steps hi hl hw he (by rcases hb with rfl | rfl <;> rfl) (by rcases hb with rfl | rfl <;> rfl)
  have hm : s.moved n b = s := by rcases hb with rfl | rfl <;> rfl
  have hq : (((s.moved n b).core n).wrote (s.bundleResult n b)).enqueue (s.core n) b = s.core n := by rw [hm]; rcases hb with rfl | rfl <;> rfl
  rw [hq, hm] at hu
  rw [hs]
  exact hu.issued

end Head

end Sys2Proof.Machine

namespace Sys2Proof.Safety

open Sys2Proof.Machine

/-- Settles O10: each command at the head of the queue, then each engine as it finishes. -/
theorem enginesLoadAndFinish : Obligations.EnginesLoadAndFinish := by
  unfold Obligations.EnginesLoadAndFinish
  refine ⟨fun n s q rest => ⟨fun hi => ⟨_, rfl, engineNop_issued hi (.inl rfl)⟩, fun h ha hb hl => ⟨_, rfl, mcfg_becomes h ha hb hl⟩,
    fun h hl hs he => ?_, fun h hl hs hi => ⟨_, rfl, mswap_becomes h hl hs hi⟩⟩,
    fun n s => ⟨fun h => ⟨_, rfl, mloadDone_becomes h⟩, fun h => ⟨_, rfl, mstreamDone_becomes h⟩, fun h => ⟨_, rfl, drainDone_becomes h⟩,
      fun v rest h => ⟨_, rfl, vfinish_becomes h⟩, fun hi => ⟨_, rfl, engineNop_issued hi (.inr rfl)⟩⟩⟩
  obtain ⟨h1, h2⟩ := mload_loads h hl hs he
  refine ⟨_, _, rfl, h1, h2, rfl, rfl, rfl, fun p k _ hk => ?_⟩
  have hc : 1 ≤ (tileOf s n q (mxTb q.slot)).cols := Nat.le_add_left _ _
  rw [loadTile_elems _ _ _ hc (cols_of_mloadError he) hk]
  unfold State.mxPop
  rw [tileElem_modCore]

end Sys2Proof.Safety
end

section
/-! O19: a descriptor completes, gives its generator up, or ends its instance (R54, R55, R341). -/

namespace Sys2Proof.Machine

open Sys2Proof.Safety

/-! ### Generators that take waiting heads (R341) -/

/-- A decision writes the arbiter and MAXWAIT. -/
theorem State.arbitrate_frame (s : State) (d t u : Nat) (as : List Nat) (served : Option Nat) :
    RegsBut s (s.arbitrate d t u as served).2 [(Reg.arbMaxwait d t).off] ∧ ∃ r a, (s.arbitrate d t u as served).2 = { s with regs := r, arbs := a } := by
  unfold State.arbitrate
  dsimp only
  split
  · exact ⟨RegsBut.refl _ _, _, _, rfl⟩
  · split
    · exact ⟨RegsBut.trans (RegsBut.of_regs_eq _ rfl) (regsBut_fset _ (F.arbMaxwait_MAXWAIT d t) _), _, _, rfl⟩
    · exact ⟨RegsBut.of_regs_eq _ rfl, _, _, rfl⟩

/-- Nobody asks, nobody wins. -/
theorem State.arbitrate_nil (s : State) (d t u : Nat) : s.arbitrate d t u [] none = (none, s) := by
  have hw : (s.arb t u).winner (arbN t) (s.clsOf d t) [] none = none := by simp [Arb.winner]
  unfold State.arbitrate
  simp only [hw]

/-- Generators have taken heads: from `s` to `t` only which generators serve, the arbiter and MAXWAIT have changed. -/
def Taken (s t : State) (n : Nat) : Prop :=
  (∃ g, t.core n = { s.core n with gens := g }) ∧ CoresBut s t n ∧ t.mem = s.mem ∧ RegsBut s t [(Reg.arbMaxwait (dieOfCore n) 1).off]

theorem State.takeHead_taken (s : State) (n g : Nat) : Taken s (s.takeHead n g) n := by
  obtain ⟨hr, r, a, he⟩ := s.arbitrate_frame (dieOfCore n) 1 n (s.core n).waitingHeads none
  unfold State.takeHead
  dsimp only
  rcases h : s.arbitrate (dieOfCore n) 1 n (s.core n).waitingHeads none with ⟨w, t⟩
  rw [h] at hr he
  simp only at hr he
  have hc : ∀ m, t.core m = s.core m := fun m => by rw [he]; rfl
  have hm : t.mem = s.mem := by rw [he]
  cases w with
  | none => exact ⟨⟨_, hc n⟩, fun m _ => hc m, hm, hr⟩
  | some q => exact ⟨⟨_, (State.core_modCore_self _ _ _).trans (by rw [hc])⟩, fun m h => (State.core_modCore_ne _ _ h).trans (hc m), hm, hr⟩

theorem Taken.refl (s : State) (n : Nat) : Taken s s n := ⟨⟨_, rfl⟩, fun _ _ => rfl, rfl, RegsBut.refl _ _⟩

theorem Taken.trans {s t u : State} {n : Nat} (h : Taken s t n) (h' : Taken t u n) : Taken s u n := by
  obtain ⟨⟨g, h1⟩, h2, h3, h4⟩ := h
  obtain ⟨⟨g', h1'⟩, h2', h3', h4'⟩ := h'
  exact ⟨⟨g', by rw [h1', h1]⟩, fun m hm => (h2' m hm).trans (h2 m hm), h3'.trans h3, h4.trans h4'⟩

theorem State.fillGens_taken (s : State) (n : Nat) : Taken s (s.fillGens n) n := by
  unfold State.fillGens
  refine List.foldlRecOn (motive := fun t => Taken s t n) [0, 1] _ (Taken.refl s n) fun t ht g _ => ?_
  split
  · exact ht.trans (t.takeHead_taken n g)
  · exact ht

/-- No head waits: the free generators stay free. -/
theorem State.fillGens_eq {s : State} {n : Nat} (h : (s.core n).waitingHeads = []) : s.fillGens n = s := by
  have ht : ∀ g, s.takeHead n g = s := fun g => by
    unfold State.takeHead
    simp only [h, State.arbitrate_nil]
  unfold State.fillGens
  refine List.foldlRecOn (motive := (· = s)) [0, 1] _ rfl fun t e g _ => ?_
  subst e
  split
  · exact ht g
  · rfl

/-! ### The heads of the queues -/

theorem waitingHeads_nil_iff {c : CoreS} : c.waitingHeads = [] ↔
    ∀ q < 8, ∀ j, c.dmaHead q = some j → j.checked = true → j.done < dTotal j.desc → ∃ g ∈ c.gens, g.queue = some q := by
  unfold CoreS.waitingHeads
  rw [List.filter_eq_nil_iff]
  refine ⟨fun h q hq j hj hc hd => ?_, fun h q hq => ?_⟩
  · have h' := h q (List.mem_range.mpr hq)
    simpa [hj, hc, hd] using h'
  · cases hj : c.dmaHead q with
    | none => simp
    | some j =>
      have h' := h q (List.mem_range.mp hq) j hj
      simpa using h'

/-- A core whose queue `q` has lost its head, and whose generators have left it. -/
def CoreS.dropped (c : CoreS) (q : Nat) : CoreS :=
  { c with dmaq := c.dmaq.modify q List.tail, gens := c.gens.map fun g => if g.queue = some q then ⟨none, 0⟩ else g }

theorem dropHead_becomes (s : State) (n q : Nat) : CoreBecomes s (s.dropHead n q) n ((s.core n).dropped q) :=
  (coreBecomes_modCore s n fun c => { c with dmaq := c.dmaq.modify q List.tail }).mod _

theorem dmaHead_dropped_ne (c : CoreS) {q p : Nat} (h : p ≠ q) : (c.dropped q).dmaHead p = c.dmaHead p := by
  simp [CoreS.dmaHead, CoreS.dropped, List.getD_eq_getElem?_getD, h.symm]

theorem dmaHead_of_queue {c : CoreS} {q : Nat} {j : DmaJob} {js : List DmaJob} (h : c.dmaq[q]? = some (j :: js)) : c.dmaHead q = some j := by
  simp [CoreS.dmaHead, List.getD_eq_getElem?_getD, h]

theorem dmaHead_dropped_last {c : CoreS} {q : Nat} {j : DmaJob} (h : c.dmaq[q]? = some [j]) : (c.dropped q).dmaHead q = none := by
  simp [CoreS.dmaHead, CoreS.dropped, List.getD_eq_getElem?_getD, h]

theorem gens_dropped (c : CoreS) (q : Nat) : ∀ g ∈ (c.dropped q).gens, g.queue ≠ some q := by
  intro g hg
  obtain ⟨g', -, rfl⟩ := List.mem_map.mp hg
  split
  · exact fun h => nomatch h
  · assumption

theorem waitingHeads_dropped {c : CoreS} {q : Nat} {j : DmaJob} (hq : c.dmaq[q]? = some [j]) (h : c.waitingHeads = []) : (c.dropped q).waitingHeads = [] := by
  rw [waitingHeads_nil_iff] at h ⊢
  intro p hp k hk hc hd
  have hne : p ≠ q := fun e => by
    rw [e, dmaHead_dropped_last hq] at hk
    cases hk
  rw [dmaHead_dropped_ne _ hne] at hk
  obtain ⟨g, hg, hgq⟩ := h p hp k hk hc hd
  refine ⟨g, List.mem_map.mpr ⟨g, hg, ?_⟩, hgq⟩
  rw [if_neg]
  rw [hgq]
  exact fun e => hne (Option.some.inj e)

end Sys2Proof.Machine

namespace Sys2Proof.Safety

open Sys2Proof.Machine

section Descriptor

variable {n : Fin 384} {q : Fin 8} {s : State} {i : KInst} {j : DmaJob}

/-- R55: a descriptor all of whose bytes are visible leaves its queue and its generator and steps its event counter. -/
theorem dmaComplete_completes (hinst : (s.core n).inst = some i) (hq : (s.core n).dmaq[q.val]? = some [j]) (hc : j.checked = true)
    (hd : dTotal j.desc ≤ j.done) (hw : (s.core n).waitingHeads = []) :
    let t := s.dmaComplete n q
    (t.core n).dmaHead q = none ∧ (∀ g ∈ (t.core n).gens, g.queue ≠ some q.val)
      ∧ (t.core n).evc (dEv j.desc) = (s.core n).evc (dEv j.desc) + (if dEvEn j.desc then 1 else 0) ∧ t.mem = s.mem ∧ CoresBut s t n := by
  have hdrop := dropHead_becomes s n q
  have hseen := (s.dropHead n q).seen_tailCore n 3 0x31 (dTag j.desc + q * 2 ^ 32)
  have hmem : ((s.dropHead n q).tailCore n 3 0x31 (dTag j.desc + q * 2 ^ 32)).mem = s.mem := hseen.mem
  have hbut : CoresBut s ((s.dropHead n q).tailCore n 3 0x31 (dTag j.desc + q * 2 ^ 32)) n := fun m hm => (hseen.core m).trans (hdrop.2.1 m hm)
  have hcore := (hseen.core n).trans hdrop.1
  have hwd := waitingHeads_dropped hq hw
  unfold State.dmaComplete
  simp only [dmaHead_of_queue hq, hc, hd, hinst, Option.isSome_some, Bool.and_true, decide_true, if_true]
  generalize (s.dropHead n q).tailCore n 3 0x31 (dTag j.desc + q * 2 ^ 32) = u at *
  cases hev : dEvEn j.desc with
  | false =>
    simp only [Bool.false_eq_true, if_false]
    rw [State.fillGens_eq (by rw [hcore]; exact hwd), hcore]
    exact ⟨dmaHead_dropped_last hq, gens_dropped _ _, (BitVec.add_zero _).symm, hmem, hbut⟩
  | true =>
    simp only [if_true]
    have hc' : (u.modCore n (·.incEv (dEv j.desc) 1)).core n = ((s.core n).dropped q).incEv (dEv j.desc) 1 := by rw [State.core_modCore_self, hcore]
    rw [State.fillGens_eq (by rw [hc']; exact hwd), hc']
    exact ⟨dmaHead_dropped_last hq, gens_dropped _ _, Sparse.getD_setD_self _ _ _ _, hmem, fun m hm => (State.core_modCore_ne _ _ hm).trans (hbut m hm)⟩

/-- R341: at a preemption point a generator whose descriptor has moved whole is freed. -/
theorem dmaPreempt_frees {js : List DmaJob} {b : Nat} (hq : (s.core n).dmaq[q.val]? = some (j :: js)) (hg : (s.core n).gens = [⟨some q.val, b⟩, ⟨none, 0⟩])
    (hd : dTotal j.desc ≤ j.done) (hw : (s.core n).waitingHeads = []) :
    let t := s.dmaPreempt n q
    (t.core n).gens = [⟨none, 0⟩, ⟨none, 0⟩] ∧ t.mem = s.mem ∧ CoresBut s t n := by
  have hf := coreBecomes_modCore s n fun c => { c with gens := c.gens.set 0 ⟨none, 0⟩ }
  have hgens : ((s.modCore n fun c => { c with gens := c.gens.set 0 ⟨none, 0⟩ }).core n).gens = [⟨none, 0⟩, ⟨none, 0⟩] := by
    rw [hf.1]
    show (s.core n).gens.set 0 ⟨none, 0⟩ = _
    rw [hg]
    rfl
  have hw' : ((s.modCore n fun c => { c with gens := c.gens.set 0 ⟨none, 0⟩ }).core n).waitingHeads = [] := by
    rw [waitingHeads_nil_iff] at hw ⊢
    rw [hf.1]
    intro p hp k hk hc hkd
    obtain ⟨g, hgm, hgq⟩ := hw p hp k hk hc hkd
    have hpq : p = q := by
      rw [hg] at hgm
      rcases List.mem_cons.mp hgm with rfl | h
      · exact (Option.some.inj hgq).symm
      · rw [List.mem_singleton.mp h] at hgq
        cases hgq
    have hk' : some j = some k := (dmaHead_of_queue hq).symm.trans (hpq ▸ hk)
    rw [Option.some.inj hk'] at hd
    omega
  have he : s.dmaPreempt n q = s.modCore n fun c => { c with gens := c.gens.set 0 ⟨none, 0⟩ } := by
    have hfind : ((List.range 2).find? fun g => ((s.core n).gens.getD g ⟨none, 0⟩).queue = some q.val) = some 0 := by simp [hg, List.range_succ]
    unfold State.dmaPreempt
    simp only [hfind, dmaHead_of_queue hq, hd, if_true]
    exact State.fillGens_eq hw'
  rw [he]
  exact ⟨hgens, rfl, hf.2.1⟩

/-- R54: a refused request ends the instance. -/
theorem dmaRefused_ends {js : List DmaJob} {st : Nat} (hinst : (s.core n).inst = some i) (hq : (s.core n).dmaq[q.val]? = some (j :: js)) (hc : j.checked = true)
    (hst : i.stream < 65536) (hd : j.done < dTotal j.desc) (hm : st ∈ [stOutOfBounds, stDenied, stTimeout, stTargetReset])
    (hv : s.fbit (F.coreErr_VALID n) = false) :
    let t := s.dmaRefused n q st
    (t.core n).inst = none ∧ t.fbit (F.coreErr_VALID n) = true ∧ t.fget (F.coreErr_CODE n) = (if st = stTargetReset then 9 else 4)
      ∧ t.mem = s.mem ∧ CoresBut s t n := by
  have hseen := s.seen_tailCore n 3 0x31 (dTag j.desc + q * 2 ^ 32 + st * 2 ^ 40)
  have hk := coreErr_off_not_lost n
  have hvt := (hseen.1.fget_eq (f := F.coreErr_VALID n) hk)
  have he : s.dmaRefused n q st = ((((s.tailCore n 3 0x31 (dTag j.desc + q * 2 ^ 32 + st * 2 ^ 40)).dropHead n q).progError n
      (if st = stTargetReset then 9 else 4)).fillGens n) := by
    have hp : st ≠ stPoison := by simp only [List.mem_cons, List.not_mem_nil, or_false, stOutOfBounds, stDenied, stTimeout, stTargetReset, stPoison] at hm ⊢; omega
    have hl : [stOutOfBounds, stDenied, stTimeout, stPoison, stTargetReset].contains st = true := by
      simp only [List.mem_cons, List.not_mem_nil, or_false] at hm
      simp only [List.contains_iff_mem, List.mem_cons, List.not_mem_nil, or_false]
      tauto
    unfold State.dmaRefused
    simp only [dmaHead_of_queue hq, hc, hd, hl, decide_true, Bool.and_self, if_true]
    unfold State.headRefused State.requestRefused
    rw [if_neg hp]
    split <;> rfl
  rw [he]
  generalize s.tailCore n 3 0x31 (dTag j.desc + q * 2 ^ 32 + st * 2 ^ 40) = u at *
  have hdrop := dropHead_becomes u n q
  have hi : ((u.dropHead n q).core n).inst = some i := by
    rw [hdrop.1, hseen.core]
    exact hinst
  have hv' : (u.dropHead n q).fbit (F.coreErr_VALID n) = false := by
    rw [← hv]
    unfold State.fbit
    rw [← hvt]
    rfl
  generalize hcode : (if st = stTargetReset then 9 else 4) = code
  have hcode' : code < 256 := by rw [← hcode]; split <;> decide
  obtain ⟨p1, p2, p3⟩ := (u.dropHead n q).progError_ends n code hi
  obtain ⟨p4, p5⟩ := (u.dropHead n q).progError_coreErr n code hi hst hcode' hv'
  obtain ⟨⟨g, t1⟩, t2, t3, t4⟩ := ((u.dropHead n q).progError n code).fillGens_taken n
  have hmax : (Reg.coreErr n).off ∉ [(Reg.arbMaxwait (dieOfCore n) 1).off] := by
    have hn := n.isLt
    simp only [List.mem_singleton, Reg.off, dieOfCore]
    omega
  have hVALID := (t4.fget_eq (f := F.coreErr_VALID n) hmax).trans p4
  refine ⟨by rw [t1, p1]; rfl, by unfold State.fbit; rw [hVALID]; rfl, (t4.fget_eq (f := F.coreErr_CODE n) hmax).trans p5, ?_, fun m hm => ?_⟩
  · rw [t3, p3]
    exact hseen.mem
  · rw [t2 m hm, p2 m hm, hdrop.2.1 m hm, hseen.core]

end Descriptor

/-- Settles O19: the descriptor completes, its generator is freed, or its instance ends. -/
theorem dmaCompletesOrEnds : Obligations.DmaCompletesOrEnds := by
  unfold Obligations.DmaCompletesOrEnds
  intro n q s i j js hinst hq hc hst
  refine ⟨fun hd hw hjs => ?_, fun g hg hd hw => ⟨_, rfl, dmaPreempt_frees hq hg hd hw⟩,
    fun hd st hm hv => ⟨_, rfl, dmaRefused_ends hinst hq hc hst hd hm hv⟩⟩
  subst hjs
  exact ⟨_, rfl, dmaComplete_completes hinst hq hc hd hw⟩

end Sys2Proof.Safety
end

section
/-! O7: no bound on the partition number of an instance stands in the statement, and CORE_VMAP of a number past 7 is another unit's register. -/

namespace Sys2Proof.Safety

open Sys2Proof.Machine

/-! ### A partition number past 7

`CORE_VMAP(3327, 485)` stands at the offset of `TRC_BLOSS(0)`, and `CORE_VMAP(3327, 480)` at that of `TRC_BCFG(0)`. -/

/-- A packet of core 0's sequencer in its FIFO. -/
def queuedPkt : TailQ := ⟨⟨0, 0, 4, 0, none, 0, 0⟩, 1⟩

/-- Core 0 carries virtual core 480 of partition 3327, whose barrier waits for it alone; virtual core 485 is mapped by TRC_BLOSS(0), which now names core 1; Tail buffer 0 admits core 0's sequencer, whose FIFO is full. -/
def barAliased : State :=
  { (((State.reset.setReg (.coreVcfg 0xCFF) 486).setReg (.trcBcfg 0) (2 ^ 63)).setReg (.trcBloss 0) (2 ^ 63 + 1)).setReg (.trcSrcen 0 0) 1 with
    cores := [(0, { CoreS.init with bar := 1, inst := some ⟨7, 0xCFF, 480, 5, 0, 100, 1024, 1030, false, 0, 0, 3, 0, 0, 0, none, false⟩ })]
    tailq := [(0, List.replicate 8 queuedPkt)]
    bars := [(0xCFF * 32 + 40, 4095)] }

/-- The packet of the completed generation is dropped and counted in TRC_BLOSS(0): virtual core 485 names core 2 now, and its generation completes there. -/
theorem barAliased_completes : (barAliased.core 2).barFin = 0 ∧ ((barAliased.barArrival 0).core 2).barFin = 1 := by decide +kernel

/-- No member of the virtual cluster stands on core 2, and every member's arrival is marked. -/
theorem barAliased_members : (∀ v ∈ barAliased.vclusterMembers 0xCFF 480, barAliased.vmap 0xCFF v ≠ some 2)
    ∧ ∀ v ∈ barAliased.vclusterMembers 0xCFF 480, bitAt (setBit (Sparse.getD (fun _ => 0) barAliased.bars (0xCFF * 32 + 480 / 12)) (480 % 12) true) (v % 12) = true := by
  decide +kernel

/-- Refutes O7: in partition 3327 the loss count of Tail buffer 0 is the map of a member of the virtual cluster, so that the barrier's own Tail packet moves the member to another core. -/
theorem not_remoteEventsAndBarriers : ¬ Obligations.RemoteEventsAndBarriers := by
  unfold Obligations.RemoteEventsAndBarriers
  rintro ⟨-, -, -, h⟩
  obtain ⟨-, hall⟩ := h 0 barAliased _ rfl rfl rfl
  obtain ⟨hne, hmarked⟩ := barAliased_members
  obtain ⟨t, ht, -, -, hkeep, -⟩ := hall hmarked
  have hs : barAliased.barArrival 0 = t := Host.Outcome.next.inj ht
  have h2 := hkeep 2 hne
  rw [← hs] at h2
  obtain ⟨h0, h1⟩ := barAliased_completes
  rw [h2, h0] at h1
  cases h1

end Sys2Proof.Safety
end

section
/-! O18: no bound on the partition number of an instance stands in the statement, and CORE_VMAP of a number past 7 is another unit's register. -/

namespace Sys2Proof.Safety

open Sys2Proof.Machine

/-- The scratchpad window of virtual core 5, at 0x100. -/
def windowOf5 : Nat := 0x20000000000 + 5 * 0x200000 + 0x100

/-- A FILL of one byte at the window of virtual core 5. -/
def fillDesc : Nat := 3 + 2 ^ 8 + windowOf5 * 2 ^ 128 + 2 ^ 192 + 0xAB * 2 ^ 960

def fillJob : DmaJob := ⟨fillDesc, false, 0, [], none⟩

def fillInst : KInst := ⟨7, 0xD00, 2, 5, 0, 100, 1024, 1030, false, 0, 0, 3, 0, 0, 0, none, false⟩

/-- A packet of core 0's DMA engine in its FIFO. -/
def queuedDmaPkt : TailQ := ⟨⟨0, 3, 0x30, 0, none, 0, 0⟩, 2⟩

/-- Core 0, whose FILL waits, runs in partition 3328, of which TRC_BCFG(0) is the configuration and TRC_BLOSS(1) maps virtual core 5: to core 1, which is good. Tail buffer 1 admits core 0's DMA engine, whose FIFO is full. -/
def fillAliased : State :=
  { (((((((((State.reset.setReg (.trcBcfg 0) 6).setReg (.trcBcfg 1) (2 ^ 63)).setReg (.trcBloss 1) (2 ^ 63 + 1)).setReg (.trcSrcen 1 0) 8).fset
      (F.prtCfg_STATE 0) 1).fset (F.prtCfg_CLUSTERS 0) 1).fset (F.coreFence_FENCE 0) 0).fset F.pwrStat_G 16).fpSet 8 1 true) with
    cores := [(0, { CoreS.init with inst := some fillInst, dmaq := [[fillJob], [], [], [], [], [], [], []], gens := [⟨none, 0⟩, ⟨none, 0⟩] })]
    tailq := [(3, List.replicate 8 queuedDmaPkt)] }

theorem fillAliased_ready : DmaReady fillAliased 0 0 3 fillInst fillJob [] := by
  unfold DmaReady
  decide +kernel

/-- The one element stands at 0x100 of core 1's scratchpad. -/
theorem fillAliased_place : SpmPlace fillAliased 0xD00 windowOf5 1 (spmAddr 1 0x100) := ⟨1, 0x100, by decide +kernel⟩

theorem fillJob_element : dTotal fillJob.desc = 1 ∧ dBytes fillJob.desc = 1 ∧ (spmWin (dDst fillJob.desc)).isSome = true
    ∧ jobDst { fillJob with checked := true, idx := [], waitM := none } 0 = windowOf5 := by
  decide +kernel

/-- The packet of the DMA's start is dropped and counted in TRC_BLOSS(1): the window names core 2 now, and core 1's byte stays. -/
theorem fillAliased_misses : (fillAliased.dma 0 0 3).getBytes (spmAddr 1 0x100) 1 ≠ leBytes 1 (dPattern fillJob.desc) := by decide +kernel

/-- Refutes O18: in partition 3328 the loss count of Tail buffer 1 is the map of virtual core 5, so that the Tail packet of the descriptor's own start moves its destination to another core. -/
theorem not_dmaMovesElements : ¬ Obligations.DmaMovesElements := by
  unfold Obligations.DmaMovesElements
  intro h
  obtain ⟨hT, hB, hW, hD⟩ := fillJob_element
  have h0 : ∀ e, e < dTotal fillJob.desc → e = 0 := fun e he => by rw [hT] at he; exact Nat.lt_one_iff.mp he
  have hrow : ((Instr.dmaFill, 3) : (Fin 384 → Fin 8 → Instr) × Nat) ∈ dmaTable := by simp [dmaTable]
  have hplace : ∀ e, e < dTotal fillJob.desc →
      SpmPlace fillAliased 0xD00 (jobDst { fillJob with checked := true, idx := [], waitM := none } e) (dBytes fillJob.desc) (spmAddr 1 0x100) :=
    fun e he => by
      rw [h0 e he, hD, hB]
      exact fillAliased_place
  obtain ⟨t, ht, -, hfill, -⟩ := h _ hrow 0 0 fillAliased fillInst fillJob [] (fun _ => 0) (fun _ => spmAddr 1 0x100) fillAliased_ready rfl hW
    (fun hne => absurd rfl hne) (fun e he => ⟨hplace e he, fun hne => absurd rfl hne⟩)
    (fun e f he hf => ⟨fun hef => absurd ((h0 e he).trans (h0 f hf).symm) hef, fun hne => absurd rfl hne⟩)
  have hs : fillAliased.dma 0 0 3 = t := Host.Outcome.next.inj ht
  have hb := hfill 0 (by rw [hT]; exact Nat.one_pos)
  rw [if_pos rfl, ← hs, hB] at hb
  exact fillAliased_misses hb

end Sys2Proof.Safety
end

section
/-! SUPPORT. What memory and the region table look like once a bundle has been counted: as before (R67, R163, R174, R188, R210). -/

namespace Sys2Proof.Machine

theorem Sparse.range_erase {β : Type} (m : Sparse β) {lo hi k : Nat} (h : ¬ (lo ≤ k ∧ k < hi)) : (m.erase k).range lo hi = m.range lo hi := by
  induction m with
  | nil => rfl
  | cons e m ih =>
    obtain ⟨a, b⟩ := e
    unfold Sparse.range at ih ⊢
    by_cases ha : a = k
    · subst ha
      simpa [Sparse.erase, h] using ih
    · simp only [Sparse.erase, ha, if_false, List.filter_cons, ih]

theorem Sparse.range_insert {β : Type} (m : Sparse β) {lo hi k : Nat} (v : β) (h : ¬ (lo ≤ k ∧ k < hi)) : (m.insert k v).range lo hi = m.range lo hi := by
  induction m with
  | nil => simp [Sparse.insert, Sparse.range, h]
  | cons e m ih =>
    obtain ⟨a, b⟩ := e
    unfold Sparse.range at ih ⊢
    unfold Sparse.insert
    split
    · simp only [List.filter_cons, ih]
    · split
      · rename_i ha
        subst ha
        simp [h]
      · simp [h]

theorem Sparse.range_setD {β : Type} [DecidableEq β] (d : Nat → β) (m : Sparse β) {lo hi k : Nat} (v : β) (h : ¬ (lo ≤ k ∧ k < hi)) :
    (Sparse.setD d m k v).range lo hi = m.range lo hi := by
  unfold Sparse.setD
  split
  · exact Sparse.range_erase m h
  · exact Sparse.range_insert m v h

end Sys2Proof.Machine

namespace Sys2Proof.Safety

open Sys2Proof.Machine

/-- From `s` to `t` the cores have changed and CNT_CBUND of core `n` has counted, nothing else. -/
def Counted (s t : State) (n : Nat) : Prop :=
  RegsBut s t [(Reg.cntCbund n).off] ∧ (∀ lo hi, 0x1000000 ≤ lo → t.regs.range lo hi = s.regs.range lo hi)
  ∧ ∃ cs rs, t = { s with cores := cs, regs := rs }

theorem counted_of_becomes {s u : State} {n : Fin 384} {c : CoreS} (h : CoreBecomes s u n c) : Counted s (u.finc (F.cntCbund_N n) 1) n := by
  obtain ⟨-, -, h3⟩ := h
  have hregs : u.regs = s.regs := by
    have h := congrArg State.regs h3
    exact h
  refine ⟨RegsBut.trans (RegsBut.of_regs_eq _ hregs) (regsBut_fset u (F.cntCbund_N n) _), fun lo hi hlo => ?_, u.cores, (u.finc (F.cntCbund_N n) 1).regs, ?_⟩
  · have hn := n.isLt
    rw [← hregs]
    refine Sparse.range_setD _ _ _ ?_
    simp only [Reg.off, F.cntCbund_N]
    omega
  · calc u.finc (F.cntCbund_N n) 1
        = { ({ u with cores := s.cores } : State) with cores := u.cores, regs := (u.finc (F.cntCbund_N n) 1).regs } := rfl
      _ = { s with cores := u.cores, regs := (u.finc (F.cntCbund_N n) 1).regs } := by rw [h3]

theorem not_cntCbund {n : Fin 384} {o : Nat} (h : 0x1000000 ≤ o) : o ∉ [(Reg.cntCbund n).off] := by
  have hn := n.isLt
  simp only [List.mem_singleton, Reg.off]
  omega

namespace Counted

variable {s t : State} {n : Fin 384} (h : Counted s t n)
include h

theorem fget {f : Fld} (hf : 0x1000000 ≤ f.reg.off) : t.fget f = s.fget f := h.1.fget_eq (not_cntCbund hf)

theorem reg {r : Reg} (hr : 0x1000000 ≤ r.off) : t.reg r = s.reg r := h.1.reg_eq (not_cntCbund hr)

theorem physOf (a : Nat) : t.physOf a = s.physOf a := by
  obtain ⟨hm, hl⟩ := cntCbund_not_map n
  exact physOf_congr h.1 hm hl a

theorem memKey (a : Nat) : t.memKey a = s.memKey a := by
  obtain ⟨hm, hl⟩ := cntCbund_not_map n
  exact memKey_congr h.1 hm hl a

theorem mem : t.mem = s.mem := by obtain ⟨-, -, cs, rs, rfl⟩ := h; rfl

theorem getByte (a : Nat) : t.getByte a = s.getByte a := by
  obtain ⟨hm, hl⟩ := cntCbund_not_map n
  exact getByte_congr h.1 hm hl h.mem a

theorem mchState (m : Nat) : t.fget (F.memMchStat_STATE m) = s.fget (F.memMchStat_STATE m) := h.fget (by simp only [F.memMchStat_STATE, Reg.off]; omega)

theorem fpBit (off u : Nat) : t.fpBit off u = s.fpBit off u := by
  unfold State.fpBit
  rw [h.reg (by simp only [Reg.off]; omega)]

theorem caches (m : Nat) : t.caches m = s.caches m := by
  have h1 := h.mchState m
  have h2 := h.fpBit 304 m
  have h3 : t.fget F.bootStatus_STAGE = s.fget F.bootStatus_STAGE := h.fget (by decide)
  unfold State.caches State.sliceGood
  rw [h1, h2, h3]
  obtain ⟨-, -, cs, rs, rfl⟩ := h
  rfl

theorem llcHit (m off : Nat) : t.llcHit m off = s.llcHit m off := by
  unfold State.llcHit State.llcWay
  rw [h.caches]
  obtain ⟨-, -, cs, rs, rfl⟩ := h
  rfl

theorem lineHeld {a : Nat} (ha : a < 0xC000000000) : t.lineHeld a = s.lineHeld a := by
  have hp := h.physOf a
  have hs : spaceOf a = .stack a := if_pos ha
  unfold State.lineHeld State.sliceOf
  simp only [hs, hp]
  obtain ⟨-, -, cs, rs, rfl⟩ := h
  rfl

theorem mchWaits {a : Nat} (ha : a < 0xC000000000) (write whole narrow : Bool) : t.mchWaits a write whole narrow = s.mchWaits a write whole narrow := by
  have hs : spaceOf a = .stack a := if_pos ha
  unfold State.mchWaits State.retraining
  simp only [hs, h.lineHeld ha, h.physOf, h.mchState, h.llcHit, h.caches]

theorem snoopNeeded {a : Nat} (ha : a < 0xC000000000) (write : Bool) : t.snoopNeeded a write = s.snoopNeeded a write := by
  have hp := h.physOf a
  have hs : spaceOf a = .stack a := if_pos ha
  unfold State.snoopNeeded State.homeOf
  simp only [hs, hp]
  obtain ⟨-, -, cs, rs, rfl⟩ := h
  rfl

/-- What holds back no access to stacked memory holds back none once a bundle has been counted. -/
theorem blocked_none {a len : Nat} {write : Bool} (ha : ∀ l ∈ lines64 a len, l < 0xC000000000) (hb : s.blocked a len write = none) :
    t.snoopLines a len write = [] ∧ t.blocked a len write = none := by
  have hsn : t.snoopLines a len write = s.snoopLines a len write := by
    have he : t.snoop = s.snoop := by obtain ⟨-, -, cs, rs, rfl⟩ := h; rfl
    unfold State.snoopLines
    rw [he, List.filter_congr fun l hl => h.snoopNeeded (ha l hl) write]
  have hwl : t.waitLines a len write false = s.waitLines a len write false :=
    List.filter_congr fun l hl => h.mchWaits (ha l hl) _ _ _
  unfold State.blocked State.snoopFirst at hb ⊢
  dsimp only at hb ⊢
  rw [hsn, hwl]
  by_cases he : (s.snoopLines a len write).isEmpty = true
  · rw [if_pos he] at hb ⊢
    by_cases hw : (s.waitLines a len write false).isEmpty = true
    · exact ⟨List.isEmpty_iff.mp he, by simp [hw]⟩
    · simp [hw] at hb
  · simp [he] at hb

/-- The region table stands (R166). -/
theorem regionAt (p a : Nat) : t.regionAt p a = s.regionAt p a := by
  have hr := h.2.1 (Reg.prtRgnA p 0).off ((Reg.prtRgnA p 0).off + 0x10000) (by simp only [Reg.off]; omega)
  unfold State.regionAt State.regions
  dsimp only
  rw [hr]
  obtain ⟨-, -, cs, rs, rfl⟩ := h
  rfl

theorem slotError (p a : Nat) : t.slotError p a = s.slotError p a := by
  unfold State.slotError
  rw [h.regionAt]

theorem backed {a : Nat} (ha : a < 0xC000000000) : t.backed a = s.backed a := by
  have hn : t.mapN = s.mapN := h.fget (by decide)
  have hs : spaceOf a = .stack a := if_pos ha
  unfold State.backed
  simp only [hs, hn, h.physOf, h.mchState]

theorem unitsRun : t.unitsRun n = s.unitsRun n := by
  have hf : t.fget (F.coreFence_FENCE n) = s.fget (F.coreFence_FENCE n) := h.fget (by simp only [F.coreFence_FENCE, Reg.off]; omega)
  unfold State.unitsRun State.fbit
  rw [hf]
  obtain ⟨-, -, cs, rs, rfl⟩ := h
  rfl

end Counted

end Sys2Proof.Safety
end

section
/-! SUPPORT. Whole lines stored in stacked memory (R174, R206, R334): the bytes change; beside them the tags, the arbiters, the burst slots, the stack's power and poison may. -/

namespace Sys2Proof.Machine

open Sys2Proof.Safety

/-- Lines of stacked memory have been asked for: nothing but tags, arbiters, slots and power has changed. -/
def Touched (s t : State) : Prop := ∃ a b c d e, t = { s with llc := a, plru := b, pow := c, arbs := d, mslots := e }

theorem Touched.refl (s : State) : Touched s s := ⟨_, _, _, _, _, rfl⟩

theorem Touched.trans {s t u : State} (h : Touched s t) (h' : Touched t u) : Touched s u := by
  obtain ⟨a, b, c, d, e, rfl⟩ := h
  obtain ⟨a', b', c', d', e', rfl⟩ := h'
  exact ⟨a', b', c', d', e', rfl⟩

theorem State.llcTouch_touched (s : State) (m off : Nat) (write whole : Bool) : Touched s (s.llcTouch m off write whole) := by
  unfold State.llcTouch
  split
  · exact Touched.refl s
  · exact ⟨_, _, _, _, _, rfl⟩

theorem State.touch_touched (s : State) {l : Nat} (hl : l < 0xC000000000) (write whole narrow : Bool) : Touched s (s.touch l write whole narrow) := by
  have hs : spaceOf l = .stack l := if_pos hl
  have hg : Touched s ((s.wakeStack (s.physOf l).1).grant 4 (s.physOf l).1 0) := ⟨_, _, _, _, _, rfl⟩
  unfold State.touch
  rw [hs]
  dsimp only
  generalize (s.wakeStack (s.physOf l).1).grant 4 (s.physOf l).1 0 = u at *
  generalize hv : (if u.llcHit (s.physOf l).1 (s.physOf l).2 || (write && whole && !narrow && u.caches (s.physOf l).1) then u
    else u.mchSlot (s.physOf l).1 (if narrow then 1 else 0)) = v
  have hw : Touched u v := by
    rw [← hv]
    split
    · exact Touched.refl u
    · exact ⟨_, _, _, _, _, rfl⟩
  split
  · exact hg.trans hw
  · exact (hg.trans hw).trans (v.llcTouch_touched ..)

/-! ### Bytes -/

theorem State.setBytes_append (s : State) (a : Nat) (d e : Bytes) : s.setBytes a (d ++ e) = (s.setBytes a d).setBytes (a + d.length) e := by
  induction d generalizing s a with
  | nil => rfl
  | cons b d ih =>
    rw [List.cons_append, State.setBytes, State.setBytes, ih, List.length_cons, Nat.add_assoc, Nat.add_comm 1]

theorem State.setBytes_poison (s : State) (p : Sparse Bool) (a : Nat) (d : Bytes) :
    ({ s with poison := p } : State).setBytes a d = { s.setBytes a d with poison := p } := by
  induction d generalizing s a with
  | nil => rfl
  | cons b d ih => exact ih (s.setByte a b) (a + 1)

/-! ### Lines -/

theorem lines64_whole {a : Nat} (ha : a % 64 = 0) (k : Nat) : lines64 a (64 * k) = (List.range k).map fun i => a + 64 * i := by
  cases k with
  | zero => rfl
  | succ k =>
    have hn : (a + 64 * (k + 1) - 1) / 64 - a / 64 + 1 = k + 1 := by omega
    unfold lines64
    rw [if_neg (by omega), hn]
    refine List.map_congr_left fun i _ => ?_
    omega

section Lines

variable {s : State} {a k : Nat} {d : Bytes} (ha : a % 64 = 0) (hd : d.length = 64 * k) (hb : a + 64 * k ≤ 0xC000000000)
include ha hd hb

omit ha hb in
theorem lineSlice_whole {i : Nat} (hi : i < k) : lineSlice a d (a + 64 * i) = (a + 64 * i, (d.drop (64 * i)).take 64)
    ∧ ((d.drop (64 * i)).take 64).length = 64 := by
  have hm : max a (a + 64 * i) = a + 64 * i := Nat.max_eq_right (Nat.le_add_right _ _)
  refine ⟨?_, by rw [List.length_take, List.length_drop]; omega⟩
  unfold lineSlice
  dsimp only
  rw [hm, Nat.add_sub_cancel_left, Nat.add_sub_cancel_left]

/-- A whole line is written, poisoned or not (R206). -/
theorem writeLine_whole {i : Nat} (hi : i < k) (hbk : s.backed (a + 64 * i) = true) :
    ∃ p, s.writeLine a d (a + 64 * i) = (stOK, { s.setBytes (a + 64 * i) ((d.drop (64 * i)).take 64) with poison := p }) := by
  obtain ⟨he, hlen⟩ := lineSlice_whole (a := a) hd hi
  have hl : a + 64 * i < 0xC000000000 := by omega
  have hs : spaceOf (a + 64 * i) = .stack (a + 64 * i) := if_pos hl
  unfold State.writeLine
  simp only [he, hbk, hlen, Bool.not_true, Bool.false_eq_true, if_false, if_true]
  split
  · refine ⟨Sparse.setD (fun _ => false) s.poison (s.burstOf (a + 64 * i)) false, ?_⟩
    unfold State.setPoison
    rw [hs]
    dsimp only
    rw [State.setBytes_poison]
  · refine ⟨s.poison, ?_⟩
    have hdr : ∀ len, s.inDrain (a + 64 * i) len = false := fun len => by unfold State.inDrain; rw [hs]
    rw [State.setRaced_eq (hdr _), State.setBytes_eq]

/-- Whole lines are written one after the other (R206). -/
theorem write_whole (hbk : ∀ i < k, s.backed (a + 64 * i) = true) : ∃ p, s.write a d = (stOK, { s.setBytes a d with poison := p }) := by
  have key : ∀ j ≤ k, ∃ p, ((List.range j).map fun i => a + 64 * i).foldl (fun (r : Nat × State) l =>
      let w := r.2.writeLine a d l
      (if r.1 = stOK then w.1 else r.1, w.2)) (stOK, s) = (stOK, { s.setBytes a (d.take (64 * j)) with poison := p }) := by
    intro j hj
    induction j with
    | zero => exact ⟨s.poison, rfl⟩
    | succ j ih =>
      obtain ⟨p, hp⟩ := ih (by omega)
      have hbj : ({ s.setBytes a (d.take (64 * j)) with poison := p } : State).backed (a + 64 * j) = true := by
        rw [State.setBytes_eq]
        exact hbk j hj
      obtain ⟨p', hp'⟩ := writeLine_whole ha hd hb hj hbj
      refine ⟨p', ?_⟩
      have hlen : (d.take (64 * j)).length = 64 * j := by rw [List.length_take]; omega
      have htake : d.take (64 * (j + 1)) = d.take (64 * j) ++ (d.drop (64 * j)).take 64 := by rw [Nat.mul_succ, List.take_add]
      rw [List.range_succ, List.map_append, List.foldl_append, hp]
      simp only [List.map_cons, List.map_nil, List.foldl_cons, List.foldl_nil, hp', if_true]
      rw [State.setBytes_poison, htake, State.setBytes_append, hlen]
  obtain ⟨p, hp⟩ := key k (Nat.le_refl k)
  refine ⟨p, ?_⟩
  unfold State.write
  rw [hd, lines64_whole ha, hp, List.take_of_length_le (by omega)]

omit hb in
theorem mem_lines64_whole {l : Nat} (hl : l ∈ lines64 a d.length) : l % 64 = 0 ∧ a ≤ l ∧ l + 64 ≤ a + 64 * k := by
  rw [hd, lines64_whole ha] at hl
  obtain ⟨i, hi, rfl⟩ := List.mem_map.mp hl
  have := List.mem_range.mp hi
  omega

/-- A store of whole lines that no snoop holds back. -/
theorem store_whole (hk : 0 < k) (hsn : s.snoopLines a d.length true = []) (hbk : ∀ i < k, s.backed (a + 64 * i) = true) :
    ∃ u p, Touched s u ∧ s.store a d = (stOK, { u.setBytes a d with poison := p }) := by
  have hs : spaceOf a = .stack a := if_pos (by omega)
  have hhost : isHost a = false := by unfold isHost; rw [hs]
  have htouch : Touched s ((lines64 a d.length).foldl (fun s l => if s.backed (max l a) then s.touch l true ((lineSlice a d l).2.length = 64) false else s) s) := by
    refine List.foldlRecOn (motive := Touched s) _ _ (Touched.refl s) fun t ht l hl => ?_
    obtain ⟨-, -, h3⟩ := mem_lines64_whole ha hd hl
    split
    · exact ht.trans (t.touch_touched (by omega) _ _ _)
    · exact ht
  have hst : s.store a d = State.write ((lines64 a d.length).foldl (fun s l => if s.backed (max l a) then s.touch l true ((lineSlice a d l).2.length = 64) false else s) s) a d := by
    unfold State.store State.storeHome State.hostStatus
    rw [hsn, List.foldl_nil, hhost]
    rfl
  generalize (lines64 a d.length).foldl (fun s l => if s.backed (max l a) then s.touch l true ((lineSlice a d l).2.length = 64) false else s) s = u at *
  have hbu : ∀ i < k, u.backed (a + 64 * i) = true := fun i hi => by
    obtain ⟨x1, x2, x3, x4, x5, rfl⟩ := htouch
    exact hbk i hi
  obtain ⟨p, hp⟩ := write_whole ha hd hb hbu
  exact ⟨u, p, htouch, hst.trans hp⟩

/-- What a store of whole lines leaves: its bytes read back and no byte of another key changes. -/
theorem store_whole_reads (hk : 0 < k) (hsn : s.snoopLines a d.length true = []) (hbk : ∀ i < k, s.backed (a + 64 * i) = true)
    (hkey : ∀ i j, i < d.length → j < d.length → s.memKey (a + i) = s.memKey (a + j) → i = j) :
    ∃ v, s.store a d = (stOK, v) ∧ v.getBytes a d.length = d ∧ (∀ x, (∀ i < d.length, s.memKey x ≠ s.memKey (a + i)) → v.getByte x = s.getByte x)
      ∧ v.cores = s.cores ∧ v.regs = s.regs := by
  obtain ⟨u, p, htouch, hst⟩ := store_whole ha hd hb hk hsn hbk
  have hcore : ({ u.setBytes a d with poison := p } : State).cores = u.cores := by rw [State.setBytes_eq]
  have hregs : ({ u.setBytes a d with poison := p } : State).regs = u.regs := by rw [State.setBytes_eq]
  have hku : ∀ x, u.memKey x = s.memKey x := fun x => by obtain ⟨x1, x2, x3, x4, x5, rfl⟩ := htouch; rfl
  have hgu : ∀ x, u.getByte x = s.getByte x := fun x => by obtain ⟨x1, x2, x3, x4, x5, rfl⟩ := htouch; rfl
  refine ⟨_, hst, ?_, fun x hx => ?_, hcore.trans ?_, hregs.trans ?_⟩
  · exact State.getBytes_setBytes u a d fun i j hi hj h => hkey i j hi hj (by rwa [hku, hku] at h)
  · exact (State.getByte_setBytes_ne d u a fun i hi => by rw [hku, hku]; exact hx i hi).trans (hgu x)
  · obtain ⟨x1, x2, x3, x4, x5, rfl⟩ := htouch; rfl
  · obtain ⟨x1, x2, x3, x4, x5, rfl⟩ := htouch; rfl

end Lines

/-! ### Keys of backed bytes -/

/-- The bytes of backed lines lie below N GiB. -/
theorem backed_lt {s : State} {l i : Nat} (hl : l % 64 = 0) (hl' : l < 0xC000000000) (hb : s.backed l = true) (hi : i < 64) : l + i < s.mapN * 2 ^ 30 := by
  have hs : spaceOf l = .stack l := if_pos hl'
  simp only [State.backed, hs, Bool.and_eq_true, decide_eq_true_eq] at hb
  omega

/-- Two bytes below N GiB have keys of their own (R195, R213). -/
theorem memKey_inj_stack {s : State} (hm : MapOk s) {x y : Nat} (hx : x < s.mapN * 2 ^ 30) (hx' : x < 0xC000000000) (hy : y < s.mapN * 2 ^ 30)
    (hy' : y < 0xC000000000) (h : s.memKey x = s.memKey y) : x = y := by
  have h1 := State.physOf_snd_lt hx hx'
  have h2 := State.physOf_snd_lt hy hy'
  rw [s.memKey_stack hx', s.memKey_stack hy'] at h
  exact State.physOf_inj hm hx (Prod.ext (by omega) (by omega))

end Sys2Proof.Machine
end

section
/-! O8: tile boundaries and the end of an instance (R43, R57, R67, R71). -/

namespace Sys2Proof.Machine

open Sys2Proof.Safety

/-! ### The bytes of a checkpoint (R67) -/

/-- One of the equal pieces that a list is joined of. -/
theorem flatten_piece {α : Type} (w : Nat) (l : List (List α)) (rest : List α) (h : ∀ x ∈ l, x.length = w) {r : Nat} (hr : r < l.length) :
    ((l.flatten ++ rest).drop (w * r)).take w = l[r] := by
  induction l generalizing r with
  | nil => cases hr
  | cons x l ih =>
    have hx : x.length = w := h x (List.mem_cons_self ..)
    rw [List.flatten_cons, List.append_assoc]
    cases r with
    | zero =>
      rw [Nat.mul_zero, List.drop_zero, List.take_append_of_le_length (by omega), List.take_of_length_le (by omega)]
      rfl
    | succ r =>
      rw [Nat.mul_succ, Nat.add_comm, ← hx, List.drop_length_add_append, hx]
      exact ih (fun y hy => h y (List.mem_cons_of_mem _ hy)) (Nat.lt_of_succ_lt_succ hr)

theorem length_flatten_of {α : Type} (w : Nat) (l : List (List α)) (h : ∀ x ∈ l, x.length = w) : l.flatten.length = l.length * w := by
  rw [List.length_flatten, List.map_congr_left h, List.map_const', List.sum_replicate, smul_eq_mul]

/-- A checkpoint opens with the boundary's number and the PC, then the scalar and address registers. -/
theorem CoreS.checkpoint_head (c : CoreS) (imm pc k : Nat) : ∃ rest, c.checkpoint imm pc k
    = leBytes 8 (imm + k * 2 ^ 32) ++ (leBytes 8 pc ++ (((List.range 48).map fun i => leBytes 8 (c.reg i).toNat).flatten ++ rest)) := by
  refine ⟨((List.range 16).map fun i => leBytes 32 (c.tile i).toNat).flatten
    ++ (((List.range 64).map fun i => leBytes 4 (c.evc i).toNat).flatten ++ zeroBytes 880), ?_⟩
  unfold CoreS.checkpoint
  simp only [List.append_assoc]

theorem CoreS.length_checkpoint (c : CoreS) (imm pc k : Nat) : (c.checkpoint imm pc k).length = 2048 := by
  unfold CoreS.checkpoint
  simp only [List.length_append, length_leBytes, zeroBytes, List.length_replicate]
  rw [length_flatten_of 8 _ (by simp), length_flatten_of 32 _ (by simp), length_flatten_of 4 _ (by simp)]
  simp

/-- A number read from bytes that stand in memory. -/
theorem getLE_of_getBytes {s : State} {a len off k : Nat} {d : Bytes} (h : s.getBytes a len = d) (hk : off + k ≤ len) :
    s.getLE (a + off) k = leVal ((d.drop off).take k) := by
  subst h
  unfold State.getLE
  congr 1
  refine List.ext_getElem (by simp; omega) fun i h1 h2 => ?_
  simp [State.getBytes, Nat.add_assoc]

section Checkpoint

variable {s : State} {c : CoreS} {a imm pc k : Nat} (h : s.getBytes a 2048 = c.checkpoint imm pc k)
include h

theorem checkpoint_number : s.getLE a 8 = (imm + k * 2 ^ 32) % 2 ^ 64 := by
  obtain ⟨rest, hr⟩ := c.checkpoint_head imm pc k
  have hg := getLE_of_getBytes (off := 0) (k := 8) h (by decide)
  rw [hr, List.drop_zero, List.take_append_of_le_length (by simp), List.take_of_length_le (by simp), leVal_leBytes] at hg
  exact hg

theorem checkpoint_pc (hpc : pc < 2 ^ 64) : s.getLE (a + 8) 8 = pc := by
  obtain ⟨rest, hr⟩ := c.checkpoint_head imm pc k
  have hg := getLE_of_getBytes (off := 8) (k := 8) h (by decide)
  rw [hr, List.drop_append_of_le_length (by simp), List.drop_of_length_le (by simp), List.nil_append, List.take_append_of_le_length (by simp),
    List.take_of_length_le (by simp), leVal_leBytes] at hg
  rw [hg]
  exact Nat.mod_eq_of_lt hpc

theorem checkpoint_reg (r : Fin 48) : s.getLE (a + 16 + 8 * r) 8 = (c.reg r).toNat := by
  obtain ⟨rest, hr⟩ := c.checkpoint_head imm pc k
  have hrl := r.isLt
  have hg := getLE_of_getBytes (off := 16 + 8 * r) (k := 8) h (by omega)
  have hd : (c.checkpoint imm pc k).drop (16 + 8 * r) = (((List.range 48).map fun i => leBytes 8 (c.reg i).toNat).flatten ++ rest).drop (8 * r) := by
    rw [hr, ← List.append_assoc, show 16 = (leBytes 8 (imm + k * 2 ^ 32) ++ leBytes 8 pc).length by simp, List.drop_length_add_append]
  rw [hd, flatten_piece 8 _ rest (by simp) (by simp), List.getElem_map, List.getElem_range, leVal_leBytes, ← Nat.add_assoc] at hg
  rw [hg]
  exact Nat.mod_eq_of_lt (c.reg r).isLt

end Checkpoint

/-! ### The TB (R67) -/

section Tb

variable {s : State} {n : Fin 384} {imm : BitVec 8} {i : KInst}

theorem tb_counted (hi : IssuesHere s n) :
    Counted s (s.issueSy n (syWord 7 0 0 imm.toNat)) n ∧ CoresBut s (s.issueSy n (syWord 7 0 0 imm.toNat)) n
      ∧ (s.issueSy n (syWord 7 0 0 imm.toNat)).core n = { stepped (s.core n) with tb := some (imm.toNat, (s.core n).pc + 1) } := by
  obtain ⟨e1, e2, e3, e4⟩ := syWord_fields 7 0 0 imm.toNat (by decide) (by decide) (by decide) imm.isLt
  obtain ⟨u, hu, he⟩ := issueSy_steps (x := syWord 7 0 0 imm.toNat) hi (by simp [syLegal, e1]) (by simp [syReads, e1, Ready]) (by simp [CoreS.syWaits, e1])
  have hsy : u.syEffect n (syWord 7 0 0 imm.toNat) ((s.core n).pc + 1) (s.core n) = u.modCore n fun c => { c with tb := some (imm.toNat, (s.core n).pc + 1) } := by
    simp only [State.syEffect, e1, e4]
  rw [hsy] at he
  rw [he]
  have hm := hu.mod fun c => { c with tb := some (imm.toNat, (s.core n).pc + 1) }
  exact ⟨counted_of_becomes hm, hm.2.1, hm.1⟩

/-- What a completed boundary leaves of its core. -/
def CoreS.boundary (c : CoreS) (i : KInst) (a : Nat) (park : Bool) : CoreS :=
  { c with tb := none, waiting := false, inst := some { i with nTB := i.nTB + 1, faultsTB := 0, replaying := false, valid := some a },
           parked := park, barCnt := 0, barRep := 0, barFin := 0, remCnt := 0, remRep := 0 }

/-- A TB whose wait is over and whose checkpoint is stored. -/
theorem tbComplete_eq {b pc : Nat} {v : State} (htb : (s.core n).tb = some (b, pc)) (hinst : (s.core n).inst = some i) (hf : (s.core n).fenceDone 7 = true)
    (hfault : (s.core n).fault = none) (hu : s.unitsRun n = true) {a : Nat} (ha : a = ((s.core n).reg 4).toNat + 4096 * (i.nTB % 2))
    (hslot : s.slotError i.part a = none) (hb : s.blocked a 2048 true = none) (hst : s.store a ((s.core n).checkpoint b pc i.nTB) = (stOK, v)) :
    ∃ park, s.tbComplete n = (v.tailCore n 0 0x03 (b + i.nTB * 2 ^ 32)).modCore n fun c => c.boundary i a park := by
  subst ha
  refine ⟨decide ((v.tailCore n 0 0x03 (b + i.nTB * 2 ^ 32)).fget F.pwrStat_PARK = 1) && !i.noReplay, ?_⟩
  unfold State.tbComplete
  simp only [htb, hinst, hf, hfault, hu, hslot, hb, hst, Bool.not_true, Option.isSome_none, Bool.or_self, Bool.false_eq_true, if_false, ne_eq, not_true_eq_false]
  rfl

theorem lossOffs_not_map : Reg.memMap.off ∉ lossOffs ∧ ∀ j < 12, (Reg.memLive j).off ∉ lossOffs := by decide

theorem getByte_seen {s t : State} (h : Seen s t) (x : Nat) : t.getByte x = s.getByte x :=
  getByte_congr h.1 lossOffs_not_map.1 lossOffs_not_map.2 h.mem x

theorem unitsRun_of_issues (hi : Issues s n) : s.unitsRun n = true ∧ (s.core n).fault = none := by
  obtain ⟨h, -⟩ := hi
  unfold State.canIssue at h
  cases hinst : (s.core n).inst with
  | none => simp [hinst] at h
  | some i =>
    simp only [hinst, Bool.and_eq_true, Option.isNone_iff_eq_none, Bool.not_eq_true'] at h
    refine ⟨?_, by tauto⟩
    unfold State.unitsRun
    simp only [Bool.and_eq_true, Bool.not_eq_true']
    tauto

/-- The store of a checkpoint in the slot it has passed (R67): what memory and the core hold then. -/
theorem tbComplete_stores {c1 : CoreS} {b pc a : Nat} (hc : s.core n = c1) (htb : c1.tb = some (b, pc)) (hinst : c1.inst = some i) (hf : c1.fenceDone 7 = true)
    (hfault : c1.fault = none) (hu : s.unitsRun n = true) (ha : a = (c1.reg 4).toNat + 4096 * (i.nTB % 2)) (ha64 : a % 64 = 0) (hab : a + 64 * 32 ≤ 0xC000000000)
    (hm : ∀ x y, x < 64 * 32 → y < 64 * 32 → s.memKey (a + x) = s.memKey (a + y) → x = y)
    (hslot : s.slotError i.part a = none) (hb : s.blocked a 2048 true = none) (hsn : s.snoopLines a 2048 true = []) (hbk : ∀ j < 32, s.backed (a + 64 * j) = true) :
    let t := s.tbComplete n
    t.getBytes a 2048 = c1.checkpoint b pc i.nTB ∧ (∀ x, (∀ y < 64 * 32, s.memKey x ≠ s.memKey (a + y)) → t.getByte x = s.getByte x)
      ∧ (∃ park, t.core n = c1.boundary i a park) ∧ CoresBut s t n := by
  subst hc
  have hlen := (s.core n).length_checkpoint b pc i.nTB
  have hd : ((s.core n).checkpoint b pc i.nTB).length = 64 * 32 := hlen
  obtain ⟨v, hst, hbytes, hkeep, hcores, -⟩ := store_whole_reads (s := s) ha64 hd hab (by decide) (by rw [hlen]; exact hsn) hbk (by rw [hd]; exact hm)
  obtain ⟨park, he⟩ := tbComplete_eq htb hinst hf hfault hu ha hslot hb hst
  have hseen := v.seen_tailCore n 0 0x03 (b + i.nTB * 2 ^ 32)
  have hcv : ∀ m, v.core m = s.core m := fun m => by unfold State.core; rw [hcores]
  rw [hlen] at hbytes
  rw [hd] at hkeep
  rw [he]
  generalize v.tailCore n 0 0x03 (b + i.nTB * 2 ^ 32) = w at *
  refine ⟨?_, fun x hx => (getByte_seen hseen x).trans (hkeep x hx), ⟨park, ?_⟩, fun m hm => ?_⟩
  · rw [State.getBytes_modCore, getBytes_congr (s := v) (b := a) fun j _ => getByte_seen hseen _]
    exact hbytes
  · rw [State.core_modCore_self, hseen.core, hcv]
  · rw [State.core_modCore_ne _ _ hm, hseen.core, hcv]

/-- R67: a TB whose engines are idle. -/
theorem tb_completes (hi : IssuesHere s n) (hinst : (s.core n).inst = some i) (hf : (s.core n).fenceDone 7 = true) (hm : MapOk s) {a : Nat}
    (ha : a = ((s.core n).reg 4).toNat + 4096 * (i.nTB % 2)) (ha64 : a % 64 = 0) (hab : a + 2048 ≤ 0xC000000000) (hslot : s.slotError i.part a = none)
    (hbk : ∀ l ∈ lines64 a 2048, s.backed l = true) (hb : s.blocked a 2048 true = none) :
    let t := (s.issueSy n (syWord 7 0 0 imm.toNat)).tbComplete n
    t.getLE a 8 = (imm.toNat + i.nTB * 2 ^ 32) % 2 ^ 64 ∧ t.getLE (a + 8) 8 = (s.core n).pc + 1
      ∧ (∀ r : Fin 48, t.getLE (a + 16 + 8 * r) 8 = ((s.core n).reg r).toNat)
      ∧ (∀ x, (x < a ∨ a + 2048 ≤ x) → s.backed x = true → t.getByte x = s.getByte x)
      ∧ (t.core n).inst = some { i with nTB := i.nTB + 1, faultsTB := 0, replaying := false, valid := some a } ∧ (t.core n).tb = none
      ∧ (t.core n).pc = (s.core n).pc + 1 ∧ (∀ r, (t.core n).reg r = (s.core n).reg r) ∧ CoresBut s t n := by
  obtain ⟨hu, hfault⟩ := unitsRun_of_issues hi.1
  obtain ⟨hcnt, hbut, hcore⟩ := tb_counted (imm := imm) hi
  have hpc : (s.core n).pc + 1 < 2 ^ 64 := by
    have hr := hi.2
    unfold InRegion at hr
    split at hr <;> omega
  generalize s.issueSy n (syWord 7 0 0 imm.toNat) = s1 at *
  have hlines : lines64 a 2048 = (List.range 32).map fun j => a + 64 * j := lines64_whole ha64 32
  have hbk' : ∀ j < 32, s.backed (a + 64 * j) = true := fun j hj => hbk _ (by rw [hlines]; exact List.mem_map.mpr ⟨j, List.mem_range.mpr hj, rfl⟩)
  have hlt : ∀ x < 64 * 32, a + x < s.mapN * 2 ^ 30 := fun x hx => by
    have h := backed_lt (i := x % 64) (by omega) (by omega) (hbk' (x / 64) (by omega)) (Nat.mod_lt _ (by decide))
    omega
  have hstack : ∀ l ∈ lines64 a 2048, l < 0xC000000000 := fun l hl => by
    rw [hlines] at hl
    obtain ⟨j, hj, rfl⟩ := List.mem_map.mp hl
    have := List.mem_range.mp hj
    omega
  obtain ⟨hsn, hb1⟩ := hcnt.blocked_none hstack hb
  have hkey : ∀ x y, x < 64 * 32 → y < 64 * 32 → s1.memKey (a + x) = s1.memKey (a + y) → x = y := fun x y hx hy h => by
    rw [hcnt.memKey, hcnt.memKey] at h
    have := memKey_inj_stack hm (hlt x hx) (by omega) (hlt y hy) (by omega) h
    omega
  obtain ⟨t1, t2, ⟨park, t3⟩, t4⟩ := tbComplete_stores hcore rfl hinst hf hfault (hcnt.unitsRun.trans hu) ha ha64 hab hkey
    ((hcnt.slotError _ _).trans hslot) hb1 hsn fun j hj => (hcnt.backed (by omega)).trans (hbk' j hj)
  refine ⟨checkpoint_number t1, checkpoint_pc t1 hpc, checkpoint_reg t1, fun x hx hxb => ?_, by rw [t3]; rfl, by rw [t3]; rfl, by rw [t3]; rfl,
    fun r => by rw [t3]; rfl, fun m hm => (t4 m hm).trans (hbut m hm)⟩
  rw [t2 x fun y hy h => ?_, hcnt.getByte]
  rw [hcnt.memKey, hcnt.memKey] at h
  have := State.memKey_inj hm (hlt y hy) (by omega) hxb h
  omega

/-! ### END and the end of the instance (R43) -/

/-- END stays where it is. -/
theorem PcMove.apply_stay (pc : Nat) (um : Bool) : PcMove.stay.apply pc um = some (pc, um) := rfl

/-- The effect of a bundle that holds END alone. -/
theorem issueEffect_end {x : Nat} (ho : scOp x = 0x3F) (hr : s.scResult n x = none) :
    ∃ u, s.issueEffect n { Bundle.empty with sc := some x } = u.finc (F.cntCbund_N n) 1
      ∧ CoreBecomes s u n { s.core n with ending := true, waiting := false, inst := (s.core n).inst.map fun (i : KInst) => { i with replaying := false } } := by
  have hp : (s.core n).pcMove x = .stay := by simp [CoreS.pcMove, ho]
  have h1 := ((coreBecomes_modCore s n fun c => { c.enqueue (s.core n) { Bundle.empty with sc := some x } with waiting := false }).mod
    fun c => { c with ending := true, inst := c.inst.map fun (i : KInst) => { i with replaying := false } }).mod
    fun c => { c with pc := (s.core n).pc, umode := (s.core n).umode }
  refine ⟨_, ?_, h1⟩
  unfold State.issueEffect
  simp only [Bundle.empty, hp, hr, ho, PcMove.apply_stay, if_true]

theorem end_issued (hi : Issues s n) : Issued s (s.issueSc n (scWord 0x3F 0 0 0 0)) n
    { s.core n with ending := true, waiting := false, inst := (s.core n).inst.map fun (i : KInst) => { i with replaying := false } } := by
  have he : s.issueSc n (scWord 0x3F 0 0 0 0) = s.issueEffect n { Bundle.empty with sc := some (scWord 0x3F 0 0 0 0) } :=
    s.issue_effect n _ hi rfl (CoreS.regWaits_sc _ _ ⟨fun _ h => (nomatch h), fun _ h => (nomatch h)⟩) rfl fun _ h => (nomatch h)
  obtain ⟨u, hu, hc⟩ := issueEffect_end (s := s) (n := n) (x := scWord 0x3F 0 0 0 0) rfl rfl
  rw [he, hu]
  exact hc.issued

/-- R43: once its queues are empty and its engines idle, the instance that END has marked ends. -/
theorem instanceEnd_eq (hend : (s.core n).ending = true) (hf : (s.core n).fenceDone 7 = true) (hfault : (s.core n).fault = none) (hu : s.unitsRun n = true) :
    s.instanceEnd n = s.endInstance n stOK 0 := by
  unfold State.instanceEnd
  simp [hend, hf, hfault, hu]

end Tb

end Sys2Proof.Machine

namespace Sys2Proof.Safety

open Sys2Proof.Machine

/-- Settles O8: the tile boundary, END, and the end of the instance that it has marked. -/
theorem tileBoundariesAndInstanceEnds : Obligations.TileBoundariesAndInstanceEnds := by
  unfold Obligations.TileBoundariesAndInstanceEnds
  refine ⟨?_, fun n s hi => ⟨_, rfl, end_issued hi⟩, fun n s i hinst hend hf hfault hu => ⟨_, rfl, ?_⟩⟩
  · intro n imm s i hi hinst hf _ hm a ha64 hab hslot hbk hb
    exact ⟨_, rfl, tb_completes hi hinst hf hm rfl ha64 hab hslot hbk hb⟩
  · rw [instanceEnd_eq hend hf hfault hu]
    have hself := s.core_endInstance_self n stOK 0 hinst
    exact ⟨by rw [hself]; rfl, by rw [hself]; rfl, s.coresBut_endInstance n stOK 0 hinst, s.started_endInstance n stOK 0 hinst,
      fun k hk => s.str_endInstance_ne n stOK 0 hinst hk, s.mem_endInstance n stOK 0 hinst⟩

end Sys2Proof.Safety
end

section
/-! SUPPORT. What error records and loads leave alone (R188, R206, R315-R317): the cores, the streams and the registers below the management block. -/

namespace Sys2Proof.Safety

open Sys2Proof.Machine

/-! ### Error records -/

/-- From `s` to `t` records and packets have been made: registers that count them, ring memory, what is held, sent and queued. -/
def Reports (s t : State) : Prop :=
  RegsBut s t reportOffs ∧ (RingsOff s → t.mem = s.mem)
  ∧ ∃ r m er o q b, t = { s with regs := r, mem := m, err := er, outbox := o, tailq := q, tbufs := b }

theorem mgtErrbase_not_report : ∀ r < 9, (Reg.mgtErrbase r).off ∉ reportOffs := by decide

namespace Reports

variable {s t u : State}

theorem refl (s : State) : Reports s s := ⟨RegsBut.refl s _, fun _ => rfl, _, _, _, _, _, _, rfl⟩

theorem ringsOff (h : Reports s t) (hr : RingsOff s) : RingsOff t := fun r hr9 => by
  rw [← hr r hr9]
  unfold State.fbit
  rw [h.1.fget_eq (f := F.mgtErrbase_EN r) (mgtErrbase_not_report r hr9)]

theorem trans (h : Reports s t) (h' : Reports t u) : Reports s u := by
  refine ⟨h.1.trans h'.1, fun hr => (h'.2.1 (h.ringsOff hr)).trans (h.2.1 hr), ?_⟩
  obtain ⟨-, -, r, m, er, o, q, b, rfl⟩ := h
  obtain ⟨-, -, r', m', er', o', q', b', rfl⟩ := h'
  exact ⟨r', m', er', o', q', b', rfl⟩

theorem reported (h : Reports s t) : Reported s t := by
  obtain ⟨h1, h2, r, m, er, o, q, b, rfl⟩ := h
  exact ⟨h1, h2, rfl⟩

end Reports

end Sys2Proof.Safety

namespace Sys2Proof.Machine

open Sys2Proof.Safety

theorem State.reports_tailPkt (s : State) (kind src event die : Nat) (part : Option Nat) (payload : Nat) {bs : List Nat} (hb : ∀ b ∈ bs, b < 9) :
    Reports s (s.tailPkt kind src event die part payload bs) := by
  obtain ⟨-, r, q, b, h⟩ := s.seen_tailPkt kind src event die part payload hb
  exact ⟨s.regsBut_tailPkt kind src event die part payload hb, fun _ => by rw [h], r, _, _, _, q, b, h⟩

theorem State.reports_haloKeep (s : State) (b : Bytes) (cls : Nat) : Reports s (s.haloKeep b cls) := by
  refine ⟨RegsBut.of_regs_eq _ (s.haloKeep_regs b cls), fun _ => ?_, ?_⟩ <;> unfold State.haloKeep <;> split
  · rfl
  · rfl
  · exact ⟨_, _, _, _, _, _, rfl⟩
  · exact ⟨_, _, _, _, _, _, rfl⟩

theorem State.fset_frame (s : State) (f : Fld) (v : Nat) : ∃ r, s.fset f v = { s with regs := r } := ⟨_, rfl⟩

theorem State.fsat_frame (s : State) (f : Fld) (v : Nat) : ∃ r, s.fsat f v = { s with regs := r } := ⟨_, rfl⟩

theorem State.ringWrite_frame (s : State) (r : Nat) (b : Bytes) (cls : Nat) : ∃ x m o, s.ringWrite r b cls = { s with regs := x, mem := m, outbox := o } := by
  unfold State.ringWrite
  dsimp only
  split
  · obtain ⟨x, h⟩ := s.fsat_frame (F.mgtErrstat_LOST r) 1
    exact ⟨x, _, _, h⟩
  · rw [State.setBytes_eq]
    generalize State.mem (s.setBytes _ _) = m
    obtain ⟨x, h⟩ := State.fset_frame { s with mem := m } (F.mgtErrstat_WRITTEN r) (s.fget (F.mgtErrstat_WRITTEN r) + 1)
    rw [h]
    split
    · exact ⟨_, _, _, rfl⟩
    · exact ⟨_, _, _, rfl⟩

theorem State.reports_fsat_lost (s : State) {r : Nat} (hr : r < 9) : Reports s (s.fsat (F.mgtErrstat_LOST r) 1) := by
  have hw := (regsBut_fsat s (F.mgtErrstat_LOST r) 1).mono (by simpa [F.mgtErrstat_LOST] using mem_reportOffs_mgtErrstat hr)
  obtain ⟨x, h⟩ := s.fsat_frame (F.mgtErrstat_LOST r) 1
  rw [h] at hw ⊢
  exact ⟨hw, fun _ => rfl, _, _, _, _, _, _, rfl⟩

/-- An enabled ring takes the record; one that is not enabled is no matter where all are off. -/
theorem State.reports_ringWrite (s : State) {r : Nat} (hr : r < 9) (b : Bytes) (cls : Nat) (hen : s.fbit (F.mgtErrbase_EN r) = true) :
    Reports s (s.ringWrite r b cls) := by
  obtain ⟨x, m, o, h⟩ := s.ringWrite_frame r b cls
  exact ⟨s.regsBut_ringWrite hr b cls, fun hoff => (by rw [hoff r hr] at hen; cases hen), x, m, _, o, _, _, h⟩

theorem State.reports_ring0 (s : State) (b : Bytes) (cls : Nat) : Reports s (s.ring0 b cls) := by
  unfold State.ring0
  split
  · exact s.reports_ringWrite (by decide) b cls ‹_›
  · split
    · exact ⟨RegsBut.of_regs_eq _ rfl, fun _ => rfl, _, _, _, _, _, _, rfl⟩
    · exact s.reports_fsat_lost (by decide)

theorem State.reports_ringPart (s : State) (b : Bytes) (cls : Nat) {p : Nat} (hp : p < 8) : Reports s (s.ringPart b cls p) := by
  unfold State.ringPart
  split
  · exact s.reports_ringWrite (by omega) b cls ‹_›
  · exact s.reports_fsat_lost (by omega)

theorem State.reports_error (s : State) (e : ErrRec) (he : ∀ p, e.part = some p → p < 8) : Reports s (s.error e) := by
  rcases s.error_cases e he with ⟨l, h⟩ | ⟨l, rec', copies, payload, bs, hc, hb, h⟩
  · rw [h]
    exact ⟨RegsBut.of_regs_eq _ rfl, fun _ => rfl, _, _, _, _, _, _, rfl⟩
  · rw [h]
    refine Reports.trans ?_ (State.reports_tailPkt _ _ _ _ _ _ _ hb)
    refine List.foldlRecOn (motive := Reports s) copies _ ?_ fun t ht p hp => ht.trans (t.reports_ringPart _ _ (hc p hp))
    refine Reports.trans ?_ (State.reports_ring0 _ _ _)
    refine Reports.trans ?_ (State.reports_haloKeep _ _ _)
    exact ⟨RegsBut.of_regs_eq _ rfl, fun _ => rfl, _, _, _, _, _, _, rfl⟩

end Sys2Proof.Machine

namespace Sys2Proof.Safety

open Sys2Proof.Machine

/-! ### What stays below the management block -/

/-- From `s` to `t` the cores, the streams, the resets in progress and the registers at the offsets `P` stand. -/
def Still (P : Nat → Prop) (s t : State) : Prop := t.cores = s.cores ∧ t.strs = s.strs ∧ t.resetting = s.resetting ∧ ∀ o, P o → word t o = word s o

namespace Still

variable {P : Nat → Prop} {s t u : State}

theorem refl (s : State) : Still P s s := ⟨rfl, rfl, rfl, fun _ _ => rfl⟩

theorem trans (h : Still P s t) (h' : Still P t u) : Still P s u := by
  obtain ⟨h1, h2, h3, h4⟩ := h
  obtain ⟨h1', h2', h3', h4'⟩ := h'
  exact ⟨h1'.trans h1, h2'.trans h2, h3'.trans h3, fun o ho => (h4' o ho).trans (h4 o ho)⟩

theorem core (h : Still P s t) (n : Nat) : t.core n = s.core n := by unfold State.core; rw [h.1]

theorem str (h : Still P s t) (k : Nat) : t.str k = s.str k := by unfold State.str; rw [h.2.1]

theorem reg (h : Still P s t) {r : Reg} (hr : P r.off) : t.reg r = s.reg r := congrArg BitVec.toNat (h.2.2.2 _ hr)

theorem fget (h : Still P s t) {f : Fld} (hf : P f.reg.off) : t.fget f = s.fget f := by unfold State.fget; rw [h.reg hf]

theorem fold {α : Type} {g : State → α → State} (hg : ∀ t a, Still P t (g t a)) (l : List α) (s : State) : Still P s (l.foldl g s) :=
  List.foldlRecOn (motive := Still P s) l g (refl s) fun t ht a _ => ht.trans (hg t a)

theorem setReg (s : State) {r : Reg} (v : Nat) (hr : ¬ P r.off) : Still P s (s.setReg r v) :=
  ⟨rfl, rfl, rfl, fun _ ho => Sparse.getD_setD_ne _ _ _ fun h => hr (h ▸ ho)⟩

theorem fset (s : State) {f : Fld} (v : Nat) (hf : ¬ P f.reg.off) : Still P s (s.fset f v) := setReg s _ hf

theorem of_reports (h : Reports s t) (hP : ∀ o ∈ reportOffs, ¬ P o) : Still P s t := by
  have hw := h.1
  obtain ⟨-, -, r, m, er, o, q, b, rfl⟩ := h
  exact ⟨rfl, rfl, rfl, fun o ho => hw o fun hm => hP o hm ho⟩

theorem of_seen (h : Seen s t) (hP : ∀ o ∈ lossOffs, ¬ P o) : Still P s t := by
  have hw := h.1
  obtain ⟨-, r, q, b, rfl⟩ := h
  exact ⟨rfl, rfl, rfl, fun o ho => hw o fun hm => hP o hm ho⟩

end Still

/-- The registers below the management block stand. -/
abbrev Quiet (s t : State) : Prop := Still (fun o => o < 0x1b00000) s t

theorem reportOffs_ge : ∀ o ∈ reportOffs, 0x1b00000 ≤ o := by decide

theorem Reports.quiet {s t : State} (h : Reports s t) : Quiet s t := Still.of_reports h fun o ho => Nat.not_lt.mpr (reportOffs_ge o ho)

theorem Seen.quiet {s t : State} (h : Seen s t) : Quiet s t :=
  Still.of_seen h fun o ho => Nat.not_lt.mpr (reportOffs_ge o (List.mem_append_left _ ho))

end Sys2Proof.Safety

namespace Sys2Proof.Machine

open Sys2Proof.Safety

/-! ### A load -/

theorem State.quiet_error (s : State) (e : ErrRec) (he : e.part = none) : Quiet s (s.error e) :=
  (s.reports_error e fun p hp => by rw [he] at hp; cases hp).quiet

theorem State.quiet_setBytes (s : State) (a : Nat) (d : Bytes) : Quiet s (s.setBytes a d) := by
  rw [State.setBytes_eq]
  exact ⟨rfl, rfl, rfl, fun _ _ => rfl⟩

theorem State.quiet_draw (s : State) : Quiet s s.draw.2 := ⟨rfl, rfl, rfl, fun _ _ => rfl⟩

theorem State.quiet_drawLine (s : State) : Quiet s s.drawLine.2 := by
  unfold State.drawLine
  exact List.foldlRecOn (motive := fun p : Bytes × State => Quiet s p.2) (List.range 8) _ (Still.refl s) fun p hp _ _ => hp.trans p.2.quiet_draw

theorem State.quiet_sendSnoop (s : State) (a : Nat) (inv : Bool) : Quiet s (s.sendSnoop a inv) := by
  unfold State.sendSnoop
  dsimp only
  split
  · exact Still.refl s
  · exact ⟨rfl, rfl, rfl, fun _ _ => rfl⟩

theorem State.quiet_setFilter (s : State) (m : Nat) (l : List Nat) : Quiet s (s.setFilter m l) := ⟨rfl, rfl, rfl, fun _ _ => rfl⟩

theorem State.quiet_snoopNow (s : State) (l : Nat) (write : Bool) : Quiet s (s.snoopNow l write) := by
  have h1 : Quiet s ({ s.sendSnoop l write with bisnp := s.bisnp } : State) := (s.quiet_sendSnoop l write).trans ⟨rfl, rfl, rfl, fun _ _ => rfl⟩
  unfold State.snoopNow
  dsimp only
  generalize ({ s.sendSnoop l write with bisnp := s.bisnp } : State) = t at *
  refine h1.trans (Still.trans (Still.trans ?_ (State.quiet_setFilter _ _ _)) (State.quiet_setBytes _ _ _))
  split
  · exact t.quiet_draw.trans (State.quiet_drawLine _)
  · exact t.quiet_draw

theorem State.quiet_hostEvict (s : State) (l : Nat) : Quiet s (s.hostEvict l) := by
  unfold State.hostEvict
  split
  · exact Still.refl s
  · dsimp only
    split <;> exact ⟨rfl, rfl, rfl, fun _ _ => rfl⟩

theorem State.quiet_hostRoom (s : State) (l : Nat) : Quiet s (s.hostRoom l) := by
  unfold State.hostRoom
  dsimp only
  split
  · exact Still.refl s
  · exact s.quiet_draw.trans (State.quiet_hostEvict _ _)

theorem State.quiet_hostLine (s : State) (l : Nat) (write whole : Bool) : Quiet s (s.hostLine l write whole) := by
  unfold State.hostLine
  split
  · split
    · exact ⟨rfl, rfl, rfl, fun _ _ => rfl⟩
    · exact Still.refl s
  · dsimp only
    refine (s.quiet_hostRoom l).trans ?_
    generalize s.hostRoom l = t
    split
    · exact ⟨rfl, rfl, rfl, fun _ _ => rfl⟩
    · refine Still.trans ?_ (State.quiet_setBytes _ _ _)
      refine Still.trans ?_ (State.quiet_drawLine _)
      exact ⟨rfl, rfl, rfl, fun _ _ => rfl⟩

theorem State.quiet_poisonSeen (s : State) (who : Asker) (a : Nat) : Quiet s (s.poisonSeen who a) := by
  unfold State.poisonSeen
  split
  · refine Still.trans ?_ (State.quiet_error _ _ rfl)
    exact Still.fset _ _ (by simp only [F.memMchEcc_POISON, Reg.off]; omega)
  · exact Still.refl s

theorem State.quiet_mixBytes (s : State) (a : Nat) (d : Bytes) : Quiet s (s.mixBytes a d).2 := by
  induction d generalizing s a with
  | nil => exact Still.refl s
  | cons b d ih =>
    refine Still.trans ?_ (ih (s.mixByte a b).2 (a + 1))
    unfold State.mixByte
    split
    · exact Still.refl s
    · exact s.quiet_draw

theorem quiet_of_touched {s t : State} (h : Touched s t) : Quiet s t := by
  obtain ⟨a, b, c, d, e, rfl⟩ := h
  exact ⟨rfl, rfl, rfl, fun _ _ => rfl⟩

theorem State.quiet_grant (s : State) (t u r : Nat) : Quiet s (s.grant t u r) := ⟨rfl, rfl, rfl, fun _ _ => rfl⟩

theorem spaceOf_ne_stack {a : Nat} (h : 0xC000000000 ≤ a) (x : Nat) : spaceOf a ≠ .stack x := by
  intro hx
  unfold spaceOf at hx
  rw [if_neg (Nat.not_lt.mpr h)] at hx
  repeat' split at hx
  all_goals cases hx

theorem State.quiet_touch (s : State) (l : Nat) (write whole narrow : Bool) : Quiet s (s.touch l write whole narrow) := by
  by_cases hl : l < 0xC000000000
  · exact quiet_of_touched (s.touch_touched hl write whole narrow)
  · unfold State.touch
    split
    · exact absurd ‹_› (spaceOf_ne_stack (Nat.le_of_not_lt hl) _)
    · exact s.quiet_grant _ _ _
    · unfold State.bankLines
      exact Still.fold (fun t i => t.quiet_grant _ _ _) _ s
    · exact Still.refl s

theorem State.quiet_load (s : State) (who : Asker) (a len : Nat) (narrow : Bool) : Quiet s (s.load who a len narrow).2.2 := by
  unfold State.load
  refine (Still.fold (fun t l => t.quiet_snoopNow l false) (s.snoopLines a len false) s).trans ?_
  generalize (s.snoopLines a len false).foldl (fun s l => s.snoopNow l false) s = t
  unfold State.loadHome
  dsimp only
  split
  · exact Still.refl t
  have h1 : Quiet t (if isHost a then (lines64 a len).foldl (fun s l => s.hostLine l false false) t else t) := by
    split
    · exact Still.fold (fun t l => t.quiet_hostLine l false false) _ t
    · exact Still.refl t
  generalize (if isHost a then (lines64 a len).foldl (fun s l => s.hostLine l false false) t else t) = u at *
  have h2 : Quiet u (if (u.read a len).1 = stPoison then ((lines64 a len).filter u.poisonedAt).foldl (fun s l => s.poisonSeen who l) u else u) := by
    split
    · exact Still.fold (fun t l => t.quiet_poisonSeen who l) _ u
    · exact Still.refl u
  generalize (if (u.read a len).1 = stPoison then ((lines64 a len).filter u.poisonedAt).foldl (fun s l => s.poisonSeen who l) u else u) = v at *
  have h3 : Quiet v (if (u.read a len).1 = stOutOfBounds then v else (lines64 a len).foldl (fun s l => s.touch l false false narrow) v) := by
    split
    · exact Still.refl v
    · exact Still.fold (fun t l => t.quiet_touch l false false narrow) _ v
  generalize (if (u.read a len).1 = stOutOfBounds then v else (lines64 a len).foldl (fun s l => s.touch l false false narrow) v) = w at *
  refine h1.trans (h2.trans (h3.trans ?_))
  split
  · exact w.quiet_mixBytes _ _
  · exact Still.refl w

end Sys2Proof.Machine
end

section
/-! SUPPORT. The fence of a core (R69, R72, R411) and the reserve cores after it. -/

namespace Sys2Proof.Machine

open Sys2Proof.Safety

/-! ### The floor plan -/

theorem bitAt_eq (n i : Nat) : bitAt n i = decide (bitsOf n i i = 1) := by
  unfold bitAt bitsOf
  rw [Nat.add_sub_cancel_left, pow_one]

theorem State.fpBit_fpSet_self (s : State) (off u : Nat) (b : Bool) : (s.fpSet off u b).fpBit off u = b := by
  have hlt : setBit (s.reg (.bootFloorplan ((off * 8 + u) / 64))) ((off * 8 + u) % 64) b < 2 ^ 64 :=
    setBits_lt _ _ (s.reg_lt _) (Nat.mod_lt _ (by decide))
  unfold State.fpSet State.fpBit
  rw [State.reg_setReg_of_lt _ _ hlt, bitAt_eq, setBit, bitsOf_setBits_self, Nat.add_sub_cancel_left]
  cases b <;> rfl

theorem State.fpBit_fpSet_ne (s : State) (off : Nat) {u v : Nat} (b : Bool) (h : v ≠ u) : (s.fpSet off u b).fpBit off v = s.fpBit off v := by
  unfold State.fpSet State.fpBit
  by_cases hw : (off * 8 + v) / 64 = (off * 8 + u) / 64
  · have hlt : setBit (s.reg (.bootFloorplan ((off * 8 + u) / 64))) ((off * 8 + u) % 64) b < 2 ^ 64 :=
      setBits_lt _ _ (s.reg_lt _) (Nat.mod_lt _ (by decide))
    rw [hw, State.reg_setReg_of_lt _ _ hlt, bitAt_eq, bitAt_eq, setBit, bitsOf_setBits_of_disjoint _ _ (by omega)]
  · rw [State.reg_setReg_ne _ _ (by simp only [Reg.off]; omega)]

end Sys2Proof.Machine

namespace Sys2Proof.Safety

open Sys2Proof.Machine

/-- The registers that the fence of core `n` leaves alone beside the bit of core `n` itself: those below the management block, CORE_ERR of `n` apart, and the words of the floor plan that tell the good cores. -/
def Standing (n o : Nat) : Prop :=
  o < 0x1b00000 ∧ o ≠ (Reg.coreErr n).off ∨ 0x1eb1008 ≤ o ∧ o < 0x1eb1038

theorem reportOffs_not_floorplan : ∀ o ∈ reportOffs, ¬ (0x1eb1008 ≤ o ∧ o < 0x1eb1038) := by decide

theorem reportOffs_not_standing (n : Nat) : ∀ o ∈ reportOffs, ¬ Standing n o := fun o ho h => by
  have h1 := reportOffs_ge o ho
  have h2 := reportOffs_not_floorplan o ho
  unfold Standing at h
  omega

theorem Still.coreGood {n r : Nat} {s t : State} (h : Still (Standing n) s t) (hr : r < 384) : t.coreGood r = s.coreGood r := by
  unfold State.coreGood State.fpBit
  have hw : Standing n (Reg.bootFloorplan ((8 * 8 + r) / 64)).off := by
    unfold Standing
    simp only [Reg.off]
    omega
  rw [show t.reg (.bootFloorplan ((8 * 8 + r) / 64)) = s.reg (.bootFloorplan ((8 * 8 + r) / 64)) from congrArg BitVec.toNat (h.2.2.2 _ hw)]

end Sys2Proof.Safety

namespace Sys2Proof.Machine

open Sys2Proof.Safety

theorem State.still_error (s : State) (e : ErrRec) (he : e.part = none) (n : Nat) : Still (Standing n) s (s.error e) :=
  .of_reports (s.reports_error e fun p hp => by rw [he] at hp; cases hp) (reportOffs_not_standing n)

theorem not_standing_coreErr (n : Fin 384) : ¬ Standing n (Reg.coreErr n).off := fun h =>
  h.elim (fun h => h.2 rfl) fun h => by simp only [Reg.off] at h; omega

theorem State.still_coreErr (s : State) (n : Fin 384) (code : Nat) : Still (Standing n) s (s.coreErr n code) := by
  unfold State.coreErr
  split
  · exact .fset s 1 (not_standing_coreErr n)
  · exact .setReg s _ (not_standing_coreErr n)

theorem not_standing_bootFloorplan (n : Nat) {w : Nat} (hw : w = 0 ∨ 7 ≤ w) : ¬ Standing n (Reg.bootFloorplan w).off := by
  unfold Standing
  simp only [Reg.off]
  omega

theorem State.still_fpPut (s : State) (n len v : Nat) {off : Nat} (h : off < 8 ∨ 56 ≤ off) : Still (Standing n) s (s.fpPut off len v) :=
  .setReg s _ (not_standing_bootFloorplan n (by omega))

theorem State.still_fpCount (s : State) (n : Nat) : Still (Standing n) s s.fpCount := s.still_fpPut n 2 _ (by decide)

theorem State.still_fpStamp (s : State) (n : Nat) : Still (Standing n) s (s.fpStamp true) := by
  unfold State.fpStamp
  rw [if_pos rfl]
  dsimp only
  refine Still.trans ?_ (Still.fold (fun t i => .setReg t _ (not_standing_bootFloorplan n (by omega))) _ _)
  refine Still.trans ?_ (State.still_fpPut _ n 8 _ (by decide))
  exact s.still_fpPut n 2 _ (by decide)

theorem State.still_flashPut (s : State) (a : Nat) (b : Bytes) (P : Nat → Prop) : Still P s (s.flashPut a b) := ⟨rfl, rfl, rfl, fun _ _ => rfl⟩

theorem not_standing_bootFdr (n w : Nat) : ¬ Standing n (Reg.bootFdr w).off := by
  unfold Standing
  simp only [Reg.off]
  omega

theorem not_standing_bootStatus (n : Nat) : ¬ Standing n Reg.bootStatus.off := by
  unfold Standing
  simp only [Reg.off]
  omega

theorem State.still_fdrAppend (s : State) (unit kind code detail n : Nat) : Still (Standing n) s (s.fdrAppend unit kind code detail) := by
  unfold State.fdrAppend
  split
  · exact Still.refl s
  dsimp only
  split
  · exact s.still_error _ rfl n
  · refine Still.trans ?_ (.fset _ _ (not_standing_bootStatus n))
    refine Still.trans ?_ (Still.fold (fun t w => .setReg t _ (not_standing_bootFdr n _)) _ _)
    exact s.still_flashPut _ _ _

end Sys2Proof.Machine

namespace Sys2Proof.Safety

open Sys2Proof.Machine

/-- From `s` to `t` core `n` has been taken out of service (R69, R72): it has only its mark, CORE_FENCE reads 1, the floor plan has lost it alone, and no other core, stream, reset in progress or register below the management block is touched. -/
structure Fenced (s t : State) (n : Nat) : Prop where
  self : t.core n = { s.core n with fenced := true }
  cores : CoresBut s t n
  strs : t.strs = s.strs
  resetting : t.resetting = s.resetting
  fence : t.fbit (F.coreFence_FENCE n) = true
  bad : t.coreGood n = false
  good : ∀ r < 384, r ≠ n → t.coreGood r = s.coreGood r
  regs : ∀ r : Reg, r.off < 0x1b00000 → r.off ≠ (Reg.coreErr n).off → r.off ≠ (Reg.coreFence n).off → t.reg r = s.reg r

end Sys2Proof.Safety

namespace Sys2Proof.Machine

open Sys2Proof.Safety

theorem State.core_fpSet (s : State) (off u : Nat) (b : Bool) (n : Nat) : (s.fpSet off u b).core n = s.core n := rfl

/-- The good cores' words of the floor plan are no register below the management block. -/
theorem State.reg_fpSet (s : State) {n : Nat} (b : Bool) {r : Reg} (hr : r.off < 0x1b00000) : (s.fpSet 8 n b).reg r = s.reg r :=
  State.reg_setReg_ne _ _ (by simp only [Reg.off] at hr ⊢; omega)

theorem State.fget_fpSet (s : State) {n : Nat} (b : Bool) {f : Fld} (hf : f.reg.off < 0x1b00000) : (s.fpSet 8 n b).fget f = s.fget f := by
  unfold State.fget
  rw [s.reg_fpSet b hf]

theorem State.coreGood_fset (s : State) {f : Fld} (v : Nat) (hf : f.reg.off < 0x1b00000) (r : Nat) : (s.fset f v).coreGood r = s.coreGood r := by
  unfold State.coreGood State.fpBit
  rw [State.reg_fset_ne _ _ (by simp only [Reg.off] at hf ⊢; omega)]

/-- What ends R69's first step: the floor plan loses the core, is counted and stamped, and the field defect record takes it. -/
theorem State.still_plan (s : State) (n code : Nat) : Still (Standing n) (s.fpSet 8 n false) (((s.fpSet 8 n false).fpCount.fpStamp true).fdrAppend (unitCore n) 1 code 0) :=
  ((State.still_fpCount _ n).trans (State.still_fpStamp _ n)).trans (State.still_fdrAppend _ _ 1 code 0 n)

/-- The fence of a core whose error has been recorded. -/
theorem State.fenced_fenceCore {s u : State} {n : Fin 384} (hs : Still (Standing n) s u) (code : Nat) : Fenced s (u.fenceCore n code) n := by
  have hn := n.isLt
  have hf : Standing n (Reg.coreFence n).off ∧ (Reg.coreFence n).off < 0x1b00000 := by
    unfold Standing
    simp only [Reg.off]
    omega
  have hfence : (u.fset (F.coreFence_FENCE n) 1).fget (F.coreFence_FENCE n) = 1 := State.fget_fset_self _ _ _ (Nat.succ_pos _)
  have hreg : ∀ r : Reg, r.off ≠ (Reg.coreFence n).off → (u.fset (F.coreFence_FENCE n) 1).reg r = u.reg r := fun r hr => State.reg_fset_ne _ _ hr
  have hgood : ∀ r, (u.fset (F.coreFence_FENCE n) 1).coreGood r = u.coreGood r := State.coreGood_fset u 1 hf.2
  obtain ⟨rs, hu⟩ := u.fset_frame (F.coreFence_FENCE n) 1
  unfold State.fenceCore
  dsimp only
  generalize hv : u.fset (F.coreFence_FENCE n) 1 = v at *
  have hlast := (v.modCore n fun c => { c with fenced := true }).still_plan n code
  have hcore : ∀ m, v.core m = s.core m := fun m => by rw [hu, ← hs.core]; rfl
  refine ⟨?_, fun m hm => ?_, ?_, ?_, ?_, ?_, fun r hr hrn => ?_, fun r hr h1 h2 => ?_⟩
  · rw [hlast.core, State.core_fpSet, State.core_modCore_self, hcore]
  · rw [hlast.core, State.core_fpSet, State.core_modCore_ne _ _ hm, hcore]
  · rw [hlast.2.1, ← hs.2.1, hu]
    rfl
  · rw [hlast.2.2.1, ← hs.2.2.1, hu]
    rfl
  · rw [State.fbit, hlast.fget hf.1, State.fget_fpSet _ _ hf.2, State.fget_modCore, hfence]
    rfl
  · rw [hlast.coreGood hn]
    exact State.fpBit_fpSet_self _ _ _ _
  · rw [hlast.coreGood hr, ← hs.coreGood hr, ← hgood]
    exact State.fpBit_fpSet_ne _ _ _ hrn
  · have hst : Standing n r.off := Or.inl ⟨hr, h1⟩
    rw [hlast.reg hst, ← hs.reg hst, State.reg_fpSet _ _ hr, State.reg_modCore, hreg r h2]

end Sys2Proof.Machine

namespace Sys2Proof.Safety

open Sys2Proof.Machine

/-! ### The reserve cores -/

theorem Fenced.fget {s t : State} {n : Nat} (h : Fenced s t n) {f : Fld} (hr : f.reg.off < 0x1b00000) (h1 : f.reg.off ≠ (Reg.coreErr n).off)
    (h2 : f.reg.off ≠ (Reg.coreFence n).off) : t.fget f = s.fget f := by
  unfold State.fget
  rw [h.regs _ hr h1 h2]

section Reserves

variable {s t : State} {n : Fin 384} (h : Fenced s t n)
include h

theorem Fenced.vcount {p : Nat} (hp : p < 8) : t.vcount p = s.vcount p := by
  have hn := n.isLt
  refine h.fget ?_ ?_ ?_ <;> simp only [F.coreVcfg_VCOUNT, Reg.off] <;> omega

/-- The map of a partition has 512 entries at most, all outside the cores' blocks. -/
theorem Fenced.vmap {p : Nat} (hp : p < 8) (v : Nat) : t.vmap p v = s.vmap p v := by
  have hn := n.isLt
  have hc : s.vcount p < 512 := bitsOf_lt _ 8 0
  unfold State.vmap
  rw [h.vcount hp]
  by_cases hv : v < s.vcount p
  · have hreg : t.reg (.coreVmap p v) = s.reg (.coreVmap p v) := by
      refine h.regs _ ?_ ?_ ?_ <;> simp only [Reg.off] <;> omega
    have hf : ∀ hi lo, t.fget ⟨.coreVmap p v, hi, lo⟩ = s.fget ⟨.coreVmap p v, hi, lo⟩ := fun hi lo => congrArg (bitsOf · hi lo) hreg
    unfold State.fbit F.coreVmap_VALID F.coreVmap_PCORE
    rw [hf, hf]
  · simp only [hv, false_and, if_false]

theorem Fenced.coreFence {r : Nat} (hr : r < 384) (hrn : r ≠ n) : t.fbit (F.coreFence_FENCE r) = s.fbit (F.coreFence_FENCE r) := by
  have hn := n.isLt
  unfold State.fbit
  rw [h.fget] <;> simp only [F.coreFence_FENCE, Reg.off] <;> omega

/-- The fence takes no core from the reserves, for a core that ran an instance was none (R61, R62). -/
theorem Fenced.reserves {i : KInst} (hi : (s.core n).inst = some i) {p : Nat} (hp : p < 8) : t.reserves p = s.reserves p := by
  have hn := n.isLt
  unfold State.reserves
  have hmap : t.vmap p = s.vmap p := funext (h.vmap hp)
  have hcl : t.fget (F.prtCfg_CLUSTERS p) = s.fget (F.prtCfg_CLUSTERS p) := by
    refine h.fget ?_ ?_ ?_ <;> simp only [F.prtCfg_CLUSTERS, Reg.off] <;> omega
  rw [h.vcount hp, hmap, hcl, h.resetting]
  refine List.filter_congr fun r hr => ?_
  by_cases hrn : r = n
  · rw [hrn, h.self, hi]
    simp only [Option.isNone_some, Bool.and_false, Bool.false_and]
  · have hr := List.mem_range.mp hr
    rw [h.good r hr hrn, h.coreFence hr hrn, h.cores r hrn]

theorem Fenced.pickReserve {i : KInst} (hi : (s.core n).inst = some i) {p : Nat} (hp : p < 8) (m : Nat) : t.pickReserve p m = s.pickReserve p m := by
  unfold State.pickReserve
  rw [h.reserves hi hp]

end Reserves

end Sys2Proof.Safety

namespace Sys2Proof.Machine

open Sys2Proof.Safety

/-- The reserve core chosen is one of the partition's (R69). -/
theorem State.mem_reserves_of_pickReserve {s : State} {p n r : Nat} (h : s.pickReserve p n = some r) : r ∈ s.reserves p := by
  unfold State.pickReserve at h
  dsimp only at h
  split at h
  · cases h
    exact List.mem_of_find?_eq_some ‹_›
  · exact List.mem_of_head? h

theorem State.pickReserve_nil {s : State} {p n : Nat} (h : s.reserves p = []) : s.pickReserve p n = none := by
  unfold State.pickReserve
  rw [h]
  rfl

theorem State.of_mem_reserves {s : State} {p r : Nat} (h : r ∈ s.reserves p) : r < 384 ∧ (s.core r).inst = none := by
  unfold State.reserves at h
  simp only [List.mem_filter, List.mem_range, Bool.and_eq_true, Option.isNone_iff_eq_none] at h
  exact ⟨h.1, h.2.1.2⟩

end Sys2Proof.Machine
end

section
/-! SUPPORT. A replay on a reserve core (R69). -/

namespace Sys2Proof.Safety

open Sys2Proof.Machine

/-! ### What a replay leaves alone -/

/-- The registers in the cores' blocks and the map of virtual cores, CORE_ERR and CORE_DBG of core `r` apart. -/
def Kept (r o : Nat) : Prop := 0x1000000 ≤ o ∧ o < 0x1200000 ∧ o ≠ (Reg.coreErr r).off ∧ o ≠ (Reg.coreDbg r).off

/-- From `s` to `t` every core but `r` and the registers that a replay on it keeps stand. -/
def Beside (r : Nat) (s t : State) : Prop := CoresBut s t r ∧ ∀ o, Kept r o → word t o = word s o

namespace Beside

variable {r : Nat} {s t u : State}

theorem trans (h : Beside r s t) (h' : Beside r t u) : Beside r s u :=
  ⟨fun m hm => (h'.1 m hm).trans (h.1 m hm), fun o ho => (h'.2 o ho).trans (h.2 o ho)⟩

theorem of_still {P : Nat → Prop} (h : Still P s t) (hP : ∀ o, Kept r o → P o) : Beside r s t := ⟨fun m _ => h.core m, fun o ho => h.2.2.2 o (hP o ho)⟩

theorem refl (s : State) : Beside r s s := of_still (P := Kept r) (.refl s) fun _ h => h

theorem setReg (s : State) {q : Reg} (v : Nat) (h : ¬ Kept r q.off) : Beside r s (s.setReg q v) := of_still (.setReg s v h) fun _ h => h

theorem fset (s : State) {f : Fld} (v : Nat) (h : ¬ Kept r f.reg.off) : Beside r s (s.fset f v) := setReg s _ h

theorem modCore (s : State) (f : CoreS → CoreS) : Beside r s (s.modCore r f) := ⟨fun _ hm => State.core_modCore_ne _ _ hm, fun _ _ => rfl⟩

theorem clearReg (s : State) {q : Reg} (h : ¬ Kept r q.off) : Beside r s (s.clearReg q) :=
  ⟨fun _ _ => rfl, fun _ ho => Sparse.getD_erase_ne _ _ fun he => h (he ▸ ho)⟩

theorem of_quiet (h : Quiet s t) : Beside r s t := of_still h fun o ho => by
  unfold Kept at ho
  omega

theorem reg (h : Beside r s t) {q : Reg} (hq : Kept r q.off) : t.reg q = s.reg q := congrArg BitVec.toNat (h.2 _ hq)

theorem fget (h : Beside r s t) {f : Fld} (hf : Kept r f.reg.off) : t.fget f = s.fget f := by unfold State.fget; rw [h.reg hf]

end Beside

theorem not_kept {r o : Nat} (h : o < 0x1000000 ∨ 0x1200000 ≤ o ∨ o = (Reg.coreErr r).off ∨ o = (Reg.coreDbg r).off) : ¬ Kept r o := by
  unfold Kept
  omega

end Sys2Proof.Safety

namespace Sys2Proof.Machine

open Sys2Proof.Safety

variable (s : State) (r : Nat)

theorem State.still_modSec (p : Nat) (f : SecPart → SecPart) (P : Nat → Prop) : Still P s (s.modSec p f) := ⟨rfl, rfl, rfl, fun _ _ => rfl⟩

theorem State.quiet_remeasure (p : Nat) : Quiet s (s.remeasure p) := by
  unfold State.remeasure
  split
  · exact s.still_modSec _ _ _
  · exact Still.refl s

theorem State.beside_takeUcode : Beside r s (s.takeUcode r) := by
  unfold State.takeUcode
  split
  · split
    · unfold State.putUcode
      exact Beside.trans (Beside.of_quiet ⟨rfl, rfl, rfl, fun _ _ => rfl⟩) (Beside.modCore _ _)
    · exact Beside.refl s
  · exact Beside.refl s

theorem State.beside_tailCore (n j event payload : Nat) : Beside r s (s.tailCore n j event payload) := .of_quiet (s.seen_tailCore n j event payload).quiet

theorem State.beside_coreErr (code : Nat) : Beside r s (s.coreErr r code) := by
  have h : ¬ Kept r (Reg.coreErr r).off := not_kept (by omega)
  unfold State.coreErr
  split
  · exact .fset s 1 h
  · exact .setReg s _ h

theorem State.beside_endInstance (status detail : Nat) {i : KInst} (hi : (s.core r).inst = some i) : Beside r s (s.endInstance r status detail) := by
  refine ⟨s.coresBut_endInstance r status detail hi, fun o ho => s.regsBut_endInstance r status detail hi o fun hm => ?_⟩
  have := reportOffs_ge o (List.mem_append_left _ hm)
  unfold Kept at ho
  omega

/-- The replay meets poison: the reserve core is free again. -/
theorem State.replayPoison_ends (i : KInst) : Beside r s (s.replayPoison r i) ∧ ((s.replayPoison r i).core r).inst = none := by
  unfold State.replayPoison State.poisonConsumed
  dsimp only
  have h0 : Beside r s (s.modCore r fun c => { c.fresh with inst := some i }) := .modCore s _
  have hi : ((s.modCore r fun c => { c.fresh with inst := some i }).core r).inst = some i := by rw [State.core_modCore_self]
  generalize (s.modCore r fun c => { c.fresh with inst := some i }) = t at *
  have h1 := t.quiet_error { unit := unitCore r, code := 0x25, cls := 1, stream := ((t.core r).inst.map (·.stream)).getD 0, seq := ((t.core r).inst.map (·.seq)).getD 0 } rfl
  generalize t.error { unit := unitCore r, code := 0x25, cls := 1, stream := ((t.core r).inst.map (·.stream)).getD 0, seq := ((t.core r).inst.map (·.seq)).getD 0 } = u at *
  have h2 := u.beside_coreErr r 0x25
  obtain ⟨rs, hc⟩ := u.coreErr_regs r 0x25
  have hi' : ((u.coreErr r 0x25).core r).inst = some i := by
    rw [hc]
    exact (congrArg CoreS.inst (h1.core r)).trans hi
  refine ⟨((h0.trans (.of_quiet h1)).trans h2).trans (State.beside_endInstance _ r _ _ hi'), ?_⟩
  rw [State.core_endInstance_self _ _ _ _ hi']
  rfl

/-! ### The start of the instance -/

theorem State.core_clearReg (q : Reg) (n : Nat) : (s.clearReg q).core n = s.core n := rfl

theorem CoreS.setReg_inst (c : CoreS) (i : Nat) (v : Word) : (c.setReg i v).inst = c.inst := by
  unfold CoreS.setReg
  split <;> rfl

theorem CoreS.restore_inst (c : CoreS) (b : Bytes) : (c.restore b).inst = c.inst := by
  unfold CoreS.restore
  dsimp only
  refine List.foldlRecOn (motive := fun d : CoreS => d.inst = c.inst) (List.range 64) _ ?_ fun d hd _ _ => hd
  refine List.foldlRecOn (motive := fun d : CoreS => d.inst = c.inst) (List.range 16) _ ?_ fun d hd _ _ => hd
  exact List.foldlRecOn (motive := fun d : CoreS => d.inst = c.inst) (List.range 48) _ rfl fun d hd _ _ => (d.setReg_inst _ _).trans hd

theorem State.beside_startInstance {r : Nat} (hr : r < 384) (i : KInst) : Beside r s (s.startInstance r i) := by
  have hcnt : ∀ q ∈ [Reg.cntCbund r, .cntCstall r, .cntCrows r, .cntCtag r, .vxeFlags r, .mxeCtl r], ¬ Kept r q.off := by
    simp only [List.forall_mem_cons, Reg.off]
    refine ⟨?_, ?_, ?_, ?_, ?_, ?_, fun _ h => nomatch h⟩ <;> exact not_kept (by omega)
  simp only [List.forall_mem_cons] at hcnt
  obtain ⟨hb, hs, hc, ht, hf, hm, -⟩ := hcnt
  unfold State.startInstance
  dsimp only
  refine Beside.trans ?_ (State.beside_tailCore _ r _ _ _ _)
  refine Beside.trans (Beside.trans ?_ (.fset _ _ ht)) (.fset _ _ ht)
  refine Beside.trans (Beside.trans ?_ (.clearReg _ hf)) (.clearReg _ hm)
  refine Beside.trans (Beside.trans (Beside.trans ?_ (.clearReg _ hb)) (.clearReg _ hs)) (.clearReg _ hc)
  exact .modCore s _

theorem State.startInstance_core (i : KInst) : ((s.startInstance r i).core r).inst = some i ∧ ((s.startInstance r i).core r).pc = i.entry := by
  unfold State.startInstance
  dsimp only
  rw [(State.seen_tailCore _ _ _ _ _).core, State.core_fset, State.core_fset]
  simp only [State.core_clearReg, State.core_modCore_self, CoreS.setReg_inst, CoreS.setReg_pc, and_self]

/-! ### A halt -/

theorem reportOffs_not_kept : ∀ o ∈ reportOffs, ¬ Kept r o := fun o ho => not_kept (by have := reportOffs_ge o ho; omega)

theorem State.still_debugTouchCore (n : Nat) : Still (Kept r) s (s.debugTouchCore n) := by
  unfold State.debugTouchCore
  split
  · rename_i p _
    unfold State.debugTouch
    split
    · refine Still.trans ?_ (.fset _ _ (not_kept (by simp only [F.prtStat_DEBUG_TOUCHED, Reg.off]; omega)))
      unfold State.sealedDebug
      split
      · exact Still.refl s
      · refine (s.still_modSec p _ _).trans (.of_reports (State.reports_error _ _ fun q hq => ?_) (reportOffs_not_kept r))
        cases hq
    · exact Still.refl s
  · exact Still.refl s

/-- A halt changes no other core, and neither the instance nor the PC of its own (R466). -/
theorem State.haltCore_runs (cause bk : Nat) :
    Beside r s (s.haltCore r cause bk) ∧ ((s.haltCore r cause bk).core r).inst = (s.core r).inst ∧ ((s.haltCore r cause bk).core r).pc = (s.core r).pc := by
  have hd : ¬ Kept r (Reg.coreDbg r).off := not_kept (by omega)
  have h1 : Still (Kept r) s (((s.fset (F.coreDbg_HALTED r) 1).fset (F.coreDbg_CAUSE r) cause).fset (F.coreDbg_BKHIT r) bk) :=
    ((Still.fset s _ hd).trans (.fset _ _ hd)).trans (.fset _ _ hd)
  unfold State.haltCore
  dsimp only
  generalize (((s.fset (F.coreDbg_HALTED r) 1).fset (F.coreDbg_CAUSE r) cause).fset (F.coreDbg_BKHIT r) bk) = t at *
  have h2 := h1.trans (t.still_debugTouchCore r r)
  generalize t.debugTouchCore r = u at *
  have h3 := u.seen_tailCore r 0 0x05 (cause + (t.core r).pc * 65536)
  generalize u.tailCore r 0 0x05 (cause + (t.core r).pc * 65536) = v at *
  refine ⟨((Beside.of_still h2 fun _ h => h).trans (.of_quiet h3.quiet)).trans (.modCore v _), ?_⟩
  rw [State.core_modCore_self, h3.core, h2.core]
  exact ⟨rfl, rfl⟩

end Sys2Proof.Machine

namespace Sys2Proof.Safety

open Sys2Proof.Machine

/-! ### The replay -/

/-- What a core that runs an instance after a replay of `i` runs: `i`, replayed once more, from its entry or its checkpoint (R69). -/
def Replayed (i : KInst) (c : CoreS) : Prop :=
  ∀ j, c.inst = some j → j.part = i.part ∧ j.vcore = i.vcore ∧ j.seq = i.seq ∧ j.replays = i.replays + 1 ∧ j.replaying = true
    ∧ c.pc = if i.valid = none then i.entry else i.restore

theorem Replayed.of_none {i : KInst} {c : CoreS} (h : c.inst = none) : Replayed i c := fun j hj => by rw [h] at hj; cases hj

theorem Replayed.of_eq {i : KInst} {c d : CoreS} (h : Replayed i c) (hi : d.inst = c.inst) (hp : d.pc = c.pc) : Replayed i d := fun j hj => by
  rw [hp]
  exact h j (hi ▸ hj)

end Sys2Proof.Safety

namespace Sys2Proof.Machine

open Sys2Proof.Safety

variable (s : State) (r : Nat)

/-- The instance as it runs on after one more replay, `rpc` the PC of its checkpoint. -/
def KInst.again (i : KInst) (rpc : Nat) : KInst := { i with replays := i.replays + 1, faultsTB := i.faultsTB + 1, replaying := true, rpc := rpc }

theorem replayed_again {i : KInst} {c : CoreS} {rpc : Nat} (hi : c.inst = some (i.again rpc)) (hp : c.pc = if i.valid = none then i.entry else i.restore) :
    Replayed i c := fun j hj => by
  rw [hi] at hj
  cases hj
  exact ⟨rfl, rfl, rfl, rfl, rfl, hp⟩

/-- The last of R69's steps: the counts of arrivals and signals move, a REPLAY event leaves, and the reserve core halts where the old one was halted. -/
def State.replayLast (s : State) (r : Nat) (i : KInst) (old : CoreS) (halted : Bool) : State :=
  let s := s.modCore r fun c => { c with barCnt := old.barCnt, barRep := 0, barFin := old.barFin, remCnt := old.remCnt, remRep := 0 }
  let s := s.tailCore r 0 0x06 (r + (i.replays + 1) % 256 * 65536)
  if halted then s.haltCore r 1 0 else s

theorem State.replayLast_runs (i : KInst) (old : CoreS) (halted : Bool) (h : Replayed i (s.core r)) :
    Beside r s (s.replayLast r i old halted) ∧ Replayed i ((s.replayLast r i old halted).core r) := by
  unfold State.replayLast
  dsimp only
  generalize ht : (s.modCore r fun c => { c with barCnt := old.barCnt, barRep := 0, barFin := old.barFin, remCnt := old.remCnt, remRep := 0 }) = t
  have h1 : Beside r s t := ht ▸ .modCore s _
  have hc : Replayed i (t.core r) := by
    rw [← ht, State.core_modCore_self]
    exact h.of_eq rfl rfl
  have h2 := t.seen_tailCore r 0 0x06 (r + (i.replays + 1) % 256 * 65536)
  generalize t.tailCore r 0 0x06 (r + (i.replays + 1) % 256 * 65536) = u at *
  have h3 : Beside r s u := h1.trans (.of_quiet h2.quiet)
  rw [← h2.core] at hc
  split
  · obtain ⟨hb, hi, hp⟩ := u.haltCore_runs r 1 0
    exact ⟨h3.trans hb, hc.of_eq hi hp⟩
  · exact ⟨h3, hc⟩

/-- A core restored from a checkpoint that goes on at `pc`. -/
def CoreS.resumed (c : CoreS) (ck : Bytes) (pc : Nat) : CoreS := { c.restore ck with pc := pc }

theorem CoreS.resumed_inst (c : CoreS) (ck : Bytes) (pc : Nat) : (c.resumed ck pc).inst = c.inst := by
  have h := c.restore_inst ck
  unfold CoreS.resumed
  generalize c.restore ck = d at *
  exact h

theorem CoreS.resumed_pc (c : CoreS) (ck : Bytes) (pc : Nat) : (c.resumed ck pc).pc = pc := rfl

/-- The instance starts and is restored from its checkpoint. -/
def State.resumeOn (s : State) (r : Nat) (i : KInst) (rpc : Nat) (ck : Bytes) : State :=
  (s.startInstance r (i.again rpc)).modCore r fun c => c.resumed ck i.restore

/-- The start of the replayed instance, anew or from the checkpoint `ck` (R69). -/
def State.replayStart (s : State) (r : Nat) (i : KInst) (ck : Bytes) : State :=
  match i.valid with
  | none => s.startInstance r (i.again 0)
  | some _ => s.resumeOn r i (recField ck 8 8 % 8192) ck

theorem State.resumeOn_runs {r : Nat} (hr : r < 384) {i : KInst} (hv : i.valid ≠ none) (rpc : Nat) (ck : Bytes) :
    Beside r s (s.resumeOn r i rpc ck) ∧ Replayed i ((s.resumeOn r i rpc ck).core r) := by
  obtain ⟨hi, -⟩ := s.startInstance_core r (i.again rpc)
  have hb := s.beside_startInstance hr (i.again rpc)
  unfold State.resumeOn
  generalize s.startInstance r (i.again rpc) = t at *
  refine ⟨hb.trans (.modCore _ _), ?_⟩
  rw [State.core_modCore_self]
  exact replayed_again (rpc := rpc) ((CoreS.resumed_inst _ _ _).trans hi) (by rw [CoreS.resumed_pc, if_neg hv])

theorem State.replayStart_runs {r : Nat} (hr : r < 384) (i : KInst) (ck : Bytes) :
    Beside r s (s.replayStart r i ck) ∧ Replayed i ((s.replayStart r i ck).core r) := by
  unfold State.replayStart
  cases hv : i.valid with
  | none =>
    obtain ⟨hi, hp⟩ := s.startInstance_core r (i.again 0)
    exact ⟨s.beside_startInstance hr _, replayed_again hi (by rw [hp, if_pos hv]; rfl)⟩
  | some a => exact s.resumeOn_runs hr (by rw [hv]; exact nofun) _ ck

/-- The load of the checkpoint, where there is one. -/
def State.loadCkpt (s : State) (i : KInst) : Nat × Bytes × State :=
  match i.valid with
  | some a => s.load ⟨i.stream, i.seq⟩ a 2048
  | none => (stOK, [], s)

theorem State.quiet_loadCkpt (i : KInst) : Quiet s (s.loadCkpt i).2.2 := by
  unfold State.loadCkpt
  split
  · exact s.quiet_load _ _ _ _
  · exact Still.refl s

/-- The reserve core takes the place in the map, the partition is measured again, and the core takes a microcode that it waits for. -/
def State.replayMap (s : State) (r : Nat) (i : KInst) : State :=
  let s := (s.fset (F.coreVmap_PCORE i.part i.vcore) r).remeasure i.part
  if s.fw.swaps.contains r then s.takeUcode r else s

theorem State.replayOn_eq (i : KInst) (old : CoreS) (halted : Bool) : s.replayOn r i old halted
    = let img := (s.replayMap r i).load ⟨i.stream, i.seq⟩ i.prog (32 * i.bundles)
      if img.1 ≠ stOK then img.2.2.replayPoison r i
      else
        let ck := (img.2.2.putProgram r img.2.1 old.progDig).loadCkpt i
        if ck.1 ≠ stOK then ck.2.2.replayPoison r i
        else (ck.2.2.replayStart r i ck.2.1).replayLast r i old halted := rfl

/-- From the map on, a replay changes but the reserve core, which runs the instance again or, where poison was met, none. -/
theorem State.replayOn_beside {r : Nat} (hr : r < 384) (i : KInst) (old : CoreS) (halted : Bool) :
    Beside r (s.replayMap r i) (s.replayOn r i old halted) ∧ Replayed i ((s.replayOn r i old halted).core r) := by
  rw [State.replayOn_eq]
  dsimp only
  have h1 := (s.replayMap r i).quiet_load ⟨i.stream, i.seq⟩ i.prog (32 * i.bundles) false
  generalize (s.replayMap r i).load ⟨i.stream, i.seq⟩ i.prog (32 * i.bundles) = img at *
  split
  · obtain ⟨hb, hn⟩ := img.2.2.replayPoison_ends r i
    exact ⟨(Beside.of_quiet h1).trans hb, .of_none hn⟩
  have h2 : Beside r img.2.2 (img.2.2.putProgram r img.2.1 old.progDig) := .modCore _ _
  generalize img.2.2.putProgram r img.2.1 old.progDig = t at *
  have h3 := t.quiet_loadCkpt i
  generalize t.loadCkpt i = ck at *
  have h4 := ((Beside.of_quiet h1).trans h2).trans (Beside.of_quiet h3)
  split
  · obtain ⟨hb, hn⟩ := ck.2.2.replayPoison_ends r i
    exact ⟨h4.trans hb, .of_none hn⟩
  · obtain ⟨hb, hc⟩ := ck.2.2.replayStart_runs hr i ck.2.1
    obtain ⟨hb', hc'⟩ := State.replayLast_runs (ck.2.2.replayStart r i ck.2.1) r i old halted hc
    exact ⟨(h4.trans hb).trans hb', hc'⟩

theorem State.replayMap_beside (i : KInst) : Beside r (s.fset (F.coreVmap_PCORE i.part i.vcore) r) (s.replayMap r i) := by
  unfold State.replayMap
  dsimp only
  have h := Beside.of_quiet (r := r) ((s.fset (F.coreVmap_PCORE i.part i.vcore) r).quiet_remeasure i.part)
  split
  · exact h.trans (State.beside_takeUcode _ r)
  · exact h

/-- A replay on reserve core `r` (R69). -/
theorem State.replayOn_replays {n r : Fin 384} {i : KInst} (hp : i.part < 8) (hv : i.vcore < 384) (old : CoreS) (halted : Bool) :
    CoresBut s (s.replayOn r i old halted) r ∧ (s.replayOn r i old halted).fbit (F.coreFence_FENCE n) = s.fbit (F.coreFence_FENCE n)
    ∧ (s.replayOn r i old halted).fget (F.coreVmap_PCORE i.part i.vcore) = r ∧ Replayed i ((s.replayOn r i old halted).core r) := by
  obtain ⟨hb, hc⟩ := s.replayOn_beside r.isLt i old halted
  have h := (s.replayMap_beside r i).trans hb
  have hn := n.isLt
  have hr := r.isLt
  refine ⟨fun m hm => (h.1 m hm).trans rfl, ?_, ?_, hc⟩
  · have hk : Kept r (F.coreFence_FENCE n).reg.off := by
      unfold Kept
      simp only [F.coreFence_FENCE, Reg.off]
      omega
    have hne : (F.coreFence_FENCE n).reg.off ≠ (F.coreVmap_PCORE i.part i.vcore).reg.off := by
      simp only [F.coreFence_FENCE, F.coreVmap_PCORE, Reg.off]
      omega
    unfold State.fbit
    rw [h.fget hk, State.fget, State.reg_fset_ne _ _ hne, State.fget]
  · have hk : Kept r (F.coreVmap_PCORE i.part i.vcore).reg.off := by
      unfold Kept
      simp only [F.coreVmap_PCORE, Reg.off]
      omega
    rw [h.fget hk, State.fget_fset_self _ _ _ (by simp only [F.coreVmap_PCORE]; decide)]
    exact Nat.mod_eq_of_lt (by simp only [F.coreVmap_PCORE]; omega)

end Sys2Proof.Machine
end

section
/-! O21: a core fault (R72). -/

namespace Sys2Proof.Machine

open Sys2Proof.Safety

section Fault

variable (s : State) (n : Fin 384) (code : Nat)

/-- A corrected scratchpad error is a record and nothing more (R72, R191). -/
theorem State.coreFault_corrected (hf : (s.core n).fault = none) : Reported s (s.coreFault n 0x21) := by
  unfold State.coreFault
  dsimp only
  rw [hf, Option.getD_none, if_pos rfl]
  exact (s.reports_error _ fun p hp => by cases hp).reported

/-- A fault fatal to the core: the core is fenced, and its instance ends or moves to the reserve core chosen (R69, R70, R72). -/
theorem State.coreFault_fatal {i : KInst} (hf : (s.core n).fault = none) (hi : (s.core n).inst = some i) (hr : s.resetting.contains n.val = false)
    (hp : i.part < 8) (hc : isFatalCore code = true ∨ code = 0x28) :
    ∃ u halted, Fenced s u n ∧ s.coreFault n code
      = (if i.noReplay || code = 0x28 || 2 ≤ i.faultsTB then none else s.pickReserve i.part n).elim
          ((u.endInstance n stCheckFail code).stopCore n) fun r => (u.stopCore n).replayOn r i (s.core n) halted := by
  have h21 : code ≠ 0x21 := by
    rintro rfl
    exact hc.elim (by decide) (by decide)
  have h25 : code ≠ 0x25 := by
    rintro rfl
    exact hc.elim (by decide) (by decide)
  have hfatal : (!isFatalCore code && decide (code ≠ 0x28)) = false := by
    rcases hc with h | h <;> simp [h]
  unfold State.coreFault
  dsimp only
  rw [hf, Option.getD_none, if_neg h21, if_neg h25, hfatal, hi]
  simp only [Bool.false_eq_true, if_false]
  have h1 := s.still_error { unit := unitCore n, code := code, cls := 2, stream := (Option.map KInst.stream (some i)).getD 0, seq := (Option.map KInst.seq (some i)).getD 0 } rfl n
  generalize s.error _ = t at *
  rw [h1.2.2.1, hr]
  simp only [Bool.false_eq_true, if_false]
  have h2 := State.fenced_fenceCore (h1.trans (t.still_coreErr n code)) code
  have hpick := h2.pickReserve hi hp n
  generalize (t.coreErr n code).halted n = halted
  generalize (t.coreErr n code).fenceCore n code = u at *
  refine ⟨u, halted, h2, ?_⟩
  rw [hpick]
  split <;> rename_i heq <;> rw [heq] <;> rfl

end Fault

theorem State.stopCore_inst (s : State) (m : Nat) : ((s.stopCore m).core m).inst = none := by
  unfold State.stopCore
  rw [State.core_modCore_self]

theorem State.stopCore_ne (s : State) {m k : Nat} (h : k ≠ m) : (s.stopCore m).core k = s.core k := State.core_modCore_ne _ _ h

theorem not_lossOffs_of_lt {o : Nat} (h : o < 0x1b00000) : o ∉ lossOffs := fun hm => by
  have := reportOffs_ge o (List.mem_append_left _ hm)
  omega

theorem coreFence_lt (n : Fin 384) : (F.coreFence_FENCE n).reg.off < 0x1b00000 := by
  simp only [F.coreFence_FENCE, Reg.off]
  omega

/-- The words that tell the good cores count no lost packets. -/
theorem State.coreGood_of_seen {s t : State} (h : RegsBut s t lossOffs) {r : Nat} (hr : r < 384) : t.coreGood r = s.coreGood r := by
  have hw : (Reg.bootFloorplan ((8 * 8 + r) / 64)).off ∉ lossOffs := fun hm => by
    have := reportOffs_not_floorplan _ (List.mem_append_left _ hm)
    simp only [Reg.off] at this
    omega
  unfold State.coreGood State.fpBit
  rw [h.reg_eq hw]

end Sys2Proof.Machine

namespace Sys2Proof.Safety

open Sys2Proof.Machine

section Ends

variable {s u : State} {n : Fin 384} {i : KInst} (h : Fenced s u n)
include h

/-- The instance of a fenced core ends with CHECK_FAIL, and the core stops (R70). -/
theorem Fenced.ends (hi : (s.core n).inst = some i) (code : Nat) {t : State} (ht : t = (u.endInstance n stCheckFail code).stopCore n) :
    (t.core n).inst = none ∧ t.fbit (F.coreFence_FENCE n) = true ∧ t.coreGood n = false ∧ CoresBut s t n
    ∧ (t.str i.stream).started = (s.str i.stream).started.map (fun o =>
        if o.seq = i.seq then { o with left := o.left - 1, fails := o.fails ++ [(i.vcore, stCheckFail, code)] } else o) := by
  have hi' : (u.core n).inst = some i := by rw [h.self, hi]
  have hr := u.regsBut_endInstance n stCheckFail code hi'
  have hb := u.coresBut_endInstance n stCheckFail code hi'
  have hs := u.started_endInstance n stCheckFail code hi'
  have hstr : u.str i.stream = s.str i.stream := by
    unfold State.str
    rw [h.strs]
  generalize u.endInstance n stCheckFail code = v at *
  subst ht
  refine ⟨v.stopCore_inst n, ?_, ?_, fun m hm => ?_, ?_⟩
  · rw [← h.fence, State.fbit, State.fbit, ← hr.fget_eq (not_lossOffs_of_lt (coreFence_lt n))]
    rfl
  · rw [← h.bad, ← State.coreGood_of_seen hr n.isLt]
    rfl
  · rw [v.stopCore_ne hm, hb m hm, h.cores m hm]
  · rw [← hstr]
    exact hs

/-- The instance of a fenced core moves to a reserve core (R69). -/
theorem Fenced.moves (hp : i.part < 8) (hv : i.vcore < 384) {r : Fin 384} (hrn : r.val ≠ n) (old : CoreS) (halted : Bool) {t : State}
    (ht : t = (u.stopCore n).replayOn r i old halted) :
    (t.core n).inst = none ∧ t.fbit (F.coreFence_FENCE n) = true ∧ t.fget (F.coreVmap_PCORE i.part i.vcore) = r
    ∧ (∀ m, m ≠ n.val → m ≠ r → t.core m = s.core m) ∧ Replayed i (t.core r) := by
  obtain ⟨hb, hf, hm, hc⟩ := (u.stopCore n).replayOn_replays (n := n) (r := r) hp hv old halted
  rw [← ht] at hb hf hm hc
  refine ⟨?_, ?_, hm, fun m hmn hmr => ?_, hc⟩
  · rw [hb n (Ne.symm hrn)]
    exact u.stopCore_inst n
  · rw [hf, ← h.fence]
    rfl
  · rw [hb m hmr, u.stopCore_ne hmn, h.cores m hmn]

end Ends

theorem State.core_spmCorrected (s : State) (n w m : Nat) : (s.spmCorrected n w).core m = s.core m := by
  unfold State.spmCorrected
  rw [State.core_fset, State.core_fsat]

/-- A corrected scratchpad word is counted and recorded (R72, R191). -/
theorem exec_replay_corrected {s : State} {n : Fin 384} (hf : (s.core n).fault = none) (w : Fin 262144) :
    ∃ t, exec (.replay n 0x21 w) s = .next t ∧ Reported (s.spmCorrected n w) t := by
  refine ⟨(s.spmCorrected n w).coreFault n 0x21, ?_, State.coreFault_corrected _ n (by rw [State.core_spmCorrected]; exact hf)⟩
  show execReplay n 0x21 w s = _
  unfold execReplay
  simp only [hf, Option.isNone_none, decide_true, Bool.and_self, if_true]
  rfl

theorem exec_replay {code : BitVec 8} (hc : code ≠ 0x21) (n : Fin 384) (w : Fin 262144) (s : State) :
    exec (.replay n code w) s = .next (s.coreFault n code.toNat) := by
  show execReplay n code w s = _
  unfold execReplay
  simp only [hc, decide_false, Bool.false_and, Bool.false_eq_true, if_false]

/-- The codes that fence a core (R72). -/
theorem fatal_codes {code : BitVec 8} (hc : code.toNat ∈ [0x20, 0x22, 0x23, 0x24, 0x27, 0x28]) :
    code ≠ 0x21 ∧ (isFatalCore code.toNat = true ∨ code.toNat = 0x28) := by
  refine ⟨?_, ?_⟩
  · rintro rfl
    revert hc
    decide
  · generalize code.toNat = c at hc
    revert c
    decide

section Choice

variable {s : State} {n : Fin 384} {i : KInst} {code : Nat}

theorem pick_none (h : i.noReplay = true ∨ code = 0x28 ∨ 2 ≤ i.faultsTB ∨ s.reserves i.part = []) :
    (if i.noReplay || code = 0x28 || 2 ≤ i.faultsTB then none else s.pickReserve i.part n) = none := by
  split
  · rfl
  · rename_i hgo
    simp only [Bool.or_eq_true, decide_eq_true_eq, not_or] at hgo
    obtain ⟨⟨h1, h2⟩, h3⟩ := hgo
    exact State.pickReserve_nil (((h.resolve_left h1).resolve_left h2).resolve_left h3)

theorem pick_some {r : Nat} (hn : i.noReplay = false) (hc : code ≠ 0x28) (hft : i.faultsTB < 2) (h : s.pickReserve i.part n = some r) :
    (if i.noReplay || code = 0x28 || 2 ≤ i.faultsTB then none else s.pickReserve i.part n) = some r := by
  simp only [hn, hc, Nat.not_le.mpr hft, decide_false, Bool.or_self, Bool.false_eq_true, if_false, h]

end Choice

/-- The instance may not be replayed, or no reserve core is free: it ends (R70, R72). -/
theorem replay_ends {n : Fin 384} {s : State} {code : BitVec 8} {i : KInst} (w : Fin 262144) (hf : (s.core n).fault = none) (hi : (s.core n).inst = some i)
    (hr : s.resetting.contains n.val = false) (hp : i.part < 8) (hc : code.toNat ∈ [0x20, 0x22, 0x23, 0x24, 0x27, 0x28])
    (hstop : i.noReplay = true ∨ code.toNat = 0x28 ∨ 2 ≤ i.faultsTB ∨ s.reserves i.part = []) :
    ∃ u t, Fenced s u n ∧ exec (.replay n code w) s = .next t ∧ t = (u.endInstance n stCheckFail code.toNat).stopCore n := by
  obtain ⟨h21, hfatal⟩ := fatal_codes hc
  obtain ⟨u, halted, hu, he⟩ := s.coreFault_fatal n code.toNat hf hi hr hp hfatal
  rw [pick_none hstop] at he
  exact ⟨u, _, hu, exec_replay h21 n w s, he⟩

/-- A reserve core is free and the instance may be replayed: it moves (R69, R72). -/
theorem replay_moves {n : Fin 384} {s : State} {code : BitVec 8} {i : KInst} (w : Fin 262144) (hf : (s.core n).fault = none) (hi : (s.core n).inst = some i)
    (hr : s.resetting.contains n.val = false) (hp : i.part < 8) (hc : code.toNat ∈ [0x20, 0x22, 0x23, 0x24, 0x27]) (hn : i.noReplay = false)
    (hft : i.faultsTB < 2) {r : Nat} (hpick : s.pickReserve i.part n = some r) :
    ∃ u t halted, Fenced s u n ∧ exec (.replay n code w) s = .next t ∧ t = (u.stopCore n).replayOn r i (s.core n) halted := by
  obtain ⟨h21, hfatal⟩ := fatal_codes (code := code) (List.mem_append_left [0x28] hc)
  obtain ⟨u, halted, hu, he⟩ := s.coreFault_fatal n code.toNat hf hi hr hp hfatal
  have h28 : code.toNat ≠ 0x28 := fun h => absurd (h ▸ hc) (by decide)
  rw [pick_some hn h28 hft hpick] at he
  exact ⟨u, _, halted, hu, exec_replay h21 n w s, he⟩

/-- Settles O21: an error record is a record alone; the fence leaves the reserves as they were, so the core chosen after it is the one chosen before; poison on the way to the reserve core leaves it with no instance. -/
theorem faultedCoresAreReplayed : Obligations.FaultedCoresAreReplayed := by
  unfold Obligations.FaultedCoresAreReplayed
  intro n w s hf
  refine ⟨exec_replay_corrected hf w, fun code i hi hr hp hv _ => ⟨fun hc hstop => ?_, fun r hc hn hft hpick => ?_⟩⟩
  · rw [show code = 0x28 ↔ code.toNat = 0x28 from BitVec.toNat_inj.symm] at hstop
    obtain ⟨u, t, hu, hx, ht⟩ := replay_ends w hf hi hr hp hc hstop
    exact ⟨t, hx, hu.ends hi code.toNat ht⟩
  · obtain ⟨u, t, halted, hu, hx, ht⟩ := replay_moves w hf hi hr hp hc hn hft hpick
    obtain ⟨hr384, hrinst⟩ := State.of_mem_reserves (State.mem_reserves_of_pickReserve hpick)
    have hrn : r ≠ n := by
      rintro rfl
      rw [hi] at hrinst
      cases hrinst
    exact ⟨t, hx, hu.moves hp hv (r := ⟨r, hr384⟩) hrn _ halted ht⟩

end Sys2Proof.Safety
end

section
/-! O11: an MSTREAM adds the segment sums of its passes into the accumulator rows, while the banks of its core decide on each row (R86-R93, R108-R110, R339). -/

namespace Sys2Proof.Safety

open Sys2Proof.Machine

/-! ### Changes one after another -/

theorem RegsBut.append {s t u : State} {a b : List Nat} (h : RegsBut s t a) (h' : RegsBut t u b) : RegsBut s u (a ++ b) :=
  (h.mono fun _ => List.mem_append_left b).trans (h'.mono fun _ => List.mem_append_right a)

theorem Seen.arbs {s t : State} (h : Seen s t) : t.arbs = s.arbs := by obtain ⟨-, r, q, b, rfl⟩ := h; rfl

namespace RestSame

variable {s t u : State}

theorem refl (s : State) : RestSame s s := rfl

theorem trans (h : RestSame s t) (h' : RestSame t u) : RestSame s u := by
  unfold RestSame at *
  calc ({ seenAs s u with cores := s.cores, regs := s.regs } : State)
      = { seenAs s { seenAs t u with cores := t.cores, regs := t.regs } with cores := s.cores, regs := s.regs } := rfl
    _ = s := by rw [h', h]

theorem fset (h : RestSame s t) (f : Fld) (v : Nat) : RestSame s (t.fset f v) := h

theorem setCore (h : RestSame s t) (n : Nat) (c : CoreS) : RestSame s (t.setCore n c) := h

theorem seen (h : RestSame s t) (hu : Seen t u) : RestSame s u := by
  obtain ⟨-, r, q, b, rfl⟩ := hu
  exact h

end RestSame

end Sys2Proof.Safety

namespace Sys2Proof.Machine

open Sys2Proof.Safety

/-! ### What the A feeder leaves alone -/

/-- From `s` to `t` banks of core `n` have decided on requests of its A feeder: their arbiters, MAXWAIT of their die and free values alone have changed (R171, R335, R344). -/
structure FeederAsked (s t : State) (n : Nat) : Prop where
  regsBut : RegsBut s t [(Reg.arbMaxwait (dieOfCore n) 0).off]
  banksOnly : BanksOnly s t n
  frame : ∃ r a f, t = { s with regs := r, arbs := a, free := f }

/-- Arbiter `u` of the banks is one of core `n` (R170). -/
def BankOfCore (n u : Nat) : Prop := 64 * n ≤ u ∧ u < 64 * n + 64

namespace FeederAsked

variable {s t u : State} {n : Nat}

theorem refl (s : State) (n : Nat) : FeederAsked s s n := ⟨RegsBut.refl _ _, fun _ _ _ => rfl, _, _, _, rfl⟩

theorem trans (h : FeederAsked s t n) (h' : FeederAsked t u n) : FeederAsked s u n := by
  obtain ⟨hr, hb, r, a, f, rfl⟩ := h
  obtain ⟨hr', hb', r', a', f', rfl⟩ := h'
  exact ⟨hr.trans hr', fun ty w hw => (hb' ty w hw).trans (hb ty w hw), r', a', f', rfl⟩

theorem core (h : FeederAsked s t n) (m : Nat) : t.core m = s.core m := by obtain ⟨-, -, r, a, f, rfl⟩ := h; rfl

/-- What comes after the decisions and leaves the rest of the device alone. -/
theorem rest (h : FeederAsked s t n) (h' : RestSame t u) : RestSame s { u with arbs := s.arbs, free := s.free } := by
  obtain ⟨-, -, r, a, f, rfl⟩ := h
  exact congrArg (fun w : State => { w with regs := s.regs, arbs := s.arbs, free := s.free }) h'

end FeederAsked

section Feeder

variable (s : State) {n u : Nat}

theorem State.draw_asked (n : Nat) : FeederAsked s s.draw.2 n := ⟨RegsBut.refl _ _, fun _ _ _ => rfl, _, _, _, rfl⟩

theorem State.setArb_bank (a : Arb) (hn : n < 384) (hu : BankOfCore n u) : FeederAsked s (s.setArb 0 u a) n := by
  obtain ⟨h1, h2⟩ := hu
  exact ⟨RegsBut.refl _ _, fun ty w hw => State.arb_setArb_ne _ _ (by omega), _, _, _, rfl⟩

theorem State.arbitrate_bank (as : List Nat) (served : Option Nat) (hn : n < 384) (hu : BankOfCore n u) :
    FeederAsked s (s.arbitrate (dieOfCore n) 0 u as served).2 n := by
  unfold State.arbitrate
  dsimp only
  split
  · exact .refl s n
  · rename_i w _
    have h := s.setArb_bank ((s.arb 0 u).after (arbN 0) w as) hn hu
    split
    · exact h.trans ⟨regsBut_fset _ (F.arbMaxwait_MAXWAIT (dieOfCore n) 0) _, fun _ _ _ => rfl, _, _, _, rfl⟩
    · exact h

theorem State.withdraw_bank (w age : Nat) (hn : n < 384) (hu : BankOfCore n u) : FeederAsked s (s.withdraw 0 u w age) n := s.setArb_bank _ hn hu

theorem State.bankAsk_asked (busy : List Nat) (hn : n < 384) (hu : BankOfCore n u) : FeederAsked s (s.bankAsk n u busy).2.2 n :=
  (s.draw_asked n).trans (State.arbitrate_bank _ _ _ hn hu)

/-- The decisions of the banks on one row, each with its bank. -/
def State.bankAsks (s : State) (n : Nat) (banks busy : List Nat) : List (Nat × Option Nat × Nat) × State :=
  banks.foldl (fun a u =>
    let q := a.2.bankAsk n u busy
    (a.1 ++ [(u, q.1, q.2.1)], q.2.2)) ([], s)

theorem State.bankAsks_asked {banks : List Nat} (busy : List Nat) (hn : n < 384) (hb : ∀ u ∈ banks, BankOfCore n u) :
    (∀ e ∈ (s.bankAsks n banks busy).1, BankOfCore n e.1) ∧ FeederAsked s (s.bankAsks n banks busy).2 n := by
  unfold State.bankAsks
  refine List.foldlRecOn (motive := fun (r : List (Nat × Option Nat × Nat) × State) => (∀ e ∈ r.1, BankOfCore n e.1) ∧ FeederAsked s r.2 n) banks _
    ⟨fun _ h => absurd h List.not_mem_nil, .refl s n⟩ ?_
  rintro ⟨l, t⟩ ⟨hl, ht⟩ u hu
  refine ⟨fun e he => ?_, ht.trans (t.bankAsk_asked busy hn (hb u hu))⟩
  rcases List.mem_append.mp he with he | he
  · exact hl e he
  · rw [List.mem_singleton.mp he]
    exact hb u hu

theorem State.rowAsk_asked {banks : List Nat} (busy : List Nat) (hn : n < 384) (hb : ∀ u ∈ banks, BankOfCore n u) : FeederAsked s (s.rowAsk n banks busy).2 n := by
  obtain ⟨hl, ht⟩ := s.bankAsks_asked busy hn hb
  unfold State.rowAsk
  dsimp only
  split
  · exact ht
  · refine List.foldlRecOn (motive := fun t => FeederAsked s t n) _ _ ht fun t ht e he => ?_
    refine ht.trans (FeederAsked.trans ?_ (State.withdraw_bank _ 0 7 hn (hl e he)))
    split
    · exact t.withdraw_bank _ _ hn (hl e he)
    · exact .refl t n

theorem State.rowIssue_asked {banks : List Nat} (busy : List Nat) (hn : n < 384) (hb : ∀ u ∈ banks, BankOfCore n u) :
    FeederAsked s (s.rowIssue n banks busy).2 n := by
  have h := s.rowAsk_asked busy hn hb
  unfold State.rowIssue
  dsimp only
  split
  · exact h
  · exact h.trans (State.rowAsk_asked _ busy hn hb)

/-- A row of A lies in banks of its core (R170). -/
theorem rowBanks_ofCore (n : Nat) (t : Tile) (kx i : Nat) : ∀ u ∈ rowBanks n t kx i, BankOfCore n u := by
  have hline : ∀ off len, ∀ u ∈ (List.range (ceilDiv (off % 64 + len) 64)).map fun j => bankOf n (off + 64 * j), BankOfCore n u := fun off len u hu => by
    obtain ⟨j, -, rfl⟩ := List.mem_map.mp hu
    exact bankOf_bounds n _
  intro u hu
  rcases List.mem_append.mp (List.mem_eraseDups.mp hu) with hu | hu
  · exact hline _ _ u hu
  · split at hu
    · exact hline _ _ u hu
    · cases hu

theorem State.feed_asked (t : Tile) (rows : List (Nat × Nat)) (hn : n < 384) : FeederAsked s (s.feed n t rows).2 n := by
  unfold State.feed
  exact List.foldlRecOn (motive := fun (a : Nat × Nat × List (Nat × Nat) × State) => FeederAsked s a.2.2.2 n) rows _ (.refl s n) fun a ha x _ =>
    ha.trans (State.rowIssue_asked _ _ hn (rowBanks_ofCore n t _ _))

theorem State.firstBubbles_asked (rows : List (Nat × Nat)) (n : Nat) : FeederAsked s (s.firstBubbles n rows).2 n := by
  unfold State.firstBubbles
  dsimp only
  split
  · exact s.draw_asked n
  split
  · exact s.draw_asked n
  · exact .refl s n

end Feeder

/-! ### A row of A, a pass, the passes (R87, R93, R108-R110) -/

/-- From `c` to `d` only accumulators and what is held beside each of their rows have changed. -/
def AccsOnly (c d : CoreS) : Prop := ∃ m h k f, d = { c with acc := m, accH := h, accN := k, accF := f }

section Accumulators

variable (c : CoreS)

theorem accRow_acc (a : List Num) (ij : Nat × Nat) (r : Nat) (fresh : Bool) :
    (c.accRow a ij r fresh).acc = (List.range 65).foldl (fun m k => Sparse.setD (fun _ => 0) m (r * 65 + k) (accCell c.act a ij k fresh (accAt c r k)).1) c.acc := by
  unfold CoreS.accRow
  exact (List.foldl_hom Prod.fst fun _ _ => rfl).symm

theorem AccsOnly.refl : AccsOnly c c := ⟨c.acc, c.accH, c.accN, c.accF, rfl⟩

theorem AccsOnly.trans {c d e : CoreS} (h : AccsOnly c d) (h' : AccsOnly d e) : AccsOnly c e := by
  obtain ⟨m, h, k, f, rfl⟩ := h
  obtain ⟨m', h', k', f', rfl⟩ := h'
  exact ⟨m', h', k', f', rfl⟩

theorem AccsOnly.act {c d : CoreS} (h : AccsOnly c d) : d.act = c.act := by obtain ⟨m, h, k, f, rfl⟩ := h; rfl

theorem accRow_accsOnly (a : List Num) (ij : Nat × Nat) (r : Nat) (fresh : Bool) : AccsOnly c (c.accRow a ij r fresh) := ⟨_, _, _, _, rfl⟩

theorem accAt_accRow_self (a : List Num) (ij : Nat × Nat) (r : Nat) (fresh : Bool) {k : Nat} (hk : k < 65) :
    accAt (c.accRow a ij r fresh) r k = (accCell c.act a ij k fresh (accAt c r k)).1 := by
  unfold accAt
  rw [accRow_acc]
  exact Sparse.getD_foldl_setD (fun _ => 0) (r * 65 + ·) (fun k => (accCell c.act a ij k fresh (accAt c r k)).1) c.acc hk fun j _ hj => Nat.add_left_cancel hj

theorem accAt_accRow_ne (a : List Num) (ij : Nat × Nat) {r r' k : Nat} (fresh : Bool) (hr : r' ≠ r) (hk : k < 65) :
    accAt (c.accRow a ij r fresh) r' k = accAt c r' k := by
  unfold accAt
  rw [accRow_acc]
  refine Sparse.getD_foldl_setD_ne (fun _ => 0) (r * 65 + ·) _ _ _ c.acc fun j hj => ?_
  have := List.mem_range.mp hj
  omega

/-- One pass over the A rows `row 0` to `row (cnt - 1)`, into the accumulator rows from `r0`; `ow` is OVERWRITE, `p` the pass and its place. -/
def CoreS.accPass (c : CoreS) (row : Nat → List Num) (r0 cnt : Nat) (ow : Bool) (p : (Nat × Nat) × Nat) : CoreS :=
  (List.range cnt).foldl (fun c i => c.accRow (row i) p.1 (r0 + i) (ow && p.2 = 0)) c

/-- The passes in their order. -/
def CoreS.accPasses (c : CoreS) (row : Nat → List Num) (r0 cnt : Nat) (ow : Bool) (ps : List ((Nat × Nat) × Nat)) : CoreS :=
  ps.foldl (fun c p => c.accPass row r0 cnt ow p) c

variable (row : Nat → List Num) (r0 cnt : Nat) (ow : Bool)

theorem accPass_succ (p : (Nat × Nat) × Nat) :
    c.accPass row r0 (cnt + 1) ow p = (c.accPass row r0 cnt ow p).accRow (row cnt) p.1 (r0 + cnt) (ow && p.2 = 0) := by
  simp [CoreS.accPass, List.range_succ]

theorem accPass_accsOnly (p : (Nat × Nat) × Nat) : AccsOnly c (c.accPass row r0 cnt ow p) :=
  List.foldlRecOn (motive := AccsOnly c) _ _ (.refl c) fun d hd _ _ => hd.trans (accRow_accsOnly d _ _ _ _)

theorem accAt_accPass_outside (p : (Nat × Nat) × Nat) {r k : Nat} (hk : k < 65) (hr : r < r0 ∨ r0 + cnt ≤ r) :
    accAt (c.accPass row r0 cnt ow p) r k = accAt c r k := by
  refine List.foldlRecOn (motive := fun d => accAt d r k = accAt c r k) _ _ rfl fun d hd i hi => ?_
  have := List.mem_range.mp hi
  exact (accAt_accRow_ne d _ _ _ (by omega) hk).trans hd

theorem accAt_accPass (p : (Nat × Nat) × Nat) {i k : Nat} (hi : i < cnt) (hk : k < 65) :
    accAt (c.accPass row r0 cnt ow p) (r0 + i) k = (accCell c.act (row i) p.1 k (ow && p.2 = 0) (accAt c (r0 + i) k)).1 := by
  induction cnt with
  | zero => cases hi
  | succ cnt ih =>
    rw [accPass_succ]
    rcases Nat.lt_succ_iff_lt_or_eq.mp hi with hlt | rfl
    · rw [accAt_accRow_ne _ _ _ _ (by omega) hk, ih hlt]
    · rw [accAt_accRow_self _ _ _ _ _ hk, (accPass_accsOnly ..).act, accAt_accPass_outside c row r0 i ow p hk (.inr (Nat.le_refl _))]

theorem accPasses_accsOnly (ps : List ((Nat × Nat) × Nat)) : AccsOnly c (c.accPasses row r0 cnt ow ps) :=
  List.foldlRecOn (motive := AccsOnly c) ps _ (.refl c) fun d hd p _ => hd.trans (accPass_accsOnly d row r0 cnt ow p)

/-- A row outside those of the stream stands. -/
theorem accAt_accPasses_outside (ps : List ((Nat × Nat) × Nat)) {r k : Nat} (hk : k < 65) (hr : r < r0 ∨ r0 + cnt ≤ r) :
    accAt (c.accPasses row r0 cnt ow ps) r k = accAt c r k :=
  List.foldlRecOn (motive := fun d => accAt d r k = accAt c r k) ps _ rfl fun d hd p _ => (accAt_accPass_outside d row r0 cnt ow p hk hr).trans hd

/-- A cell of the stream's rows takes the segment sums of the passes one after another. -/
theorem accAt_accPasses (ps : List ((Nat × Nat) × Nat)) {i k : Nat} (hi : i < cnt) (hk : k < 65) :
    accAt (c.accPasses row r0 cnt ow ps) (r0 + i) k
      = ps.foldl (fun v p => (accCell c.act (row i) p.1 k (ow && p.2 = 0) v).1) (accAt c (r0 + i) k) := by
  induction ps generalizing c with
  | nil => rfl
  | cons p ps ih =>
    have h := ih (c.accPass row r0 cnt ow p)
    rw [(accPass_accsOnly ..).act, accAt_accPass c row r0 cnt ow p hi hk] at h
    exact h

end Accumulators

/-! ### What a queued operation reads beside registers -/

theorem setReg_engine (c : CoreS) (i : Nat) (v : Word) : (c.setReg i v).act = c.act ∧ (c.setReg i v).mcfg = c.mcfg := by
  unfold CoreS.setReg
  split <;> exact ⟨rfl, rfl⟩

theorem setVbytes_engine (c : CoreS) (v o : Nat) (b : Bytes) : (c.setVbytes v o b).act = c.act ∧ (c.setVbytes v o b).mcfg = c.mcfg := ⟨rfl, rfl⟩

theorem setRegVal_engine (c : CoreS) (r v : Nat) : (c.setRegVal r v).act = c.act ∧ (c.setRegVal r v).mcfg = c.mcfg := by
  unfold CoreS.setRegVal
  split
  · exact setReg_engine c _ _
  split
  · exact setVbytes_engine c _ _ _
  · exact ⟨rfl, rfl⟩

theorem seenBy_engine (c : CoreS) (q : QCmd) : (c.seenBy q).act = c.act ∧ (c.seenBy q).mcfg = c.mcfg := by
  refine List.foldlRecOn (motive := fun (d : CoreS) => d.act = c.act ∧ d.mcfg = c.mcfg) q.was _ ⟨rfl, rfl⟩ fun d hd e _ => ?_
  obtain ⟨ha, hm⟩ := setRegVal_engine d e.1 e.2
  exact ⟨ha.trans hd.1, hm.trans hd.2⟩

theorem aVal_modCore (s : State) (n : Nat) (f : CoreS → CoreS) (m : Nat) (t : Tile) (i p : Nat) : (s.modCore n f).aVal m t i p = s.aVal m t i p := by
  simp only [State.aVal, tileElem_modCore, spmLE_modCore]

/-! ### The counters of a stream -/

/-- A field that is the whole word. -/
theorem State.fget_whole (s : State) (r : Reg) : s.fget ⟨r, 63, 0⟩ = s.reg r := by
  show s.reg r / 2 ^ 0 % 2 ^ 64 = s.reg r
  rw [pow_zero, Nat.div_one, Nat.mod_eq_of_lt (s.reg_lt r)]

theorem State.reg_finc_whole (s : State) (r : Reg) (v : Nat) : (s.finc ⟨r, 63, 0⟩ v).reg r = (s.reg r + v) % 2 ^ 64 := by
  rw [← State.fget_whole, ← State.fget_whole]
  exact s.fget_fset_self _ _ (by decide : 63 < 64)

/-- A saturating counter never steps back. -/
theorem State.fget_le_fsat (s : State) (f : Fld) (v : Nat) (hf : f.hi < 64) : s.fget f ≤ (s.fsat f v).fget f := by
  rw [State.fget_fsat_self _ _ _ hf]
  have h : s.fget f < 2 ^ (f.hi + 1 - f.lo) := bitsOf_lt _ _ _
  omega

/-- The registers that an MSTREAM may write. -/
def streamOffs (n : Nat) : List Nat :=
  (Reg.mxeCtl n).off :: (Reg.mxePerf n).off :: (Reg.cntCrows n).off :: (Reg.arbMaxwait (dieOfCore n) 0).off :: lossOffs

/-- Core `n` becomes `c`, which streams; its counters and the Tail event follow. -/
def State.streams (s : State) (n : Nat) (c : CoreS) (bubbles passes rows payload : Nat) : State :=
  ((((s.fsat (F.mxePerf_BUBBLES n) bubbles).setCore n { c with stBusy := true }).fset (F.mxeCtl_PASSES n) passes).finc (F.cntCrows_N n) rows).tailCore n 1 0x10 payload

section Counters

variable (s : State) (n : Fin 384) (c : CoreS) (bubbles passes rows payload : Nat)

theorem mxePerf_off_notMem : (Reg.mxePerf n).off ∉ [(Reg.mxeCtl n).off] ++ [(Reg.cntCrows n).off] ++ lossOffs ∧ (Reg.mxePerf n).off ∉ [(Reg.arbMaxwait (dieOfCore n) 0).off] := by
  have hn := n.isLt
  have hl : (Reg.mxePerf n).off ∉ lossOffs := not_lossOffs_of_lt (by simp only [Reg.off]; omega)
  have hne : (Reg.mxePerf n).off ≠ (Reg.mxeCtl n).off ∧ (Reg.mxePerf n).off ≠ (Reg.cntCrows n).off ∧ (Reg.mxePerf n).off ≠ (Reg.arbMaxwait (dieOfCore n) 0).off := by
    simp only [Reg.off]
    omega
  simp [hl, hne]

theorem cntCrows_off_notMem : (Reg.cntCrows n).off ∉ [(Reg.mxePerf n).off] ++ [(Reg.mxeCtl n).off] ∧ (Reg.cntCrows n).off ∉ lossOffs
    ∧ (Reg.cntCrows n).off ∉ [(Reg.arbMaxwait (dieOfCore n) 0).off] := by
  have hn := n.isLt
  have hl : (Reg.cntCrows n).off ∉ lossOffs := not_lossOffs_of_lt (by simp only [Reg.off]; omega)
  have hne : (Reg.cntCrows n).off ≠ (Reg.mxeCtl n).off ∧ (Reg.cntCrows n).off ≠ (Reg.mxePerf n).off ∧ (Reg.cntCrows n).off ≠ (Reg.arbMaxwait (dieOfCore n) 0).off := by
    simp only [Reg.off]
    omega
  simp [hl, hne]

theorem streams_core : (s.streams n c bubbles passes rows payload).core n = { c with stBusy := true } := by
  unfold State.streams
  rw [(State.seen_tailCore _ _ _ _ _).core, State.core_finc, State.core_fset, State.core_setCore_self]

theorem streams_coresBut : CoresBut s (s.streams n c bubbles passes rows payload) n := fun m hm => by
  unfold State.streams
  rw [(State.seen_tailCore _ _ _ _ _).core, State.core_finc, State.core_fset, State.core_setCore_ne _ _ hm, State.core_fsat]

theorem streams_arbs : (s.streams n c bubbles passes rows payload).arbs = s.arbs := (State.seen_tailCore _ n 1 0x10 payload).arbs

theorem streams_rest : RestSame s (s.streams n c bubbles passes rows payload) :=
  (((((RestSame.refl s).fset _ _).setCore n _).fset _ _).fset _ _).seen (State.seen_tailCore _ n 1 0x10 payload)

theorem streams_counts : (s.streams n c bubbles passes rows payload).reg (.cntCrows n) = (s.reg (.cntCrows n) + rows) % 2 ^ 64 := by
  obtain ⟨h1, h2, -⟩ := cntCrows_off_notMem n
  have hb : RegsBut s (((s.fsat (F.mxePerf_BUBBLES n) bubbles).setCore n { c with stBusy := true }).fset (F.mxeCtl_PASSES n) passes) _ :=
    RegsBut.append (regsBut_fsat s (F.mxePerf_BUBBLES n) bubbles) (regsBut_fset _ (F.mxeCtl_PASSES n) passes)
  unfold State.streams
  rw [(State.seen_tailCore _ _ _ _ _).1.reg_eq h2, ← hb.reg_eq h1]
  exact State.reg_finc_whole ..

theorem streams_bubbles : s.fget (F.mxePerf_BUBBLES n) ≤ (s.streams n c bubbles passes rows payload).fget (F.mxePerf_BUBBLES n) := by
  have hb : RegsBut (s.fsat (F.mxePerf_BUBBLES n) bubbles) (s.streams n c bubbles passes rows payload) _ :=
    RegsBut.append (RegsBut.append (regsBut_fset _ (F.mxeCtl_PASSES n) passes) (regsBut_fset _ (F.cntCrows_N n) _)) (State.seen_tailCore _ n 1 0x10 payload).1
  rw [hb.fget_eq (f := F.mxePerf_BUBBLES n) (mxePerf_off_notMem n).1]
  exact s.fget_le_fsat _ _ (by decide : 31 < 64)

theorem streams_regsBut : RegsBut s (s.streams n c bubbles passes rows payload) (streamOffs n) := by
  have hbub := (regsBut_fsat s (F.mxePerf_BUBBLES n) bubbles).mono (offs' := streamOffs n) (by simp [streamOffs, F.mxePerf_BUBBLES])
  have hpass : ∀ t : State, RegsBut t (t.fset (F.mxeCtl_PASSES n) passes) (streamOffs n) := fun t =>
    (regsBut_fset t _ _).mono (by simp [streamOffs, F.mxeCtl_PASSES])
  have hcnt : ∀ t : State, RegsBut t (t.finc (F.cntCrows_N n) rows) (streamOffs n) := fun t =>
    (regsBut_fset t (F.cntCrows_N n) _).mono (by simp [streamOffs, F.cntCrows_N])
  have htail := fun t : State => (t.seen_tailCore n 1 0x10 payload).1.mono (offs' := streamOffs n) (by simp +contextual [streamOffs])
  exact ((hbub.trans (hpass _)).trans (hcnt _)).trans (htail _)

end Counters

/-! ### MSTREAM -/

section Stream

variable {s : State} {n : Fin 384} {q : QCmd} {rest : List QCmd}

/-- The core with the accumulators that an MSTREAM leaves, and the queue behind it. -/
def streamCore (s : State) (n : Nat) (q : QCmd) (rest : List QCmd) : CoreS :=
  CoreS.accPasses { s.core n with mq := rest } (fun i => streamRow s n (tileOf s n q (mxTa q.slot)) ((((s.core n).seenBy q).reg (mxRs q.slot)).toNat + i))
    (mxRow q.slot) (mxRows q.slot) (mxKind q.slot = 1) (streamPasses (s.core n) (tileOf s n q (mxTa q.slot))).zipIdx

theorem streamCore_frame (s : State) (n : Nat) (q : QCmd) (rest : List QCmd) (hb : (s.core n).stBusy = false) :
    (streamCore s n q rest).mq = rest
      ∧ { streamCore s n q rest with acc := (s.core n).acc, accH := (s.core n).accH, accN := (s.core n).accN, accF := (s.core n).accF, stBusy := false, mq := (s.core n).mq }
        = s.core n := by
  obtain ⟨m, h, k, f, e⟩ : AccsOnly { s.core n with mq := rest } (streamCore s n q rest) := accPasses_accsOnly ..
  rw [e]
  refine ⟨rfl, ?_⟩
  calc _ = { s.core n with stBusy := (s.core n).stBusy } := by rw [hb]
    _ = s.core n := rfl

/-- The pairs of accumulator row and tile row, in the order that the A feeder asks for them. -/
def feederRows (s : State) (n : Nat) (q : QCmd) : List (Nat × Nat) :=
  (streamPasses (s.core n) (tileOf s n q (mxTa q.slot))).flatMap fun _ =>
    (List.range (mxRows q.slot)).map fun i => (mxRow q.slot + i, (((s.core n).seenBy q).reg (mxRs q.slot)).toNat + i)

/-- An MSTREAM that starts: the banks decide row by row, then the core streams. -/
theorem mstream_eq (h : MxHead s n 4 q rest) (hb : (s.core n).stBusy = false)
    (he : ((s.core n).seenBy q).mstreamError q.slot (tileOf s n q (mxTa q.slot)) = none) :
    let t := tileOf s n q (mxTa q.slot)
    let b := (s.mxPop n).firstBubbles n (feederRows s n q)
    let f := b.2.feed n t (feederRows s n q)
    s.mstream n = f.2.streams n (streamCore s n q rest) (b.1 + f.1) (s.core n).mcfg.passes (mxRows q.slot * (streamPasses (s.core n) t).length)
      (t.tid + bitsOf q.slot 12 4 * 4096 + t.fmt * 2 ^ 24) := by
  obtain ⟨hact, hcfg⟩ := seenBy_engine (s.core n) q
  have hc : (s.mxPop n).core n = { s.core n with mq := rest } := (mxPop_becomes h).1
  have ha : ∀ t, (s.mxPop n).aVal n t = s.aVal n t := fun t => funext₂ fun i p => aVal_modCore ..
  unfold State.mstream
  rw [mxHead_eq h]
  unfold tileOf at he
  simp only [hb, Bool.false_eq_true, if_false, he]
  rw [hc]
  simp only [hact, hcfg, ha]
  rfl

theorem mstream_asked (h : MxHead s n 4 q rest) (hb : (s.core n).stBusy = false)
    (he : ((s.core n).seenBy q).mstreamError q.slot (tileOf s n q (mxTa q.slot)) = none) :
    ∃ v b p pay, FeederAsked (s.mxPop n) v n
      ∧ s.mstream n = v.streams n (streamCore s n q rest) b p (mxRows q.slot * (streamPasses (s.core n) (tileOf s n q (mxTa q.slot))).length) pay :=
  ⟨_, _, _, _, ((s.mxPop n).firstBubbles_asked (feederRows s n q) n).trans (State.feed_asked _ _ _ n.isLt), mstream_eq h hb he⟩

end Stream

end Sys2Proof.Machine

namespace Sys2Proof.Safety

open Sys2Proof.Machine

/-- Settles O11: the banks decide row by row, then the passes run one after another over rows that do not meet, and the counters follow. -/
theorem matrixStreamAccumulates : Obligations.MatrixStreamAccumulates := by
  unfold Obligations.MatrixStreamAccumulates
  intro n s q rest h hb x tl he
  obtain ⟨v, b, p, pay, hv, heq⟩ := mstream_asked h hb he
  obtain ⟨-, hcores, -⟩ := mxPop_becomes h
  obtain ⟨hmq, hframe⟩ := streamCore_frame s n q rest hb
  refine ⟨_, congrArg Host.Outcome.next heq, ?_⟩
  rw [streams_core]
  refine ⟨fun i k hi hk => ?_, fun r k hk hr => ?_, rfl, hmq, hframe, ?_, ?_, fun m hm => ?_, ?_, ?_, ?_⟩
  · exact accAt_accPasses _ _ _ _ _ _ hi hk
  · exact accAt_accPasses_outside _ _ _ _ _ _ hk hr
  · rw [streams_counts, hv.regsBut.reg_eq (cntCrows_off_notMem n).2.2]
    rfl
  · refine Nat.le_trans (Nat.le_of_eq ?_) (streams_bubbles ..)
    rw [hv.regsBut.fget_eq (f := F.mxePerf_BUBBLES n) (mxePerf_off_notMem n).2]
    rfl
  · exact (streams_coresBut _ _ _ _ _ _ _ m hm).trans ((hv.core m).trans (hcores m hm))
  · exact banksOnly_of_arbs (t := v) hv.banksOnly (streams_arbs ..)
  · exact RegsBut.trans (hv.regsBut.mono (by simp)) (streams_regsBut _ _ _ _ _ _ _)
  · exact ((RestSame.refl s).setCore n _).trans (hv.rest (streams_rest ..))

end Sys2Proof.Safety
end

section
/-! O12: drain row after drain row is read, taken through the output path or added, and stored, each in bytes of its own (R112-R117). -/

namespace Sys2Proof.Machine

open Sys2Proof.Safety

/-! ### Numbers in bytes (R11) -/

theorem leVal_drop (d : Bytes) (k : Nat) : leVal (d.drop k) = leVal d / 256 ^ k := by
  induction d generalizing k with
  | nil => simp [leVal]
  | cons b d ih =>
    cases k with
    | zero => simp
    | succ k =>
      have hb := b.isLt
      have hd : (b.toNat + 256 * leVal d) / 256 = leVal d := by omega
      rw [List.drop_succ_cons, ih, leVal, Nat.pow_succ', ← Nat.div_div_eq_div_mul, hd]

theorem leVal_take (d : Bytes) (k : Nat) : leVal (d.take k) = leVal d % 256 ^ k := by
  induction d generalizing k with
  | nil => simp [leVal]
  | cons b d ih =>
    cases k with
    | zero => simp [leVal, Nat.mod_one]
    | succ k =>
      have hb := b.isLt
      have hm : (b.toNat + 256 * leVal d) % 256 = b.toNat := by omega
      have hd : (b.toNat + 256 * leVal d) / 256 = leVal d := by omega
      rw [List.take_succ_cons, leVal, ih, leVal, Nat.pow_succ', Nat.mod_mul, hm, hd]

/-- Element `k` of packed patterns of `w` bits (R129). -/
theorem packed_elem (w : Nat) (l : List Nat) {k : Nat} (hk : k < l.length) :
    l.foldr (fun x acc => x % 2 ^ w + acc * 2 ^ w) 0 / 2 ^ (k * w) % 2 ^ w = l[k] % 2 ^ w := by
  have hw := Nat.two_pow_pos w
  induction l generalizing k with
  | nil => cases hk
  | cons x l ih =>
    rw [List.foldr_cons]
    cases k with
    | zero => simp
    | succ k =>
      rw [Nat.succ_mul, Nat.add_comm (k * w), Nat.pow_add, ← Nat.div_div_eq_div_mul, Nat.add_mul_div_right _ _ hw, Nat.div_eq_of_lt (Nat.mod_lt _ hw), Nat.zero_add]
      exact ih (Nat.lt_of_succ_lt_succ hk)

/-- A field of `w` bits from bit `8 a + c` of a number, read from the bytes that hold it. -/
theorem bits_of_bytes {a b c w L : Nat} (N : Nat) (hb : c + w ≤ 8 * b) (hL : 8 * a + c + w ≤ 8 * L) :
    N % 256 ^ L / 256 ^ a % 256 ^ b / 2 ^ c % 2 ^ w = N / 2 ^ (8 * a + c) % 2 ^ w := by
  have h256 : ∀ x, 256 ^ x = 2 ^ (8 * x) := fun x => by rw [Nat.pow_mul]
  refine Nat.eq_of_testBit_eq fun i => ?_
  simp only [h256, Nat.testBit_mod_two_pow, Nat.testBit_div_two_pow]
  by_cases hi : i < w
  · rw [decide_eq_true (show i + c < 8 * b by omega), decide_eq_true (show i + c + 8 * a < 8 * L by omega), show i + c + 8 * a = i + (8 * a + c) by omega]
    rfl
  · rw [decide_eq_false hi]
    rfl

/-! ### Bytes of a scratchpad -/

/-- A byte lies in a range, given as its first byte and length. -/
def inside (r : Nat × Nat) (b : Nat) : Prop := r.1 ≤ b ∧ b < r.1 + r.2

theorem rangesMeet_eq_false {a b : Nat × Nat} : rangesMeet a b = false ↔ b.1 + b.2 ≤ a.1 ∨ a.1 + a.2 ≤ b.1 := by
  rw [rangesMeet, Bool.and_eq_false_iff, decide_eq_false_iff_not, decide_eq_false_iff_not, Nat.not_lt, Nat.not_lt]

theorem rangesMeet_symm {a b : Nat × Nat} (h : rangesMeet a b = false) : rangesMeet b a = false :=
  rangesMeet_eq_false.mpr (rangesMeet_eq_false.mp h).symm

/-- A byte of one range is outside ranges that do not meet it. -/
theorem outside_of_inside {r : Nat × Nat} {rs : List (Nat × Nat)} {b : Nat} (h : inside r b) (hr : ∀ r' ∈ rs, rangesMeet r r' = false) : outside rs b := by
  intro r' hr'
  obtain ⟨h1, h2⟩ := h
  have := rangesMeet_eq_false.mp (hr r' hr')
  omega

theorem outside_of_apart {r r' : Nat × Nat} {b : Nat} (h : inside r b) (hr : rangesMeet r r' = false) : outside [r'] b :=
  outside_of_inside h (List.forall_mem_singleton.mpr hr)

theorem spmAddr_add (n off i : Nat) : spmAddr n off + i = spmAddr n (off + i) := Nat.add_assoc ..

theorem core_of_cores {s t : State} (h : t.cores = s.cores) (m : Nat) : t.core m = s.core m := by
  unfold State.core
  rw [h]

/-- From `s` to `t` every core and the bytes `P` of core `n`'s scratchpad are as before. -/
structure SpmKept (s t : State) (n : Nat) (P : Nat → Prop) : Prop where
  cores : t.cores = s.cores
  byte : ∀ b, P b → t.getByte (spmAddr n b) = s.getByte (spmAddr n b)

namespace SpmKept

variable {s t u : State} {n : Nat} {P Q : Nat → Prop}

theorem refl (s : State) (n : Nat) (P : Nat → Prop) : SpmKept s s n P := ⟨rfl, fun _ _ => rfl⟩

theorem trans (h : SpmKept s t n P) (h' : SpmKept t u n P) : SpmKept s u n P :=
  ⟨h'.cores.trans h.cores, fun b hb => (h'.byte b hb).trans (h.byte b hb)⟩

theorem mono (h : SpmKept s t n P) (hP : ∀ b, Q b → P b) : SpmKept s t n Q := ⟨h.cores, fun b hb => h.byte b (hP b hb)⟩

/-- What memory holds decides the bytes of a scratchpad, whatever the registers say. -/
theorem of_mem (hc : t.cores = s.cores) (hm : t.mem = s.mem) : SpmKept s t n P := ⟨hc, fun b _ => by
  have hb : 0xC000000000 ≤ spmAddr n b := Nat.le_trans (by decide) (spmAddr_ge n b)
  unfold State.getByte
  rw [hm, t.memKey_other hb, s.memKey_other hb]⟩

theorem spmLE (h : SpmKept s t n P) {off len : Nat} (hP : ∀ b, inside (off, len) b → P b) : t.spmLE n off len = s.spmLE n off len := by
  unfold State.spmLE State.spm
  rw [getBytes_congr (s := s) (b := spmAddr n off) fun i hi => ?_]
  rw [spmAddr_add]
  exact h.byte (off + i) (hP _ ⟨Nat.le_add_right .., Nat.add_lt_add_left hi _⟩)

end SpmKept

/-- Bytes written to a scratchpad leave the rest of it and every core. -/
theorem spmPut_kept (s : State) (n off : Nat) (d : Bytes) {len : Nat} (hd : d.length = len) : SpmKept s (s.spmPut n off d) n (outside [(off, len)]) := by
  have hA := spmAddr_ge n off
  refine ⟨?_, fun b hb => State.getByte_setBytes_ne d s _ fun i hi => State.memKey_ne_of_spm s (Nat.le_add_right_of_le hA) ?_⟩
  · unfold State.spmPut
    rw [State.setBytes_eq]
  · have := hb (off, len) (List.mem_singleton_self _)
    unfold spmAddr
    omega

theorem getBytes_spmPut (s : State) (n off : Nat) (d : Bytes) : (s.spmPut n off d).getBytes (spmAddr n off) d.length = d := by
  have hA := spmAddr_ge n off
  refine State.getBytes_setBytes s _ d fun i j _ _ h => ?_
  rw [s.memKey_other (by omega), s.memKey_other (by omega)] at h
  omega

theorem spmLE_spmPut (s : State) (n off : Nat) (d : Bytes) {i len : Nat} (h : i + len ≤ d.length) :
    (s.spmPut n off d).spmLE n (off + i) len = leVal ((d.drop i).take len) := by
  unfold State.spmLE State.spm
  rw [← spmAddr_add]
  exact getLE_of_getBytes (getBytes_spmPut s n off d) h

/-- Words of 8 bytes written one after another read back. -/
theorem spmLE_spmPut_words (s : State) (n off : Nat) (l : List Nat) {k : Nat} (hk : k < l.length) :
    (s.spmPut n off (l.map (leBytes 8)).flatten).spmLE n (off + 8 * k) 8 = l[k] % 2 ^ 64 := by
  have hw : ∀ x ∈ l.map (leBytes 8), x.length = 8 := by simp
  have hl := length_flatten_of 8 _ hw
  have hp := flatten_piece 8 _ [] hw (r := k) (by simpa using hk)
  rw [List.length_map] at hl
  rw [List.append_nil] at hp
  rw [spmLE_spmPut _ _ _ _ (by omega), hp, List.getElem_map, leVal_leBytes]
  rfl

/-! ### Rows of a tile (R49, R50, R129) -/

theorem fmtWidth_pos (f : Nat) : 0 < fmtWidth f := by
  unfold fmtWidth FFmt.width
  split_ifs <;> omega

/-- The bytes of row `i`. -/
def Tile.row (t : Tile) (i : Nat) : Nat × Nat := (t.rowOff i, t.rowBytes)

/-- Two rows of a tile that passes the checks of R49 share no byte. -/
theorem Tile.row_apart {t : Tile} (h : t.addrOk = true) {i j : Nat} (hij : i ≠ j) : rangesMeet (t.row i) (t.row j) = false := by
  simp only [Tile.addrOk, Bool.and_eq_true, decide_eq_true_eq] at h
  obtain ⟨⟨-, hs⟩, -⟩ := h
  have hstep : ∀ {a b : Nat}, a < b → a * t.stride + t.stride ≤ b * t.stride := fun {a b} hab => by
    rw [← Nat.succ_mul]
    exact Nat.mul_le_mul_right t.stride hab
  rw [rangesMeet_eq_false]
  unfold Tile.row Tile.rowOff
  dsimp only
  rcases Nat.lt_or_gt_of_ne hij with hlt | hlt
  · have := hstep hlt
    omega
  · have := hstep hlt
    omega

/-- An element and the bytes that hold it lie in a row of `cols` elements. -/
theorem elem_bytes_le {k cols w : Nat} (hk : k < cols) : k * w / 8 + ceilDiv (k * w % 8 + w) 8 ≤ ceilDiv (cols * w) 8 := by
  have := Nat.mul_le_mul_right w (Nat.succ_le_of_lt hk)
  rw [Nat.succ_mul] at this
  unfold ceilDiv
  omega

theorem length_packRow (w : Nat) (l : List Nat) : (packRow w l).length = ceilDiv (l.length * w) 8 := length_leBytes ..

/-- An element of a row stored in a tile. -/
theorem tileElem_packRow (s : State) (n : Nat) (t : Tile) (i : Nat) (l : List Nat) {k : Nat} (hk : k < l.length) :
    (s.spmPut n (t.rowOff i) (packRow (fmtWidth t.fmt) l)).tileElem n t i k = l[k] % 2 ^ fmtWidth t.fmt := by
  unfold State.tileElem
  dsimp only
  rw [← packed_elem _ _ hk]
  have hw := fmtWidth_pos t.fmt
  generalize fmtWidth t.fmt = w at *
  have hlen := elem_bytes_le (w := w) hk
  have hb : k * w % 8 + w ≤ 8 * ceilDiv (k * w % 8 + w) 8 := by unfold ceilDiv; omega
  rw [spmLE_spmPut _ _ _ _ (by rw [length_packRow]; exact hlen), leVal_take, leVal_drop, packRow, leVal_leBytes, bitsOf,
    show k * w % 8 + w - 1 + 1 - k * w % 8 = w by omega, bits_of_bytes _ hb (by omega), Nat.div_add_mod]

/-- A row that stands keeps its elements. -/
theorem SpmKept.tileElem {s t : State} {n : Nat} {P : Nat → Prop} (h : SpmKept s t n P) {tl : Tile} {i k : Nat} (hP : ∀ b, inside (tl.row i) b → P b)
    (hk : k < tl.cols) : t.tileElem n tl i k = s.tileElem n tl i k := by
  have hlen := elem_bytes_le (w := fmtWidth tl.fmt) hk
  unfold State.tileElem
  dsimp only
  rw [h.spmLE fun b hb => hP b ?_]
  obtain ⟨h1, h2⟩ := hb
  unfold inside Tile.row Tile.rowBytes
  dsimp only at *
  omega

/-! ### Drain row after drain row (R112, R114, R117) -/

/-- Output row `i`: its scales and elements (R117). -/
def State.outputRow (s : State) (n : Nat) (d : DrainCmd) (i : Nat) : List Nat × List OutElem :=
  (s.core n).mcfg.outRow i (((s.drainSource n d i).zipIdx.map fun p => (s.core n).mcfg.stages p.2 (fmtW48.dec p.1)).map (·.1))

/-- Drain row `i` where neither the checksum nor a trap stops it. -/
def State.rowDrained (s : State) (n : Nat) (d : DrainCmd) (i : Nat) : State :=
  let t := if d.partial' then s.spmPut n (d.tc.rowOff i) ((s.drainSource n d i).map (leBytes 8)).flatten else s
  if d.outputs then t.storeRow n d (s.core n).mcfg i (s.outputRow n d i) else t

/-- The first `k` drain rows. -/
def State.rowsDrained (s : State) (n : Nat) (d : DrainCmd) (k : Nat) : State := (List.range k).foldl (fun s i => s.rowDrained n d i) s

section Rows

variable (s : State) (n : Nat) (d : DrainCmd)

theorem drainRow_run (c : Counts) (i : Nat) : ∃ c', drainRow n d false false ⟨s, c, .run⟩ i = ⟨s.rowDrained n d i, c', .run⟩ := by
  unfold drainRow State.rowDrained
  cases d.outputs
  · exact ⟨c, rfl⟩
  · exact ⟨_, rfl⟩

theorem rowsDrained_succ (k : Nat) : s.rowsDrained n d (k + 1) = (s.rowsDrained n d k).rowDrained n d k := by
  simp [State.rowsDrained, List.range_succ]

theorem foldl_drainRow (c : Counts) (k : Nat) : ∃ c', (List.range k).foldl (drainRow n d false false) ⟨s, c, .run⟩ = ⟨s.rowsDrained n d k, c', .run⟩ := by
  induction k with
  | zero => exact ⟨c, rfl⟩
  | succ k ih =>
    obtain ⟨c', h⟩ := ih
    rw [List.range_succ, List.foldl_append, h, rowsDrained_succ]
    exact drainRow_run _ n d c' k

theorem spmPut_cores (s : State) (n off : Nat) (b : Bytes) : (s.spmPut n off b).cores = s.cores := (spmPut_kept s n off b rfl).cores

theorem storeRow_cores (o : OutCfg) (i : Nat) (r : List Nat × List OutElem) : (s.storeRow n d o i r).cores = s.cores := by
  unfold State.storeRow
  dsimp only
  split_ifs <;> simp only [spmPut_cores]

theorem rowDrained_cores (i : Nat) : (s.rowDrained n d i).cores = s.cores := by
  unfold State.rowDrained
  dsimp only
  split_ifs <;> simp only [storeRow_cores, spmPut_cores]

theorem rowsDrained_cores (k : Nat) : (s.rowsDrained n d k).cores = s.cores :=
  List.foldlRecOn (motive := fun t => t.cores = s.cores) _ _ rfl fun t ht i _ => (rowDrained_cores t n d i).trans ht

variable {s n d} {P : Nat → Prop} {i k : Nat}

/-- What each row from `i` on keeps stands when row `k` comes. -/
theorem rowsDrained_kept (hik : i ≤ k) (h : ∀ j, i ≤ j → j < k → ∀ u : State, u.cores = s.cores → SpmKept u (u.rowDrained n d j) n P) :
    SpmKept (s.rowsDrained n d i) (s.rowsDrained n d k) n P := by
  induction k, hik using Nat.le_induction with
  | base => exact .refl ..
  | succ k hik ih =>
    rw [rowsDrained_succ]
    exact (ih fun j h1 h2 => h j h1 (Nat.lt_succ_of_lt h2)).trans (h k hik (Nat.lt_succ_self k) _ (rowsDrained_cores s n d k))

/-- What the rows after row `i` keep stands as row `i` left it. -/
theorem rowsDrained_kept_after (hik : i < k) (h : ∀ j < k, j ≠ i → ∀ u : State, u.cores = s.cores → SpmKept u (u.rowDrained n d j) n P) :
    SpmKept ((s.rowsDrained n d i).rowDrained n d i) (s.rowsDrained n d k) n P := by
  rw [← rowsDrained_succ]
  exact rowsDrained_kept hik fun j hj hjk => h j hjk (Nat.ne_of_gt hj)

end Rows

/-! ### MDRAIN of KIND DIRECT: a row converted (R114, R117) -/

section DirectDrain

variable {s : State} {n : Nat} {d : DrainCmd} {o : OutCfg}

/-- No scales, and each element converted by itself (R117, R130). -/
theorem outRow_plain (h : isMX o.outFmt = false) (i : Nat) (vs : List Num) : (o.outRow i vs).1 = []
    ∧ (o.outRow i vs).2.map (·.bits) = vs.zipIdx.map fun p => (convert (fmtOf o.outFmt) (o.mode (64 * i + p.2)) o.ftz p.1).1 := by
  unfold OutCfg.outRow
  rw [h]
  exact ⟨rfl, by simp⟩

/-- The pattern of column `k` of drain row `i`: the accumulator value after the stages, converted. -/
def CoreS.directElem (c : CoreS) (d : DrainCmd) (i k : Nat) : Nat :=
  (convert (fmtOf c.mcfg.outFmt) (c.mcfg.mode (64 * i + k)) c.mcfg.ftz (c.mcfg.stages k (fmtW48.dec (w48OfA38 (accAt c (d.row + i) k)))).1).1

theorem storeRow_plain {r : List Nat × List OutElem} (hr : r.1 = []) (i : Nat) : s.storeRow n d o i r
    = if o.remEn then (s.spmPut n (d.tb.rowOff i) (packRow (fmtWidth d.tb.fmt) (r.2.map (·.bits)))).spmPut n (d.tr.rowOff i) (packRow 16 (r.2.map (·.rem)))
      else s.spmPut n (d.tb.rowOff i) (packRow (fmtWidth d.tb.fmt) (r.2.map (·.bits))) := by
  unfold State.storeRow
  rw [hr]
  rfl

/-- The row of the output tile stored. -/
def State.putDirect (s : State) (n : Nat) (d : DrainCmd) (i : Nat) : State :=
  s.spmPut n (d.tb.rowOff i) (packRow (fmtWidth d.tb.fmt) ((List.range d.tb.cols).map ((s.core n).directElem d i)))

theorem putDirect_kept (s : State) (n : Nat) (d : DrainCmd) (i : Nat) : SpmKept s (s.putDirect n d i) n (outside [d.tb.row i]) :=
  spmPut_kept s n _ _ (by simp [length_packRow, Tile.rowBytes])

/-- What makes a command an MDRAIN of KIND DIRECT into a format that is no MX format, its remainder tile as R122 asks. -/
structure DirectDrain (c : CoreS) (d : DrainCmd) : Prop where
  pad : d.pad = false
  kind : d.kind = 0
  plain : isMX c.mcfg.outFmt = false
  rem : c.mcfg.remEn = true → d.tr.fmt = 0 ∧ d.tr.cols = d.tb.cols

namespace DirectDrain

section Shape

variable {c : CoreS} (h : DirectDrain c d)
include h

theorem partial_eq : d.partial' = false := by simp [DrainCmd.partial', h.pad, h.kind]

theorem outputs_eq : d.outputs = true := by simp [DrainCmd.outputs, h.pad, h.kind]

theorem nd_eq : d.nd = d.tb.cols := by simp [DrainCmd.nd, h.partial_eq]

theorem drainHeader_eq (s : State) (n : Nat) : s.drainHeader n d = s := by
  unfold State.drainHeader
  simp [h.partial_eq]

theorem of_mcfg {c' : CoreS} (hc : c'.mcfg = c.mcfg) : DirectDrain c' d := ⟨h.pad, h.kind, hc ▸ h.plain, hc ▸ h.rem⟩

end Shape

variable (h : DirectDrain (s.core n) d)
include h

theorem drainSource_eq (i : Nat) : s.drainSource n d i = (List.range d.tb.cols).map fun k => w48OfA38 (accAt (s.core n) (d.row + i) k) := by
  unfold State.drainSource
  simp [h.pad, h.kind, h.nd_eq, accAt]

theorem outputRow_scales (i : Nat) : (s.outputRow n d i).1 = [] := (outRow_plain h.plain i _).1

theorem outputRow_bits (i : Nat) : (s.outputRow n d i).2.map (·.bits) = (List.range d.tb.cols).map ((s.core n).directElem d i) := by
  unfold State.outputRow
  rw [(outRow_plain h.plain i _).2, h.drainSource_eq]
  refine List.ext_getElem (by simp) fun k _ _ => ?_
  simp [CoreS.directElem]

theorem length_outputRow (i : Nat) : (s.outputRow n d i).2.length = d.tb.cols := by
  simpa using congrArg List.length (h.outputRow_bits i)

theorem rowDrained_eq (i : Nat) : s.rowDrained n d i
    = if (s.core n).mcfg.remEn then (s.putDirect n d i).spmPut n (d.tr.rowOff i) (packRow 16 ((s.outputRow n d i).2.map (·.rem))) else s.putDirect n d i := by
  unfold State.rowDrained
  simp only [h.partial_eq, h.outputs_eq, Bool.false_eq_true, if_false, if_true]
  rw [storeRow_plain (h.outputRow_scales i), h.outputRow_bits]
  rfl

/-- The remainder row that may follow leaves all but its own bytes (R122). -/
theorem putDirect_rowDrained_kept (i : Nat) : SpmKept (s.putDirect n d i) (s.rowDrained n d i) n fun b => (s.core n).mcfg.remEn = true → outside [d.tr.row i] b := by
  rw [h.rowDrained_eq]
  split
  · rename_i hr
    obtain ⟨hf, hc⟩ := h.rem hr
    have hl : (packRow 16 ((s.outputRow n d i).2.map (·.rem))).length = d.tr.rowBytes := by
      rw [length_packRow, List.length_map, h.length_outputRow, Tile.rowBytes, hc, hf]
      rfl
    exact (spmPut_kept _ n _ _ hl).mono fun b hb => hb hr
  · exact .refl ..

theorem rowDrained_kept (i : Nat) : SpmKept s (s.rowDrained n d i) n fun b => outside [d.tb.row i] b ∧ ((s.core n).mcfg.remEn = true → outside [d.tr.row i] b) :=
  ((putDirect_kept s n d i).mono fun _ hb => hb.1).trans ((h.putDirect_rowDrained_kept i).mono fun _ hb => hb.2)

theorem tileElem_rowDrained {i k : Nat} (hk : k < d.tb.cols) (ha : (s.core n).mcfg.remEn = true → rangesMeet (d.tb.row i) (d.tr.row i) = false) :
    (s.rowDrained n d i).tileElem n d.tb i k = (s.core n).directElem d i k % 2 ^ fmtWidth d.tb.fmt := by
  rw [(h.putDirect_rowDrained_kept i).tileElem (fun b hb hr => outside_of_apart hb (ha hr)) hk]
  unfold State.putDirect
  rw [tileElem_packRow _ _ _ _ _ (by simpa using hk)]
  simp

end DirectDrain

end DirectDrain

/-! ### MPADD of KIND ADD: a spilled row added (R114) -/

section Add

variable {s : State} {n : Nat} {d : DrainCmd}

theorem spmLE_spmPut_leBytes (s : State) (n off k v : Nat) : (s.spmPut n off (leBytes k v)).spmLE n off k = v % 256 ^ k := by
  have h := spmLE_spmPut s n off (leBytes k v) (i := 0) (len := k) (by simp)
  rw [List.drop_zero, List.take_of_length_le (by simp), leVal_leBytes] at h
  exact h

/-- What makes a command an MPADD of KIND ADD on W48 tiles of as many columns (R113). -/
structure SpillAdd (d : DrainCmd) : Prop where
  pad : d.pad = true
  kind : d.kind = 2
  fmtC : d.tc.fmt = 8
  fmtA : d.ta.fmt = 8
  cols : d.ta.cols = d.tc.cols

namespace SpillAdd

variable (h : SpillAdd d)
include h

theorem partial_eq : d.partial' = true := by simp [DrainCmd.partial', h.pad]

theorem outputs_eq : d.outputs = false := by simp [DrainCmd.outputs, h.pad, h.kind]

theorem nd_eq : d.nd = d.tc.cols := by simp [DrainCmd.nd, h.partial_eq]

theorem rowBytes_eq : d.tc.rowBytes = 8 * d.tc.cols ∧ d.ta.rowBytes = 8 * d.tc.cols := by
  simp only [Tile.rowBytes, h.fmtC, h.fmtA, h.cols, fmtWidth, ceilDiv, if_true]
  omega

theorem rowDrained_eq (i : Nat) : s.rowDrained n d i = s.spmPut n (d.tc.rowOff i) ((s.drainSource n d i).map (leBytes 8)).flatten := by
  unfold State.rowDrained
  rw [h.partial_eq, h.outputs_eq]
  rfl

theorem drainSource_eq (i : Nat) : s.drainSource n d i = (List.range d.tc.cols).map fun k =>
    w48Add (s.spmLE n (d.tc.rowOff i + 8 * k) 8 % 2 ^ 48) (s.spmLE n (d.ta.rowOff i + 8 * k) 8 % 2 ^ 48) := by
  unfold State.drainSource
  simp [h.pad, h.nd_eq]

theorem rowDrained_kept (i : Nat) : SpmKept s (s.rowDrained n d i) n (outside [d.tc.row i]) := by
  rw [h.rowDrained_eq]
  refine spmPut_kept s n _ _ ?_
  rw [length_flatten_of 8 _ (by simp), h.drainSource_eq, h.rowBytes_eq.1]
  simp [Nat.mul_comm]

theorem spmLE_rowDrained {i k : Nat} (hk : k < d.tc.cols) : (s.rowDrained n d i).spmLE n (d.tc.rowOff i + 8 * k) 8
    = w48Add (s.spmLE n (d.tc.rowOff i + 8 * k) 8 % 2 ^ 48) (s.spmLE n (d.ta.rowOff i + 8 * k) 8 % 2 ^ 48) % 2 ^ 64 := by
  rw [h.rowDrained_eq, spmLE_spmPut_words _ _ _ _ (by simpa [h.drainSource_eq] using hk)]
  simp [h.drainSource_eq]

/-- A word of the partial or the spilled row lies in that row. -/
theorem word_inside {i k b : Nat} (hk : k < d.tc.cols) :
    (inside (d.tc.rowOff i + 8 * k, 8) b → inside (d.tc.row i) b) ∧ (inside (d.ta.rowOff i + 8 * k, 8) b → inside (d.ta.row i) b) := by
  obtain ⟨hc, ha⟩ := h.rowBytes_eq
  unfold inside Tile.row
  dsimp only
  omega

/-- NEXT_CHUNK steps, CLOSED stays (R114). -/
theorem drainHeader_eq : s.drainHeader n d
    = (s.spmPut n d.tc.base (leBytes 2 (s.hdrNext n d.tc + 1))).spmPut n (d.tc.base + 2) (leBytes 1 (s.spmLE n (d.tc.base + 2) 1)) := by
  unfold State.drainHeader
  simp [h.partial_eq, h.pad, h.kind]

theorem drainHeader_kept : SpmKept s (s.drainHeader n d) n (outside [(d.tc.base, 64)]) := by
  rw [h.drainHeader_eq]
  refine ((spmPut_kept s n _ _ (length_leBytes 2 _)).mono fun b hb => ?_).trans ((spmPut_kept _ n _ _ (length_leBytes 1 _)).mono fun b hb => ?_)
  all_goals
    simp only [outside, List.forall_mem_singleton] at hb ⊢
    omega

theorem hdrNext_drainHeader : (s.drainHeader n d).hdrNext n d.tc = (s.hdrNext n d.tc + 1) % 65536 := by
  rw [h.drainHeader_eq]
  refine ((spmPut_kept _ n _ _ (length_leBytes 1 _)).spmLE fun b hb => ?_).trans (spmLE_spmPut_leBytes s n _ 2 _)
  simp only [inside, outside, List.forall_mem_singleton] at hb ⊢
  omega

end SpillAdd

end Add

/-! ### A command from its head to its last result (R113, R114) -/

section Command

variable {s : State} {n : Fin 384} {op : Nat} {q : QCmd} {rest : List QCmd}

theorem drainCmd_mxPop (h : MxHead s n op q rest) : (s.mxPop n).drainCmd n q = s.drainCmd n q := by
  unfold State.drainCmd
  rw [(mxPop_becomes h).1, seenBy_mq]
  simp only [State.mxPop, spmLE_modCore]
  rfl

theorem drainError_mxPop (h : MxHead s n op q rest) (d : DrainCmd) : (s.mxPop n).drainError n d = s.drainError n d := by
  unfold State.drainError State.chunkOk State.hdrNext State.hdrClosed
  rw [(mxPop_becomes h).1]
  simp only [State.mxPop, spmLE_modCore]

theorem prtCfg_off_notMem (p : Nat) : (Reg.prtCfg p).off ∉ lossOffs := by
  rw [mem_lossOffs]
  rintro ⟨b, hb, h⟩
  simp only [Reg.off] at h
  omega

theorem trapOn_seen {t : State} (h : Seen s t) (m : Nat) : t.trapOn m = s.trapOn m := by
  unfold State.trapOn
  rw [h.core]
  simp only [h.1.fget_eq (f := F.prtCfg_CLUSTERS _) (prtCfg_off_notMem _)]

theorem getByte_modCore (s : State) (n : Nat) (f : CoreS → CoreS) (a : Nat) : (s.modCore n f).getByte a = s.getByte a := rfl

theorem trapOn_mxPop (h : MxHead s n op q rest) : (s.mxPop n).trapOn n = s.trapOn n := by
  unfold State.trapOn
  rw [(mxPop_becomes h).1]
  rfl

theorem ckctl_seen {t : State} (h : Seen s t) (n : Fin 384) : t.fbit (F.mxeCkctl_CKEN n) = s.fbit (F.mxeCkctl_CKEN n) := by
  have hn := n.isLt
  have ho : (Reg.mxeCkctl n).off ∉ lossOffs := not_lossOffs_of_lt (by simp only [Reg.off]; omega)
  unfold State.fbit
  rw [h.1.fget_eq (f := F.mxeCkctl_CKEN n) ho]

/-! The checks of R113. -/

theorem check_eq_none {p : Prop} [Decidable p] {e : Nat} {o : Option Nat} : (if p then some e else o) = none ↔ ¬ p ∧ o = none := by
  split <;> simp [*]

/-- What a command without a program error has passed (R113, R122). -/
theorem passed_of_drainError {s : State} {n : Nat} {d : DrainCmd} (h : s.drainError n d = none) :
    (d.partial' = true → d.tc.fmt = 8) ∧ (d.pad = true → d.ta.fmt = 8 ∧ d.ta.cols = d.nd ∧ d.rows ≤ d.ta.rows)
      ∧ (d.outputs = true → (s.core n).mcfg.remEn = true → d.tr.fmt = 0 ∧ d.tr.cols = d.nd) ∧ partsApart (d.parts (s.core n).mcfg) = true := by
  simp only [State.drainError, check_eq_none] at h
  obtain ⟨-, -, hfmt, -, hcols, -, -, hrows, -, -, hrem, -, hparts, -⟩ := h
  have hw48 : (d.partial' = true → d.tc.fmt = 8) ∧ (d.pad = true → d.ta.fmt = 8) := by simpa using hfmt
  have hnd : (d.partial' = true → d.tc.cols = d.nd) ∧ (d.outputs = true → d.tb.cols = d.nd) ∧ (d.pad = true → d.ta.cols = d.nd) := by simpa using hcols
  have hfit : (d.partial' = true → d.rows ≤ d.tc.rows) ∧ (d.outputs = true → d.rows ≤ d.tb.rows) ∧ (d.pad = true → d.rows ≤ d.ta.rows) := by simpa using hrows
  exact ⟨hw48.1, fun hp => ⟨hw48.2 hp, hnd.2.2 hp, hfit.2.2 hp⟩, by simpa using hrem, by simpa using hparts⟩

theorem apart_of_partsApart {p : List (Nat × Nat)} {ps : List (List (Nat × Nat))} (h : partsApart (p :: ps) = true) :
    ∀ q ∈ ps, ∀ a ∈ p, ∀ b ∈ q, rangesMeet a b = false := by
  simp only [partsApart, Bool.and_eq_true, List.all_eq_true, Bool.not_eq_true'] at h
  exact h.1

/-! What follows the rows. -/

theorem watchAdd_kept (s : State) (n p t : Nat) (c : Counts) (str seq die : Nat) (P : Nat → Prop) : SpmKept s (s.watchAdd p t c str seq die) n P := by
  have hr : ∀ (u : State) (r : Reg) (v : Nat), SpmKept u (u.setReg r v) n P := fun u r v => .of_mem rfl rfl
  have hc := List.foldlRecOn (motive := fun u => SpmKept s u n P) ([c.el, c.ze, c.sa, c.fl, c.na, c.inf].zipIdx)
    (fun s q => s.setReg (.cntNw p t q.2) ((s.reg (.cntNw p t q.2) + q.1) % 2 ^ 64)) (.refl s n P) fun u hu q _ => hu.trans (hr u _ _)
  unfold State.watchAdd
  dsimp only
  split
  · exact hc
  split
  · exact (hc.trans (hr _ _ _)).trans (hr _ _ _)
  · exact hc.trans (hr _ _ _)

theorem statAdd_kept (s : State) (n base : Nat) (c : Counts) : SpmKept s (s.statAdd n base c) n (outside [(base, 64)]) := by
  unfold State.statAdd
  refine List.foldlRecOn (motive := fun u => SpmKept s u n (outside [(base, 64)])) _ _ (.refl ..) fun u hu p hp => hu.trans ?_
  have hp2 : p.2 < 6 := (List.mem_zipIdx hp).2.1
  refine (spmPut_kept u n _ _ (length_leBytes 8 _)).mono fun b hb => ?_
  simp only [outside, List.forall_mem_singleton] at hb ⊢
  omega

theorem bankLines_kept (s : State) (n : Fin 384) (rs : List (Nat × Nat)) (P : Nat → Prop) :
    SpmKept s (rs.foldl (fun (s : State) p => s.bankLines n 2 p.1 p.2) s) n P := by
  refine List.foldlRecOn (motive := fun u => SpmKept s u n P) rs _ (.refl ..) fun u hu p _ => hu.trans ?_
  obtain ⟨⟨a, h⟩, -⟩ := u.bankLines_banks n 2 p.1 p.2
  rw [h]
  exact .of_mem rfl rfl

/-- The statistics block, where the command writes it (R120). -/
def DrainCmd.statPart (d : DrainCmd) (o : OutCfg) : List (Nat × Nat) := if d.outputs && o.statEn then [(o.statBase, 64)] else []

/-- The counts of the command in numeric watch (R120). -/
def State.drainWatched (s : State) (n : Nat) (d : DrainCmd) (c : CoreS) (k : Counts) : State :=
  match c.inst with
  | some i => if d.outputs then s.watchAdd i.part d.tb.tid k i.stream i.seq (dieOfCore n) else s
  | none => s

/-- The counts there, then in the statistics block (R120). -/
def State.drainCounted (s : State) (n : Nat) (d : DrainCmd) (c : CoreS) (k : Counts) : State :=
  if d.outputs && c.mcfg.statEn then (s.drainWatched n d c k).statAdd n c.mcfg.statBase k else s.drainWatched n d c k

theorem drainWatched_kept (s : State) (n : Nat) (d : DrainCmd) (c : CoreS) (k : Counts) (P : Nat → Prop) : SpmKept s (s.drainWatched n d c k) n P := by
  unfold State.drainWatched
  split
  · split
    · exact watchAdd_kept ..
    · exact .refl ..
  · exact .refl ..

theorem drainCounted_kept (s : State) (n : Nat) (d : DrainCmd) (c : CoreS) (k : Counts) :
    SpmKept s (s.drainCounted n d c k) n (outside (d.statPart c.mcfg)) := by
  have hw := fun P => drainWatched_kept s n d c k P
  unfold State.drainCounted DrainCmd.statPart
  split
  · exact (hw _).trans (statAdd_kept ..)
  · exact hw _

/-- A drain command that starts with no checksum to compare and no trap in force: Tail's packet, the rows, the header, the statistics; then the unit is busy. -/
theorem drain_steps (h : MxHead s n op q rest) (hb : (s.core n).drBusy = false) (hck : s.fbit (F.mxeCkctl_CKEN n) = false) (htr : s.trapOn n = false)
    (he : s.drainError n (s.drainCmd n q) = none) :
    ∃ u v, SpmKept (s.mxPop n) u n (fun _ => True)
      ∧ SpmKept ((u.rowsDrained n (s.drainCmd n q) (s.drainCmd n q).rows).drainHeader n (s.drainCmd n q)) v n (outside ((s.drainCmd n q).statPart (s.core n).mcfg))
      ∧ s.drain n op = v.modCore n fun c => { c with drBusy := true, drParts := ((s.drainCmd n q).parts (s.core n).mcfg).flatten } := by
  generalize hd : s.drainCmd n q = d at he ⊢
  have hs := (s.mxPop n).seen_tailCore n 1 0x11 (d.kind + (d.idx % 65536) * 16 + d.tb.tid * 2 ^ 20)
  have hck' : (s.mxPop n).fbit (F.mxeCkctl_CKEN n) = false := hck
  have htr' := (trapOn_mxPop h).trans htr
  rw [← ckctl_seen hs n] at hck'
  rw [← trapOn_seen hs n] at htr'
  unfold State.drain
  rw [mxHead_eq h]
  simp only [hb, drainCmd_mxPop h, hd, drainError_mxPop h, he, hck', htr', Bool.false_eq_true, if_false]
  generalize (s.mxPop n).tailCore n 1 0x11 (d.kind + (d.idx % 65536) * 16 + d.tb.tid * 2 ^ 20) = u at hs ⊢
  obtain ⟨c, hc⟩ := foldl_drainRow u n d .zero d.rows
  rw [hc]
  refine ⟨u, _, ?_, ?_, rfl⟩
  · obtain ⟨-, r, q, b, rfl⟩ := hs
    exact .of_mem rfl rfl
  · exact (drainCounted_kept _ n d (s.core n) c).trans (bankLines_kept _ n _ _)

/-- The core of the command, and the others. -/
theorem drained_core {v : State} (h : MxHead s n op q rest) (hv : v.cores = (s.mxPop n).cores) (f : CoreS → CoreS) :
    (v.modCore n f).core n = f { s.core n with mq := rest } ∧ CoresBut s (v.modCore n f) n := by
  obtain ⟨hself, hbut, -⟩ := mxPop_becomes h
  refine ⟨?_, fun m hm => ?_⟩
  · rw [State.modCore, State.core_setCore_self, core_of_cores hv, hself]
  · rw [State.modCore, State.core_setCore_ne _ _ hm, core_of_cores hv, hbut m hm]

end Command

/-! ### The parts of each of the two commands (R113) -/

/-- The rows of a tile that the command drains. -/
def DrainCmd.rowsOf (d : DrainCmd) (t : Tile) : List (Nat × Nat) := (List.range d.rows).map fun i => t.row i

theorem DrainCmd.mem_rowsOf {d : DrainCmd} (t : Tile) {i : Nat} (hi : i < d.rows) : t.row i ∈ d.rowsOf t := List.mem_map.mpr ⟨i, List.mem_range.mpr hi, rfl⟩

theorem outside_of_mem {rs : List (List (Nat × Nat))} {p : List (Nat × Nat)} {b : Nat} (h : outside rs.flatten b) (hp : p ∈ rs) : outside p b :=
  fun r hr => h r (List.mem_flatten.mpr ⟨p, hp, hr⟩)

theorem outside_row {d : DrainCmd} {t : Tile} {i b : Nat} (h : outside (d.rowsOf t) b) (hi : i < d.rows) : outside [t.row i] b :=
  List.forall_mem_singleton.mpr (h _ (d.mem_rowsOf t hi))

/-- The statistics block is a part of the command. -/
theorem outside_statPart {d : DrainCmd} {o : OutCfg} {b : Nat} (h : outside (d.parts o).flatten b) : outside (d.statPart o) b := by
  unfold DrainCmd.statPart
  split
  · rename_i hs
    exact outside_of_mem h (by simp [DrainCmd.parts, hs])
  · nofun

theorem DirectDrain.parts_eq {c : CoreS} {d : DrainCmd} (h : DirectDrain c d) : d.parts c.mcfg = d.rowsOf d.tb
    :: ((if c.mcfg.remEn then [d.rowsOf d.tr] else []) ++ (if c.mcfg.statEn then [[(c.mcfg.statBase, 64)]] else [])) := by
  simp [DrainCmd.parts, h.partial_eq, h.outputs_eq, h.pad, h.plain, DrainCmd.rowsOf, Tile.row]

theorem SpillAdd.parts_eq {d : DrainCmd} (h : SpillAdd d) (o : OutCfg) : d.parts o
    = [d.rowsOf d.tc, [(d.tc.base, 64)], (d.ta.base, 64) :: (List.range d.ta.rows).map fun i => d.ta.row i] := by
  simp [DrainCmd.parts, h.partial_eq, h.outputs_eq, h.pad, DrainCmd.rowsOf, Tile.row]

/-! ### The two commands (R114, R117) -/

section DirectDrain

variable {s : State} {n : Fin 384} {q : QCmd} {rest : List QCmd} {d : DrainCmd}

theorem direct_of_head (h : MxHead s n 5 q rest) (hk : mxKind q.slot = 0) (hm : isMX (s.core n).mcfg.outFmt = false) (he : s.drainError n (s.drainCmd n q) = none) :
    DirectDrain (s.core n) (s.drainCmd n q) := by
  obtain ⟨-, hop, -⟩ := h
  obtain ⟨-, -, hrem, -⟩ := passed_of_drainError he
  have hp : (s.drainCmd n q).pad = false := by simp [State.drainCmd, hop]
  have hk' : (s.drainCmd n q).kind = 0 := hk
  have hnd : (s.drainCmd n q).nd = (s.drainCmd n q).tb.cols := by simp [DrainCmd.nd, DrainCmd.partial', hp, hk']
  exact ⟨hp, hk', hm, fun hr => hnd ▸ hrem (by simp [DrainCmd.outputs, hp, hk']) hr⟩

namespace DirectDrain

variable (h : DirectDrain (s.core n) d) (hp : partsApart (d.parts (s.core n).mcfg) = true)
include h hp

theorem row_apart_rem (hr : (s.core n).mcfg.remEn = true) {i j : Nat} (hi : i < d.rows) (hj : j < d.rows) : rangesMeet (d.tb.row i) (d.tr.row j) = false := by
  rw [h.parts_eq, hr] at hp
  exact apart_of_partsApart hp (d.rowsOf d.tr) (by simp) _ (d.mem_rowsOf _ hi) _ (d.mem_rowsOf _ hj)

theorem row_apart_stat {i : Nat} (hi : i < d.rows) : ∀ r ∈ d.statPart (s.core n).mcfg, rangesMeet (d.tb.row i) r = false := by
  intro r hr
  unfold DrainCmd.statPart at hr
  rw [h.outputs_eq] at hr
  split at hr
  · rename_i hs
    rw [h.parts_eq] at hp
    rw [List.mem_singleton.mp hr]
    exact apart_of_partsApart hp [((s.core n).mcfg.statBase, 64)] (by simp_all) _ (d.mem_rowsOf _ hi) _ (List.mem_singleton_self _)
  · cases hr

/-- Row `i` of the output tile is stored as converted, and stands from then on. -/
theorem tileElem_rowsDrained (ha : d.tb.addrOk = true) {i k : Nat} (hi : i < d.rows) (hk : k < d.tb.cols) :
    (s.rowsDrained n d d.rows).tileElem n d.tb i k = (s.core n).directElem d i k % 2 ^ fmtWidth d.tb.fmt := by
  have hkept := rowsDrained_kept_after (s := s) (n := n) (d := d) (P := inside (d.tb.row i)) hi fun j hj hne u hu => by
    have hu' := core_of_cores hu n
    refine (rowDrained_kept (h.of_mcfg (congrArg CoreS.mcfg hu') : DirectDrain (u.core n) d) j).mono fun b hb => ⟨?_, fun hr => ?_⟩
    · exact outside_of_apart hb (Tile.row_apart ha hne.symm)
    · exact outside_of_apart hb (h.row_apart_rem hp (hu' ▸ hr) hi hj)
  have hu := core_of_cores (rowsDrained_cores s n d i) n
  have hrow := tileElem_rowDrained (h.of_mcfg (congrArg CoreS.mcfg hu) : DirectDrain ((s.rowsDrained n d i).core n) d) hk fun hr => h.row_apart_rem hp (hu ▸ hr) hi hi
  rw [hkept.tileElem (fun _ hb => hb) hk, hrow, hu]

omit hp in
theorem rowsDrained_kept_outside : SpmKept s (s.rowsDrained n d d.rows) n (outside (d.parts (s.core n).mcfg).flatten) := by
  refine rowsDrained_kept (Nat.zero_le _) fun j _ hj u hu => ?_
  have hu' := core_of_cores hu n
  refine (rowDrained_kept (h.of_mcfg (congrArg CoreS.mcfg hu') : DirectDrain (u.core n) d) j).mono fun b hb => ⟨?_, fun hr => ?_⟩
  · exact outside_row (outside_of_mem hb (by simp [h.parts_eq])) hj
  · exact outside_row (outside_of_mem hb (by simp [h.parts_eq, hu' ▸ hr])) hj

end DirectDrain

end DirectDrain

section Add

variable {s : State} {n : Fin 384} {q : QCmd} {rest : List QCmd} {d : DrainCmd}

theorem spillAdd_of_head (h : MxHead s n 6 q rest) (hk : mxKind q.slot = 2) (he : s.drainError n (s.drainCmd n q) = none) : SpillAdd (s.drainCmd n q) := by
  obtain ⟨-, hop, -⟩ := h
  obtain ⟨hC, hA, -, -⟩ := passed_of_drainError he
  have hp : (s.drainCmd n q).pad = true := by simp [State.drainCmd, hop]
  have hpart : (s.drainCmd n q).partial' = true := by simp [DrainCmd.partial', hp]
  obtain ⟨hfA, hcols, -⟩ := hA hp
  exact ⟨hp, hk, hC hpart, hfA, hcols.trans (if_pos hpart)⟩

namespace SpillAdd

variable (h : SpillAdd d) {o : OutCfg} (hp : partsApart (d.parts o) = true)
include h hp

theorem row_apart_header {i : Nat} (hi : i < d.rows) : rangesMeet (d.tc.row i) (d.tc.base, 64) = false := by
  rw [h.parts_eq] at hp
  exact apart_of_partsApart hp [(d.tc.base, 64)] (by simp) _ (d.mem_rowsOf _ hi) _ (List.mem_singleton_self _)

theorem row_apart_spilled {i j : Nat} (hi : i < d.rows) (hj : j < d.ta.rows) : rangesMeet (d.ta.row j) (d.tc.row i) = false := by
  rw [h.parts_eq] at hp
  have ha := apart_of_partsApart hp ((d.ta.base, 64) :: (List.range d.ta.rows).map fun i => d.ta.row i) (by simp) _ (d.mem_rowsOf _ hi) (d.ta.row j)
    (List.mem_cons_of_mem _ (List.mem_map.mpr ⟨j, List.mem_range.mpr hj, rfl⟩))
  exact rangesMeet_symm ha

/-- The rows but row `i` leave the partial and the spilled row `i`. -/
theorem rowDrained_kept_rows (ha : d.tc.addrOk = true) (hrows : d.rows ≤ d.ta.rows) {i j : Nat} (hi : i < d.rows) (hj : j < d.rows) (hne : j ≠ i) (u : State) :
    SpmKept u (u.rowDrained n d j) n fun b => inside (d.tc.row i) b ∨ inside (d.ta.row i) b := by
  refine (h.rowDrained_kept j).mono fun b hb => ?_
  rcases hb with hb | hb
  · exact outside_of_apart hb (Tile.row_apart ha hne.symm)
  · exact outside_of_apart hb (h.row_apart_spilled hp hj (Nat.lt_of_lt_of_le hi hrows))

/-- Row `i` of the partial tile takes the spilled row, both as they were before the command, and stands from then on. -/
theorem spmLE_rowsDrained (ha : d.tc.addrOk = true) (hrows : d.rows ≤ d.ta.rows) {i k : Nat} (hi : i < d.rows) (hk : k < d.tc.cols) :
    (s.rowsDrained n d d.rows).spmLE n (d.tc.rowOff i + 8 * k) 8
      = w48Add (s.spmLE n (d.tc.rowOff i + 8 * k) 8 % 2 ^ 48) (s.spmLE n (d.ta.rowOff i + 8 * k) 8 % 2 ^ 48) % 2 ^ 64 := by
  have hafter := rowsDrained_kept_after (s := s) (n := n) (d := d) hi fun j hj hne u _ => h.rowDrained_kept_rows hp ha hrows hi hj hne u
  have hbefore := rowsDrained_kept (s := s) (n := n) (d := d) (Nat.zero_le i) fun j _ hj u _ =>
    h.rowDrained_kept_rows hp ha hrows hi (Nat.lt_trans hj hi) (Nat.ne_of_lt hj) u
  rw [hafter.spmLE fun b hb => .inl ((h.word_inside hk).1 hb), h.spmLE_rowDrained hk, hbefore.spmLE fun b hb => .inl ((h.word_inside hk).1 hb),
    hbefore.spmLE fun b hb => .inr ((h.word_inside hk).2 hb)]
  rfl

theorem hdrNext_rowsDrained : (s.rowsDrained n d d.rows).hdrNext n d.tc = s.hdrNext n d.tc := by
  have hkept := rowsDrained_kept (s := s) (n := n) (d := d) (P := inside (d.tc.base, 64)) (Nat.zero_le d.rows) fun j _ hj u _ =>
    (h.rowDrained_kept j).mono fun b hb => outside_of_apart hb (rangesMeet_symm (h.row_apart_header hp hj))
  exact hkept.spmLE fun b hb => ⟨hb.1, Nat.lt_of_lt_of_le hb.2 (by simp)⟩

omit hp in
theorem rowsDrained_kept_outside (s : State) (o : OutCfg) : SpmKept s (s.rowsDrained n d d.rows) n (outside (d.parts o).flatten) :=
  rowsDrained_kept (Nat.zero_le _) fun j _ hj _ _ => (h.rowDrained_kept j).mono fun b hb => outside_row (outside_of_mem hb (by simp [h.parts_eq])) hj

omit hp in
theorem drainHeader_kept_outside (s : State) (o : OutCfg) : SpmKept s (s.drainHeader n d) n (outside (d.parts o).flatten) :=
  h.drainHeader_kept.mono fun _ hb => outside_of_mem hb (by simp [h.parts_eq])

/-- The header is no part of a row. -/
theorem spmLE_drainHeader {i k : Nat} (hi : i < d.rows) (hk : k < d.tc.cols) :
    (s.drainHeader n d).spmLE n (d.tc.rowOff i + 8 * k) 8 = s.spmLE n (d.tc.rowOff i + 8 * k) 8 :=
  h.drainHeader_kept.spmLE fun _ hb => outside_of_apart ((h.word_inside hk).1 hb) (h.row_apart_header hp hi)

end SpillAdd

end Add

end Sys2Proof.Machine

namespace Sys2Proof.Safety

open Sys2Proof.Machine

section Commands

variable {n : Fin 384} {s : State} {q : QCmd} {rest : List QCmd} {d : DrainCmd} (hd : s.drainCmd n q = d) (hb : (s.core n).drBusy = false)
  (hck : s.fbit (F.mxeCkctl_CKEN n) = false) (htr : s.trapOn n = false) (he : s.drainError n d = none)
include hd hb hck htr he

/-- MDRAIN of KIND DIRECT: the rows are stored as converted, and only the parts of the command change. -/
theorem mdrain_direct (h : MxHead s n 5 q rest) (hk : mxKind q.slot = 0) (hm : isMX (s.core n).mcfg.outFmt = false) (ha : d.tb.addrOk = true) :
    ((s.drain n 5).core n).drBusy = true ∧ ((s.drain n 5).core n).mq = rest ∧ ((s.drain n 5).core n).acc = (s.core n).acc
      ∧ (∀ i k, i < d.rows → k < d.nd → (s.drain n 5).tileElem n d.tb i k = (s.core n).directElem d i k % 2 ^ fmtWidth d.tb.fmt)
      ∧ (∀ b, outside (d.parts (s.core n).mcfg).flatten b → (s.drain n 5).getByte (spmAddr n b) = s.getByte (spmAddr n b)) ∧ CoresBut s (s.drain n 5) n := by
  subst hd
  have hD := direct_of_head h hk hm he
  obtain ⟨-, -, -, hp⟩ := passed_of_drainError he
  obtain ⟨u, v, hu, hv, heq⟩ := drain_steps h hb hck htr he
  generalize s.drainCmd n q = d at *
  have hcu : u.core n = { s.core n with mq := rest } := (core_of_cores hu.cores n).trans (mxPop_becomes h).1
  have hmcfg : (u.core n).mcfg = (s.core n).mcfg := by rw [hcu]
  have hDu : DirectDrain (u.core n) d := hD.of_mcfg hmcfg
  rw [hD.drainHeader_eq] at hv
  obtain ⟨hself, hbut⟩ := drained_core h (hv.cores.trans ((rowsDrained_cores u n d _).trans hu.cores))
    fun c => { c with drBusy := true, drParts := (d.parts (s.core n).mcfg).flatten }
  rw [heq]
  refine ⟨by rw [hself], by rw [hself], by rw [hself], fun i k hi hk => ?_, fun b hb => ?_, hbut⟩
  · have hk' : k < d.tb.cols := hD.nd_eq ▸ hk
    rw [tileElem_modCore, hv.tileElem (fun b hb => outside_of_inside hb (hD.row_apart_stat hp hi)) hk', hDu.tileElem_rowsDrained (hmcfg ▸ hp) ha hi hk', hcu]
    rfl
  · rw [getByte_modCore]
    calc v.getByte (spmAddr n b) = (u.rowsDrained n d d.rows).getByte (spmAddr n b) := hv.byte b (outside_statPart hb)
      _ = u.getByte (spmAddr n b) := hDu.rowsDrained_kept_outside.byte b (hmcfg ▸ hb)
      _ = s.getByte (spmAddr n b) := (hu.byte b trivial).trans (getByte_modCore ..)

/-- MPADD of KIND ADD: the spilled rows are added and the chunk counted, and only the parts of the command change. -/
theorem mpadd_add (h : MxHead s n 6 q rest) (hk : mxKind q.slot = 2) (ha : d.tc.addrOk = true) :
    ((s.drain n 6).core n).drBusy = true ∧ ((s.drain n 6).core n).mq = rest
      ∧ (∀ i k, i < d.rows → k < d.nd → (s.drain n 6).spmLE n (d.tc.rowOff i + 8 * k) 8 =
          w48Add (s.spmLE n (d.tc.rowOff i + 8 * k) 8 % 2 ^ 48) (s.spmLE n (d.ta.rowOff i + 8 * k) 8 % 2 ^ 48) % 2 ^ 64)
      ∧ (s.drain n 6).hdrNext n d.tc = (s.hdrNext n d.tc + 1) % 65536
      ∧ (∀ b, outside (d.parts (s.core n).mcfg).flatten b → (s.drain n 6).getByte (spmAddr n b) = s.getByte (spmAddr n b)) ∧ CoresBut s (s.drain n 6) n := by
  subst hd
  have hA := spillAdd_of_head h hk he
  obtain ⟨-, hspilled, -, hp⟩ := passed_of_drainError he
  obtain ⟨-, -, hrows⟩ := hspilled hA.pad
  obtain ⟨u, v, hu, hv, heq⟩ := drain_steps h hb hck htr he
  generalize s.drainCmd n q = d at *
  have hstat : d.statPart (s.core n).mcfg = [] := by simp [DrainCmd.statPart, hA.outputs_eq]
  rw [hstat] at hv
  have hvLE : ∀ off len, v.spmLE n off len = ((u.rowsDrained n d d.rows).drainHeader n d).spmLE n off len := fun off len => hv.spmLE fun _ _ => nofun
  have huLE : ∀ off len, u.spmLE n off len = s.spmLE n off len := fun off len => (hu.spmLE fun _ _ => trivial).trans (spmLE_modCore ..)
  obtain ⟨hself, hbut⟩ := drained_core h (hv.cores.trans (hA.drainHeader_kept.cores.trans ((rowsDrained_cores u n d _).trans hu.cores)))
    fun c => { c with drBusy := true, drParts := (d.parts (s.core n).mcfg).flatten }
  rw [heq]
  refine ⟨by rw [hself], by rw [hself], fun i k hi hk => ?_, ?_, fun b hb => ?_, hbut⟩
  · have hk' : k < d.tc.cols := hA.nd_eq ▸ hk
    rw [spmLE_modCore, hvLE, hA.spmLE_drainHeader hp hi hk', hA.spmLE_rowsDrained hp ha hrows hi hk', huLE, huLE]
  · unfold State.hdrNext
    rw [spmLE_modCore, hvLE]
    refine hA.hdrNext_drainHeader.trans ?_
    rw [hA.hdrNext_rowsDrained hp]
    unfold State.hdrNext
    rw [huLE]
  · rw [getByte_modCore]
    calc v.getByte (spmAddr n b) = ((u.rowsDrained n d d.rows).drainHeader n d).getByte (spmAddr n b) := hv.byte b nofun
      _ = (u.rowsDrained n d d.rows).getByte (spmAddr n b) := (hA.drainHeader_kept_outside _ _).byte b hb
      _ = u.getByte (spmAddr n b) := (hA.rowsDrained_kept_outside _ _).byte b hb
      _ = s.getByte (spmAddr n b) := (hu.byte b trivial).trans (getByte_modCore ..)

end Commands

/-- Settles O12: what precedes the rows leaves scratchpad, checksum and trap as they were; each row is stored in bytes of its own, and what follows the rows stays out of them. -/
theorem drainsStoreConvertedRows : Obligations.DrainsStoreConvertedRows := by
  unfold Obligations.DrainsStoreConvertedRows
  intro n s q rest hb hck htr d o he
  refine ⟨fun h hk hm ha => ⟨_, rfl, ?_⟩, fun h hk hc _ => ⟨_, rfl, ?_⟩⟩
  · obtain ⟨hbusy, hmq, hacc, helem, hbyte, hbut⟩ := mdrain_direct rfl hb hck htr he h hk hm ha
    exact ⟨hbusy, hmq, hacc, helem, fun b _ => hbyte b, hbut⟩
  · obtain ⟨hbusy, hmq, hword, hnext, hbyte, hbut⟩ := mpadd_add rfl hb hck htr he h hk hc
    exact ⟨hbusy, hmq, hword, hnext, fun b _ => hbyte b, hbut⟩

end Sys2Proof.Safety
end

section
/-! SUPPORT. Vector registers and a vector operation that touches no scratchpad (R144, R156): what it writes and what it leaves alone. -/

namespace Sys2Proof.Machine

open Sys2Proof.Safety

/-! ### Bytes and elements of vector registers (R144) -/

theorem getD_setRange (m : Sparse Byte) (o : Nat) (d : Nat → Byte) (len k : Nat) :
    Sparse.getD (fun _ => 0) ((List.range len).foldl (fun m i => Sparse.setD (fun _ => 0) m (o + i) (d i)) m) k
      = if o ≤ k ∧ k < o + len then d (k - o) else Sparse.getD (fun _ => 0) m k := by
  induction len with
  | zero => rw [if_neg (by omega)]; rfl
  | succ len ih =>
    rw [List.range_succ, List.foldl_append, List.foldl_cons, List.foldl_nil, Sparse.getD_setD, ih]
    by_cases hk : k = o + len
    · rw [if_pos hk, if_pos (by omega), hk, Nat.add_sub_cancel_left]
    · rw [if_neg hk]
      exact if_congr (by omega) rfl rfl

theorem CoreS.vbytes_setVbytes_self (c : CoreS) (v : Nat) {o len : Nat} {b : Bytes} (h : o + len ≤ b.length) :
    (c.setVbytes v 0 b).vbytes v o len = (b.drop o).take len := by
  refine List.ext_getElem (by simp [CoreS.vbytes]; omega) fun i hi _ => ?_
  have hlt : i < len := by simpa [CoreS.vbytes] using hi
  have hg : b.getD (v * 8192 + o + i - (v * 8192 + 0)) 0 = b[o + i] := by
    rw [show v * 8192 + o + i - (v * 8192 + 0) = o + i by omega]
    exact (List.getElem_eq_getD 0).symm
  simp only [CoreS.vbytes, CoreS.setVbytes, List.getElem_map, List.getElem_range, List.getElem_take, List.getElem_drop]
  rw [getD_setRange _ _ (fun i => b.getD i 0), if_pos (by omega), hg]

theorem CoreS.vbytes_setVbytes_apart (c : CoreS) {v v' o len : Nat} {b : Bytes} (h : v' * 8192 + o + len ≤ v * 8192 ∨ v * 8192 + b.length ≤ v' * 8192 + o) :
    (c.setVbytes v 0 b).vbytes v' o len = c.vbytes v' o len := by
  refine List.map_congr_left fun i hi => ?_
  have hi := List.mem_range.mp hi
  exact (getD_setRange _ _ (fun i => b.getD i 0) _ _).trans (if_neg (by omega))

/-- The bytes of elements of `w` bytes. -/
theorem length_elems (w : Nat) (l : List Nat) : ((l.map (leBytes w)).flatten).length = l.length * w := by
  rw [length_flatten_of w _ (by simp), List.length_map]

theorem CoreS.velem_setVbytes_self (c : CoreS) (v w : Nat) (l : List Nat) {i : Nat} (hi : i < l.length) :
    (c.setVbytes v 0 (l.map (leBytes w)).flatten).velem v w i = l[i] % 2 ^ (8 * w) := by
  have hle : i * w + w ≤ l.length * w := by
    rw [← Nat.succ_mul]
    exact Nat.mul_le_mul_right w hi
  have hp := flatten_piece w (l.map (leBytes w)) [] (by simp) (r := i) (by simpa using hi)
  rw [List.append_nil, List.getElem_map, Nat.mul_comm w i] at hp
  unfold CoreS.velem
  rw [c.vbytes_setVbytes_self v (by rw [length_elems]; exact hle), hp, leVal_leBytes, Nat.pow_mul]

/-- Elements of one vector register leave another as it was. -/
theorem CoreS.velem_setVbytes_ne (c : CoreS) {v v' w i : Nat} {b : Bytes} (hv : v' ≠ v) (hi : (i + 1) * w ≤ 8192) (hb : b.length ≤ 8192) :
    (c.setVbytes v 0 b).velem v' w i = c.velem v' w i := by
  rw [Nat.succ_mul] at hi
  unfold CoreS.velem
  rw [c.vbytes_setVbytes_apart (by omega)]

/-! ### The fields of a legal operation (R146) -/

theorem vcN_le (x : Nat) : vcN x ≤ 4096 :=
  Nat.succ_le_of_lt (Nat.mod_lt _ (by decide))

/-- What the row of R148 asks of a legal operation. -/
theorem vcLegal_row {x : Nat} {k : VKind} {tys : List Nat} {sb : Bool} (h : vcLegal x = true) (h0 : vcOp x ≠ 0) (hr : vcRow (vcOp x) = some (k, tys, sb)) :
    vcTy x ∈ tys ∧ vcN x ≤ (if vcWide x then 2048 else 4096) ∧ vcModeOk k x = true := by
  unfold vcLegal at h
  simp only [h0, hr, decide_false, Bool.false_or, Bool.and_eq_true, decide_eq_true_eq, List.contains_iff_mem] at h
  obtain ⟨⟨⟨⟨⟨hty, hn⟩, hm⟩, -⟩, -⟩, -⟩ := h
  exact ⟨hty, hn, hm⟩

/-- A legal operation of a 32-bit TYPE has at most 2,048 elements (R144). -/
theorem vcN_le_of_wide {x : Nat} {k : VKind} {tys : List Nat} {sb : Bool} (h : vcLegal x = true) (h0 : vcOp x ≠ 0) (hr : vcRow (vcOp x) = some (k, tys, sb))
    (hw : ∀ ty ∈ tys, ty ≠ 1 ∧ ty ≠ 4) : vcN x ≤ 2048 := by
  obtain ⟨hty, hn, -⟩ := vcLegal_row h h0 hr
  obtain ⟨h1, h4⟩ := hw _ hty
  rwa [if_pos (by simp [vcWide, h1, h4])] at hn

/-! ### The start of an operation (R156) -/

/-- The core after an operation has written its vector registers. -/
def VOut.into (v : VOut) (c : CoreS) : CoreS :=
  v.regs.foldl (fun c r => c.setVbytes r.1 0 (r.2.2.map (leBytes r.2.1)).flatten) c

/-- The core as the operation at the head of its vector queue leaves the queue. -/
def CoreS.vstart (c : CoreS) (q : QCmd) (rest : List QCmd) : CoreS :=
  { c with vq := rest, vrun := c.vrun ++ [⟨vcWrites q.slot, vcSig q.slot, vcOp q.slot⟩] }

theorem coreBecomes_foldl {α : Type} (s : State) (n : Nat) (f : α → CoreS → CoreS) (l : List α) {t : State} {c : CoreS} (h : CoreBecomes s t n c) :
    CoreBecomes s (l.foldl (fun s a => s.modCore n (f a)) t) n (l.foldl (fun c a => f a c) c) := by
  induction l generalizing t c with
  | nil => exact h
  | cons a l ih => exact ih (h.mod (f a))

/-- Flags change VXE_FLAGS alone, and may draw a free value (R159). -/
theorem State.raiseOpen_frame (s : State) (n fl : Nat) :
    RegsBut s (s.raiseOpen n fl) [(Reg.vxeFlags n).off] ∧ ∃ r f, s.raiseOpen n fl = { s with regs := r, free := f } := by
  unfold State.raiseOpen
  split
  · exact ⟨regsBut_setReg s.draw.2 _ _, _, _, rfl⟩
  · exact ⟨regsBut_setReg s _ _, _, _, rfl⟩

/-- From `s` to `t` the operation `q` has started on core `n` and has written `v`. -/
structure VecStarted (s t : State) (n : Nat) (q : QCmd) (rest : List QCmd) (v : VOut) : Prop where
  core : t.core n = v.into ((s.core n).vstart q rest)
  coresBut : CoresBut s t n
  regsBut : RegsBut s t ((Reg.vxeFlags n).off :: lossOffs)
  frame : { seenAs s t with cores := s.cores, regs := s.regs, free := s.free } = s

theorem vector_of_head {s : State} {n op : Nat} {q : QCmd} {rest : List QCmd} (h : VecHead s n op q rest) (hop : op ∉ [0x40, 0x41, 0x42]) :
    s.vector n op = ((s.tailCore n 2 0x20 (op + (vcN q.slot - 1) * 256)).modCore n (·.vstart q rest)).vwrite n (VOp.run ⟨(s.core n).seenBy q, q.slot⟩) := by
  obtain ⟨hq, rfl, -, hi, hf, hu⟩ := h
  simp only [List.mem_cons, List.not_mem_nil, or_false] at hop
  unfold State.vector
  simp only [hq, hi, hf, hu, Option.isNone_none, and_self, if_true, if_neg hop]
  rfl

/-- What the head of the queue does when it touches no scratchpad. -/
theorem vector_started {s : State} {n op : Nat} {q : QCmd} {rest : List QCmd} (h : VecHead s n op q rest) (hop : op ∉ [0x40, 0x41, 0x42]) :
    VecStarted s (s.vector n op) n q rest (VOp.run ⟨(s.core n).seenBy q, q.slot⟩) := by
  rw [vector_of_head h hop]
  unfold State.vwrite
  generalize VOp.run ⟨(s.core n).seenBy q, q.slot⟩ = v
  have hseen := s.seen_tailCore n 2 0x20 (op + (vcN q.slot - 1) * 256)
  generalize s.tailCore n 2 0x20 (op + (vcN q.slot - 1) * 256) = u at *
  obtain ⟨hself, hbut, hrest⟩ := coreBecomes_foldl u n (fun (r : Nat × Nat × List Nat) c => c.setVbytes r.1 0 (r.2.2.map (leBytes r.2.1)).flatten)
    v.regs (coreBecomes_modCore u n (·.vstart q rest))
  generalize v.regs.foldl (fun s r => s.modCore n (·.setVbytes r.1 0 (r.2.2.map (leBytes r.2.1)).flatten)) (u.modCore n (·.vstart q rest)) = w at *
  obtain ⟨hflags, r, f, he⟩ := w.raiseOpen_frame n v.fl
  have hcores : ∀ m, (w.raiseOpen n v.fl).core m = w.core m := fun m => by rw [he]; rfl
  have hwregs : w.regs = u.regs := (congrArg State.regs hrest :)
  refine ⟨?_, fun m hm => ?_, ?_, ?_⟩
  · rw [hcores, hself, hseen.core]
    rfl
  · rw [hcores, hbut m hm, hseen.core]
  · exact (RegsBut.append hseen.1 ((RegsBut.of_regs_eq [] hwregs).append hflags)).mono (by simp [or_comm])
  · have hu : RestSame s u := (RestSame.refl s).seen hseen
    have hw : RestSame u w := (congrArg (fun t : State => { t with tailq := u.tailq, tbufs := u.tbufs, regs := u.regs }) hrest :)
    rw [he]
    exact (congrArg (fun t : State => { t with free := s.free }) (hu.trans hw) :)

/-- The elements of one destination and nothing beside them. -/
theorem VecStarted.vecWrites {s t : State} {n : Nat} {q : QCmd} {rest : List QCmd} {w cnt fl : Nat} {f : Nat → Nat}
    (h : VecStarted s t n q rest ⟨[(vcVd q.slot, w, (List.range cnt).map f)], fl⟩) (hw : cnt * w ≤ 8192) : VecWrites s t n q rest w cnt f := by
  have hlen := length_elems w ((List.range cnt).map f)
  rw [List.length_map, List.length_range] at hlen
  have hcore : t.core n = ((s.core n).vstart q rest).setVbytes (vcVd q.slot) 0 (((List.range cnt).map f).map (leBytes w)).flatten := h.core
  refine ⟨fun i hi => ?_, fun v b _ hb hv => ?_, by rw [hcore]; rfl, by rw [hcore]; rfl, by rw [hcore]; rfl, h.coresBut, h.regsBut, h.frame⟩
  · rw [hcore, CoreS.velem_setVbytes_self _ _ _ _ (by simpa using hi)]
    simp
  · rw [hcore, CoreS.vbytes_setVbytes_apart _ (by rw [hlen]; omega)]
    rfl

/-- An operation element by element writes its results in its destination. -/
theorem VOp.each_eq (o : VOp) (w : Nat) (f : Nat → FRes) : ∃ fl, o.each w f = ⟨[(vcVd o.x, w, (List.range (vcN o.x)).map fun i => (f i).bits)], fl⟩ :=
  ⟨_, by rw [VOp.each, List.map_map]; rfl⟩

end Sys2Proof.Machine
end

section
/-! O17: the optimizer primitives (R155) and the compensated update (R139). -/

namespace Sys2Proof.Machine

open Sys2Proof.Safety

/-! ### The steps of each primitive (R155) -/

namespace VOp

/-- RN of R155: a value rounded under ROUND and FTZ. -/
def rounded (o : VOp) (i : Nat) (v : Num) : Num := (fp32Res (o.mode i) o.ftz v).val

/-- The moment `m` that stands in VD. -/
def moment (o : VOp) (i : Nat) : Num := ftzDec fmtFP32 o.ftz (o.c.velem (vcVd o.x) 4 i)

/-- RN(β × m + RN(RN(1 − β) × y)). -/
def blended (o : VOp) (i : Nat) (y : Num) : Nat :=
  (fp32Res (o.mode i) o.ftz (Num.add (Num.mul (o.fs 0 31 0) (o.moment i)) (o.rounded i (Num.mul (o.rounded i (Num.sub (Num.ofInt 1) (o.fs 0 31 0))) y)))).bits

variable {o : VOp} (i : Nat)

theorem optim_vmom1 (h : vcOp o.x = 0x50) : (o.optim i).bits = o.blended i (fmtFP32.dec (fmtFP32.rne (o.fa i))) := by
  unfold optim
  rw [h]
  rfl

theorem optim_vmom2 (h : vcOp o.x = 0x51) : (o.optim i).bits = o.blended i (o.rounded i (Num.mul (o.fa i) (o.fa i))) := by
  unfold optim
  rw [h]
  rfl

theorem optim_vadamu (h : vcOp o.x = 0x52) : (o.optim i).bits =
    (fp32Res (o.mode i) o.ftz (Num.mul (o.fs 0 31 0).neg (o.rounded i (Num.div (o.fa i)
      (o.rounded i (Num.add (o.rounded i (Num.sqrt (o.rounded i (Num.mul (o.fs 0 63 32) (o.fb i))))) (o.fs 1 31 0))))))).bits := by
  unfold optim
  rw [h]
  rfl

theorem optim_vwdec (h : vcOp o.x = 0x53) : (o.optim i).bits =
    (fp32Res (o.mode i) o.ftz (Num.sub (o.moment i) (Num.mul (o.fs 0 31 0) (ftzDec fmtBF16 o.ftz (o.c.velem (vcVa o.x) 2 i))))).bits := by
  unfold optim
  rw [h]
  rfl

theorem run_optim (h : vcOp o.x ∈ [0x50, 0x51, 0x52, 0x53]) : o.run = o.each 4 o.optim := by
  simp only [List.mem_cons, List.not_mem_nil, or_false] at h
  unfold run
  obtain h | h | h | h := h <;> rw [h] <;> rfl

theorem run_vcupd (h : vcOp o.x = 0x54) : ∃ fl, o.run =
    ⟨[(vcVd o.x, 2, (List.range (vcN o.x)).map fun i => (o.cupd i).1.bits), (vcVc o.x, 2, (List.range (vcN o.x)).map fun i => (o.cupd i).2)], fl⟩ := by
  unfold run
  rw [h]
  simp [List.map_map, Function.comp_def]

end VOp

end Sys2Proof.Machine

namespace Sys2Proof.Safety

open Sys2Proof.Machine

section Optimizer

variable {s : State} {n : Nat} {q : QCmd} {rest : List QCmd}

theorem VecHead.opcode {op : Nat} (h : VecHead s n op q rest) : vcOp q.slot = op := h.2.1

/-- A primitive of R155 writes its results in VD. -/
theorem VecHead.optim_writes {op : Nat} (h : VecHead s n op q rest) (hop : op ∈ [0x50, 0x51, 0x52, 0x53]) {f : Nat → Nat}
    (hf : ∀ i, (VOp.optim ⟨(s.core n).seenBy q, q.slot⟩ i).bits = f i) : VecWrites s (s.vector n op) n q rest 4 (vcN q.slot) f := by
  have hst := vector_started h (by simp only [List.mem_cons, List.not_mem_nil, or_false] at hop ⊢; omega)
  obtain ⟨-, rfl, hl, -⟩ := h
  have hrow : vcRow (vcOp q.slot) = some (.a, [0], false) := by
    simp only [List.mem_cons, List.not_mem_nil, or_false] at hop
    obtain h | h | h | h := hop <;> rw [h] <;> rfl
  have hN : vcN q.slot ≤ 2048 := vcN_le_of_wide hl (fun h0 => by simp [h0] at hop) hrow (by decide)
  obtain ⟨fl, hrun⟩ := VOp.each_eq ⟨(s.core n).seenBy q, q.slot⟩ 4 (VOp.optim ⟨(s.core n).seenBy q, q.slot⟩)
  rw [VOp.run_optim hop, hrun, List.map_congr_left fun i _ => hf i] at hst
  exact hst.vecWrites (Nat.mul_le_mul_right 4 hN)

/-- VCUPD writes the new weights in VD and the new remainders in VC. -/
theorem VecHead.vcupd_writes (h : VecHead s n 0x54 q rest) (hne : vcVd q.slot ≠ vcVc q.slot) :
    ((s.vector n 0x54).core n).vq = rest ∧ CoresBut s (s.vector n 0x54) n ∧ (s.vector n 0x54).mem = s.mem
      ∧ ∀ i, i < vcN q.slot → ((s.vector n 0x54).core n).velem (vcVd q.slot) 2 i = (VOp.cupd ⟨(s.core n).seenBy q, q.slot⟩ i).1.bits % 65536
          ∧ ((s.vector n 0x54).core n).velem (vcVc q.slot) 2 i = (VOp.cupd ⟨(s.core n).seenBy q, q.slot⟩ i).2 % 65536 := by
  have hst := vector_started h (by decide)
  obtain ⟨fl, hrun⟩ := VOp.run_vcupd (o := ⟨(s.core n).seenBy q, q.slot⟩) h.opcode
  rw [hrun] at hst
  have hN := vcN_le q.slot
  have hcore := hst.core
  simp only [VOut.into, List.foldl_cons, List.foldl_nil] at hcore
  refine ⟨by rw [hcore]; rfl, hst.coresBut, (congrArg State.mem hst.frame :), fun i hi => ?_⟩
  rw [hcore]
  constructor
  · rw [CoreS.velem_setVbytes_ne _ hne (by omega) (by rw [length_elems, List.length_map, List.length_range]; omega),
      CoreS.velem_setVbytes_self _ _ _ _ (by simpa using hi)]
    simp
  · rw [CoreS.velem_setVbytes_self _ _ _ _ (by simpa using hi)]
    simp

end Optimizer

/-- Settles O17: each primitive at the head of the queue writes the results of its own steps; a compensated update writes two registers, the second apart from the first. -/
theorem vectorOptimizer : Obligations.VectorOptimizer := by
  unfold Obligations.VectorOptimizer
  intro n s q rest o rn d beta blend
  refine ⟨fun h => ⟨_, rfl, ?_⟩, fun h => ⟨_, rfl, ?_⟩, fun h => ⟨_, rfl, ?_⟩, fun h => ⟨_, rfl, ?_⟩, fun h hne => ⟨_, rfl, h.vcupd_writes hne⟩⟩
  · exact h.optim_writes (by decide) fun i => VOp.optim_vmom1 i h.opcode
  · exact h.optim_writes (by decide) fun i => VOp.optim_vmom2 i h.opcode
  · exact h.optim_writes (by decide) fun i => VOp.optim_vadamu i h.opcode
  · exact h.optim_writes (by decide) fun i => VOp.optim_vwdec i h.opcode

end Sys2Proof.Safety
end

section
/-! SUPPORT. Vector operations that write one destination: what each opcode runs, and the elements it leaves (R144, R148). -/

namespace Sys2Proof.Machine

open Sys2Proof.Safety

/-! ### The size of a legal operation (R144, R146) -/

/-- A legal operation names a row of R148, and keeps to its TYPEs, modes and element counts. -/
theorem vcLegal_spec {x : Nat} (h : vcLegal x = true) (h0 : vcOp x ≠ 0) :
    ∃ k tys sb, vcRow (vcOp x) = some (k, tys, sb) ∧ vcTy x ∈ tys ∧ vcN x ≤ (if vcWide x then 2048 else 4096) ∧ vcModeOk k x = true := by
  cases hr : vcRow (vcOp x) with
  | none => simp [vcLegal, h0, hr] at h
  | some r => exact ⟨r.1, r.2.1, r.2.2, rfl, vcLegal_row h h0 hr⟩

/-- The elements of a legal operation with a 32-bit operand or result fit in a register at 4 bytes each. -/
theorem vcN_mul_four_le {x : Nat} (h : vcLegal x = true) (h0 : vcOp x ≠ 0) (hw : vcWide x = true) : vcN x * 4 ≤ 8192 := by
  obtain ⟨-, -, -, -, -, hn, -⟩ := vcLegal_spec h h0
  rw [if_pos hw] at hn
  omega

/-- The elements of a legal operation fit in a register at the width of its TYPE. -/
theorem vcN_mul_tyBytes_le {x : Nat} (h : vcLegal x = true) (h0 : vcOp x ≠ 0) : vcN x * tyBytes (vcTy x) ≤ 8192 := by
  unfold tyBytes
  split
  · exact Nat.mul_le_mul_right 2 (vcN_le x)
  · rename_i hty
    rw [not_or] at hty
    exact vcN_mul_four_le h h0 (by simp [vcWide, hty])

/-- Elements of an integer TYPE have 4 bytes. -/
theorem tyBytes_of_not_fp {ty : Nat} (h : tyIsFp ty = false) : tyBytes ty = 4 := by
  refine if_neg fun hty => ?_
  obtain rfl | rfl := hty <;> cases h

/-! ### What each opcode runs (R148) -/

namespace VOp

variable {o : VOp}

/-- The operations on values and integers of R149. -/
def arithOps : List Nat := [0x01, 0x02, 0x03, 0x04, 0x05, 0x06, 0x07, 0x08, 0x09, 0x0A, 0x10, 0x11]

/-- Their TYPE says whether they run on values or on integers. -/
theorem run_arith (h : vcOp o.x ∈ arithOps) :
    o.run = if tyIsFp o.ty then o.each o.w fun i => (o.fparith i).also (o.sig i) else o.each o.w fun i => ⟨vint (vcOp o.x) o.ty (o.a i) (o.b i) (o.cc i), 0⟩ := by
  simp only [arithOps, List.mem_cons, List.not_mem_nil, or_false] at h
  unfold run
  obtain h | h | h | h | h | h | h | h | h | h | h | h := h <;> rw [h] <;> rfl

theorem run_fp (h : vcOp o.x ∈ arithOps) (hty : tyIsFp o.ty = true) : o.run = o.each o.w fun i => (o.fparith i).also (o.sig i) :=
  (run_arith h).trans (if_pos hty)

theorem run_int (h : vcOp o.x ∈ arithOps) (hty : tyIsFp o.ty = false) : o.run = o.each o.w fun i => ⟨vint (vcOp o.x) o.ty (o.a i) (o.b i) (o.cc i), 0⟩ :=
  (run_arith h).trans (if_neg (by rw [hty]; exact Bool.false_ne_true))

theorem run_move (h : vcOp o.x ∈ [0x0C, 0x0D, 0x0E, 0x0F, 0x12, 0x38, 0x39, 0x3A]) : o.run = o.each o.w fun i => ⟨o.moveBits i, 0⟩ := by
  simp only [List.mem_cons, List.not_mem_nil, or_false] at h
  unfold run
  obtain h | h | h | h | h | h | h | h := h <;> rw [h] <;> rfl

theorem run_vcmp (h : vcOp o.x = 0x0B) : o.run = o.each 4 fun i => (o.vcmp i).also (o.sig i) := by unfold run; rw [h]; rfl

theorem run_vcvt (h : vcOp o.x = 0x13) : o.run = o.each (if vcFn o.x % 8 = 1 ∨ vcFn o.x % 8 = 2 then 2 else 4) fun i => (o.vcvt i).also (o.sig i) := by
  unfold run; rw [h]; rfl

theorem run_vrbits (h : vcOp o.x = 0x48) : o.run = o.each o.w fun i => ⟨o.rand i 0, 0⟩ := by unfold run; rw [h]; rfl

theorem run_vurand (h : vcOp o.x = 0x49) : o.run = o.each 4 fun i => ⟨fmtFP32.rne (.fin false (o.rand i 0 / 256) (-24)), 0⟩ := by unfold run; rw [h]; rfl

theorem run_vnrand (h : vcOp o.x = 0x4A) : o.run = o.each 4 o.vnrand := by unfold run; rw [h]; rfl

theorem run_trans (h : 0x20 ≤ vcOp o.x ∧ vcOp o.x ≤ 0x2D) : o.run = o.each o.w o.trans := if_pos h

/-- A reduction writes one element, or all N. -/
theorem run_reduce (h : vcOp o.x ∈ [0x30, 0x31, 0x32, 0x33]) :
    o.run = ⟨[(vcVd o.x, o.w, (List.range (if vcFn o.x % 2 = 1 then vcN o.x else 1)).map fun _ => o.reduce.bits)], o.reduce.fl⟩ := by
  rw [List.map_const', List.length_range]
  simp only [List.mem_cons, List.not_mem_nil, or_false] at h
  unfold run
  obtain h | h | h | h := h <;> rw [h] <;> rfl

end VOp

/-! ### Patterns of elements (R11, R144) -/

theorem leVal_lt (d : Bytes) : leVal d < 256 ^ d.length := by
  have h := leVal_take d d.length
  rw [List.take_length] at h
  rw [h]
  exact Nat.mod_lt _ (by positivity)

theorem CoreS.velem_lt (c : CoreS) (v w i : Nat) : c.velem v w i < 2 ^ (8 * w) := by
  have h := leVal_lt (c.vbytes v (i * w) w)
  rwa [show (c.vbytes v (i * w) w).length = w by simp [CoreS.vbytes], show 256 = 2 ^ 8 by rfl, ← Nat.pow_mul] at h

namespace VOp

variable (o : VOp) (i : Nat)

theorem a_lt : o.a i < 2 ^ (8 * o.w) := o.c.velem_lt _ _ _

theorem cc_lt : o.cc i < 2 ^ (8 * o.w) := o.c.velem_lt _ _ _

theorem b_lt : o.b i < 2 ^ (8 * o.w) := by
  unfold b
  split
  · exact Nat.mod_lt _ (Nat.two_pow_pos _)
  · exact o.c.velem_lt _ _ _

end VOp

/-! ### The elements of one destination (R144, R156) -/

/-- The instruction starts the operation at the head of the queue when it is opcode `op`. -/
def StartsVector (i : Fin 384 → Instr) (op : Nat) : Prop := ∀ n s, exec (i n) s = .next (s.vector n op)

end Sys2Proof.Machine

namespace Sys2Proof.Safety

open Sys2Proof.Machine

section Elements

variable {s : State} {n : Nat} {q : QCmd} {rest : List QCmd} {op w : Nat} {f : Nat → Nat}

/-- The operation at the head of the queue as it starts. -/
abbrev headOp (s : State) (n : Nat) (q : QCmd) : VOp := ⟨(s.core n).seenBy q, q.slot⟩

theorem VecHead.legal (h : VecHead s n op q rest) : vcLegal q.slot = true := h.2.2.1

/-- An operation element by element leaves its results in its destination. -/
theorem VecHead.each_writes (h : VecHead s n op q rest) {g : Nat → FRes} (hrun : (headOp s n q).run = (headOp s n q).each w g) (hf : ∀ i, (g i).bits = f i)
    (hop : op ∉ [0x40, 0x41, 0x42]) (hw : vcN q.slot * w ≤ 8192) : VecWrites s (s.vector n op) n q rest w (vcN q.slot) f := by
  have hst := vector_started h hop
  obtain ⟨fl, heach⟩ := VOp.each_eq (headOp s n q) w g
  rw [hrun, heach, List.map_congr_left fun i _ => hf i] at hst
  exact hst.vecWrites hw

/-- As `each_writes`, for elements of the TYPE. -/
theorem VecHead.typed_writes (h : VecHead s n op q rest) {g : Nat → FRes} (hrun : (headOp s n q).run = (headOp s n q).each (headOp s n q).w g)
    (hf : ∀ i, (g i).bits = f i) (hop : op ∉ [0, 0x40, 0x41, 0x42]) : VecWrites s (s.vector n op) n q rest (headOp s n q).w (vcN q.slot) f := by
  rw [List.mem_cons, not_or] at hop
  exact h.each_writes hrun hf hop.2 (vcN_mul_tyBytes_le h.legal (h.opcode ▸ hop.1))

/-- As `each_writes`, for elements of 4 bytes. -/
theorem VecHead.wide_writes (h : VecHead s n op q rest) {g : Nat → FRes} (hrun : (headOp s n q).run = (headOp s n q).each 4 g)
    (hf : ∀ i, (g i).bits = f i) (hop : op ∉ [0, 0x40, 0x41, 0x42]) (hw : vcWide q.slot = true) : VecWrites s (s.vector n op) n q rest 4 (vcN q.slot) f := by
  rw [List.mem_cons, not_or] at hop
  exact h.each_writes hrun hf hop.2 (vcN_mul_four_le h.legal (h.opcode ▸ hop.1) hw)

end Elements

end Sys2Proof.Safety
end

section
/-! O13: vector arithmetic, on values and on integers, and the operations that move bits (R148, R149). -/

namespace Sys2Proof.Machine

open Sys2Proof.Safety

/-! ### Integers (R149) -/

section Integers

variable (ty : Nat) (a b c : BitVec 32)

theorem vint_add : vint 0x01 ty a.toNat b.toNat c.toNat = (a + b).toNat := (BitVec.toNat_add a b).symm

/-- The difference as the model writes it; the modulus stands as a variable, since the kernel would count a numeral of this size down to 0. -/
theorem vint_sub_eq {m : Nat} (hm : m = 2 ^ 32) (a b c : Nat) : vint 0x02 ty a b c = (a + m - b) % m := by
  unfold vint
  rw [← hm]
  rfl

theorem vint_sub : vint 0x02 ty a.toNat b.toNat c.toNat = (a - b).toNat := by
  have hb := b.isLt
  rw [vint_sub_eq ty rfl, BitVec.toNat_sub]
  omega

theorem vint_mul : vint 0x03 ty a.toNat b.toNat c.toNat = (a * b).toNat := (BitVec.toNat_mul a b).symm

theorem vint_fma : vint 0x04 ty a.toNat b.toNat c.toNat = (a * b + c).toNat := by
  rw [BitVec.toNat_add, BitVec.toNat_mul, Nat.mod_add_mod]
  rfl

theorem sextN_toNat : sextN 32 a.toNat = a.toInt := sextN_eq_toInt a (Nat.mod_eq_of_lt a.isLt)

/-- The order of a TYPE: signed for INT32, else unsigned. -/
theorem tyLess_eq : (if ty = 2 then decide (sextN 32 a.toNat < sextN 32 b.toNat) else decide (a.toNat < b.toNat)) = if ty = 2 then a.slt b else a.ult b := by
  rw [sextN_toNat, sextN_toNat, BitVec.slt_eq_decide, BitVec.ult_eq_decide]

theorem vint_min : vint 0x05 ty a.toNat b.toNat c.toNat = (if (if ty = 2 then a.slt b else a.ult b) then a else b).toNat := by
  rw [apply_ite BitVec.toNat, ← tyLess_eq]
  rfl

theorem vint_max : vint 0x06 ty a.toNat b.toNat c.toNat = (if (if ty = 2 then a.slt b else a.ult b) then b else a).toNat := by
  rw [apply_ite BitVec.toNat, ← tyLess_eq]
  rfl

theorem vint_abs : vint 0x07 ty a.toNat b.toNat c.toNat = (if a.msb then -a else a).toNat := by
  rw [apply_ite BitVec.toNat, BitVec.toNat_neg, BitVec.msb_eq_decide]
  simp only [decide_eq_true_eq]
  rfl

theorem vint_neg : vint 0x08 ty a.toNat b.toNat c.toNat = (-a).toNat := (BitVec.toNat_neg a).symm

theorem vint_shl : vint 0x10 ty a.toNat b.toNat c.toNat = (a <<< (b.toNat % 32)).toNat := by
  rw [BitVec.toNat_shiftLeft, Nat.shiftLeft_eq]
  rfl

theorem vint_shr : vint 0x11 ty a.toNat b.toNat c.toNat = (if ty = 2 then a.sshiftRight (b.toNat % 32) else a >>> (b.toNat % 32)).toNat := by
  have hs : wrapI 32 (a.toInt / 2 ^ (b.toNat % 32)) = (a.sshiftRight (b.toNat % 32)).toNat := by
    rw [← BitVec.ofInt_toInt (x := a.sshiftRight (b.toNat % 32)), BitVec.toInt_sshiftRight, Int.shiftRight_eq_div_pow, BitVec.toNat_ofInt]
    rfl
  rw [apply_ite BitVec.toNat, ← hs, ← sextN_toNat, BitVec.toNat_ushiftRight, Nat.shiftRight_eq_div_pow]
  rfl

/-- The integer operations are those of 32-bit words. -/
theorem vint_of_intTable : ∀ row ∈ intTable, vint row.2.1 ty a.toNat b.toNat c.toNat = (row.2.2 (ty = 2) a b c).toNat := by
  simp only [intTable, List.forall_mem_cons, List.not_mem_nil, false_implies, implies_true, and_true, decide_eq_true_eq]
  exact ⟨vint_add .., vint_sub .., vint_mul .., vint_fma .., vint_min .., vint_max .., vint_abs .., vint_neg .., vint_shl .., vint_shr ..⟩

end Integers

/-! ### Values (R149) -/

namespace VOp

variable {o : VOp} (i : Nat)

/-- The operations that round narrow their exact result. -/
theorem fparith_of_fpTable : ∀ row ∈ fpTable, vcOp o.x = row.2.1 →
    (o.fparith i).bits = (narrow o.ty (o.mode i) o.ftz (row.2.2 (o.fa i) (o.fb i) (o.fc i))).bits := by
  simp only [fpTable, List.forall_mem_cons, List.not_mem_nil, false_implies, implies_true, and_true]
  unfold fparith
  refine ⟨?_, ?_, ?_, ?_, ?_, ?_⟩ <;> intro h <;> rw [h] <;> rfl

/-- The others give an exact result. -/
theorem fparith_of_fpPickTable : ∀ row ∈ fpPickTable, vcOp o.x = row.2.1 → (o.fparith i).bits = (tyFmt o.ty).rne (row.2.2 (o.fa i) (o.fb i)) := by
  simp only [fpPickTable, List.forall_mem_cons, List.not_mem_nil, false_implies, implies_true, and_true]
  unfold fparith
  refine ⟨?_, ?_, ?_, ?_⟩ <;> intro h <;> rw [h] <;> rfl

/-- An operation that moves bits runs element by element. -/
theorem run_of_moveTable : ∀ row ∈ moveTable, vcOp o.x = row.2.1 → o.run = o.each o.w fun i => ⟨row.2.2 o i, 0⟩ := by
  simp only [moveTable, List.forall_mem_cons, List.not_mem_nil, false_implies, implies_true, and_true]
  have hmove := run_move (o := o)
  unfold moveBits at hmove
  refine ⟨?_, ?_, ?_, ?_, ?_, ?_, ?_, ?_, run_vrbits⟩ <;> intro h <;> rw [h] at hmove <;> exact hmove (by decide)

end VOp

/-! ### The instructions -/

theorem fpTable_starts : ∀ row ∈ fpTable, StartsVector row.1 row.2.1 := by
  simp only [fpTable, List.forall_mem_cons]
  exact ⟨fun _ _ => rfl, fun _ _ => rfl, fun _ _ => rfl, fun _ _ => rfl, fun _ _ => rfl, fun _ _ => rfl, List.forall_mem_nil _⟩

theorem fpPickTable_starts : ∀ row ∈ fpPickTable, StartsVector row.1 row.2.1 := by
  simp only [fpPickTable, List.forall_mem_cons]
  exact ⟨fun _ _ => rfl, fun _ _ => rfl, fun _ _ => rfl, fun _ _ => rfl, List.forall_mem_nil _⟩

theorem intTable_starts : ∀ row ∈ intTable, StartsVector row.1 row.2.1 := by
  simp only [intTable, List.forall_mem_cons]
  exact ⟨fun _ _ => rfl, fun _ _ => rfl, fun _ _ => rfl, fun _ _ => rfl, fun _ _ => rfl, fun _ _ => rfl, fun _ _ => rfl, fun _ _ => rfl, fun _ _ => rfl,
    fun _ _ => rfl, List.forall_mem_nil _⟩

theorem moveTable_starts : ∀ row ∈ moveTable, StartsVector row.1 row.2.1 := by
  simp only [moveTable, List.forall_mem_cons]
  exact ⟨fun _ _ => rfl, fun _ _ => rfl, fun _ _ => rfl, fun _ _ => rfl, fun _ _ => rfl, fun _ _ => rfl, fun _ _ => rfl, fun _ _ => rfl, fun _ _ => rfl,
    List.forall_mem_nil _⟩

end Sys2Proof.Machine

namespace Sys2Proof.Safety

open Sys2Proof.Machine

theorem arithOps_write : ∀ op ∈ VOp.arithOps, op ∉ [0, 0x40, 0x41, 0x42] := by decide

/-- An operation on 32-bit words writes their result. -/
theorem VecHead.int_writes {s : State} {n : Nat} {q : QCmd} {rest : List QCmd} {row : (Fin 384 → Instr) × Nat × (Bool → BitVec 32 → BitVec 32 → BitVec 32 → BitVec 32)}
    (hm : row ∈ intTable) (h : VecHead s n row.2.1 q rest) (hty : tyIsFp (vcTy q.slot) = false) :
    VecWrites s (s.vector n row.2.1) n q rest 4 (vcN q.slot) fun i =>
      (row.2.2 (vcTy q.slot = 2) (BitVec.ofNat 32 ((headOp s n q).a i)) (BitVec.ofNat 32 ((headOp s n q).b i)) (BitVec.ofNat 32 ((headOp s n q).cc i))).toNat := by
  have harith : row.2.1 ∈ VOp.arithOps := (by decide : ∀ row ∈ intTable, row.2.1 ∈ VOp.arithOps) row hm
  have hw : (headOp s n q).w = 4 := tyBytes_of_not_fp hty
  have hword : ∀ x < 2 ^ (8 * (headOp s n q).w), (BitVec.ofNat 32 x).toNat = x := fun x hx => Nat.mod_eq_of_lt (by rwa [hw] at hx)
  rw [← hw]
  refine h.typed_writes (VOp.run_int (h.opcode ▸ harith) hty) (fun i => ?_) (arithOps_write _ harith)
  have hbits := vint_of_intTable (vcTy q.slot) (BitVec.ofNat 32 ((headOp s n q).a i)) (BitVec.ofNat 32 ((headOp s n q).b i))
    (BitVec.ofNat 32 ((headOp s n q).cc i)) row hm
  rwa [hword _ (VOp.a_lt ..), hword _ (VOp.b_lt ..), hword _ (VOp.cc_lt ..), ← h.opcode] at hbits

/-- Settles O13: an operation at the head of the queue writes, element by element, what R149 gives for values, for 32-bit words, or for bits that move. -/
theorem vectorArithmetic : Obligations.VectorArithmetic := by
  unfold Obligations.VectorArithmetic
  refine ⟨fun n s q rest hfp => ⟨fun row hm h => ⟨_, fpTable_starts row hm n s, ?_⟩, fun row hm h => ⟨_, fpPickTable_starts row hm n s, ?_⟩⟩,
    fun n s q rest => ⟨fun row hm hint h => ⟨_, intTable_starts row hm n s, ?_⟩, fun row hm h => ⟨_, moveTable_starts row hm n s, ?_⟩⟩⟩
  · have harith : row.2.1 ∈ VOp.arithOps := (by decide : ∀ row ∈ fpTable, row.2.1 ∈ VOp.arithOps) row hm
    exact h.typed_writes (VOp.run_fp (h.opcode ▸ harith) hfp) (fun i => VOp.fparith_of_fpTable i row hm h.opcode) (arithOps_write _ harith)
  · have harith : row.2.1 ∈ VOp.arithOps := (by decide : ∀ row ∈ fpPickTable, row.2.1 ∈ VOp.arithOps) row hm
    exact h.typed_writes (VOp.run_fp (h.opcode ▸ harith) hfp) (fun i => VOp.fparith_of_fpPickTable i row hm h.opcode) (arithOps_write _ harith)
  · exact VecHead.int_writes hm h hint
  · have hop : row.2.1 ∉ [0, 0x40, 0x41, 0x42] := (by decide : ∀ row ∈ moveTable, row.2.1 ∉ [0, 0x40, 0x41, 0x42]) row hm
    exact h.typed_writes (VOp.run_of_moveTable row hm h.opcode) (fun _ => rfl) hop

end Sys2Proof.Safety
end

section
/-! O14: comparisons, conversions, reductions and random values (R148-R150, R152, R154). -/

namespace Sys2Proof.Machine

open Sys2Proof.Safety

theorem sextN_eq_toInt_ofNat (n : Nat) : sextN 32 n = (BitVec.ofNat 32 n).toInt := sextN_eq_toInt _ (BitVec.toNat_ofNat n 32).symm

/-! ### The pairs of a legal conversion (R150) -/

theorem tyIsFp_iff {ty : Nat} : tyIsFp ty = true ↔ ty = 0 ∨ ty = 1 ∨ ty = 4 := by
  simp [tyIsFp, or_assoc]

/-- The modes of a legal conversion are those of its pair. -/
theorem cvtLegal_of_vcLegal {x : Nat} (h : vcLegal x = true) (hop : vcOp x = 0x13) : cvtLegal x = true := by
  obtain ⟨k, -, -, -, -, -, hm⟩ := vcLegal_spec h (by omega)
  unfold vcModeOk at hm
  rwa [if_pos hop] at hm

/-- FP32 converts to the narrow formats and to INT32, every other TYPE to FP32. -/
theorem cvtLegal_pair {x : Nat} (h : cvtLegal x = true) :
    (vcTy x = 0 ∧ 1 ≤ vcFn x % 8 ∧ vcFn x % 8 ≤ 3) ∨ (vcFn x % 8 = 0 ∧ (vcTy x = 1 ∨ vcTy x = 2 ∨ vcTy x = 3 ∨ vcTy x = 4)) := by
  unfold cvtLegal at h
  split at h <;> simp only [Bool.and_eq_true, Bool.or_eq_true, decide_eq_true_eq, Bool.false_eq_true, and_false] at h <;> omega

namespace VOp

variable {o : VOp} (i : Nat)

/-! ### Comparisons (R148, R149) -/

/-- The pattern of a comparison: all ones where its predicate holds. -/
theorem vcmp_bits (o : VOp) (i : Nat) : (o.vcmp i).bits =
    if (if tyIsFp o.ty then fpPred (vcFn o.x % 8) (o.fa i) (o.fb i)
      else if o.ty = 2 then intPred (vcFn o.x % 8) (BitVec.ofNat 32 (o.a i)).toInt (BitVec.ofNat 32 (o.b i)).toInt
      else intPred (vcFn o.x % 8) (o.a i) (o.b i)) then 0xFFFFFFFF else 0 := by
  rw [← sextN_eq_toInt_ofNat, ← sextN_eq_toInt_ofNat]
  unfold vcmp
  by_cases hfp : tyIsFp o.ty = true
  · simp only [hfp, if_true]
    rfl
  · by_cases hty : o.ty = 2 <;> simp only [hfp, hty, if_true, if_false] <;> rfl

/-! ### Conversions (R150) -/

theorem vcvt_narrow (hty : o.ty = 0) (ht : vcFn o.x % 8 = 1 ∨ vcFn o.x % 8 = 2) :
    (o.vcvt i).bits = (convert (if vcFn o.x % 8 = 1 then fmtBF16 else fmtFP16) (o.mode i) o.ftz (o.fa i)).1 := by
  unfold vcvt
  rw [hty]
  dsimp only
  rw [if_neg (by omega)]
  rfl

theorem vcvt_widen (hty : o.ty = 1 ∨ o.ty = 4) : (o.vcvt i).bits = fmtFP32.rne (o.fa i) := by
  unfold vcvt
  obtain h | h := hty <;> rw [h] <;> rfl

theorem vcvt_of_int (hty : o.ty = 2 ∨ o.ty = 3) :
    (o.vcvt i).bits = (fp32Res (o.mode i) false (Num.ofInt (if o.ty = 2 then (BitVec.ofNat 32 (o.a i)).toInt else (o.a i : Int)))).bits := by
  rw [← sextN_eq_toInt_ofNat]
  unfold vcvt
  obtain h | h := hty <;> rw [h] <;> rfl

/-- A value as INT32, rounded by `k`, held within the range. -/
def toInt32 (k : Int) : Num → Nat
  | .nan => 0
  | .inf g => if g then 2 ^ 31 else 2 ^ 31 - 1
  | .fin _ _ _ => if k < -2 ^ 31 then 2 ^ 31 else if 2 ^ 31 ≤ k then 2 ^ 31 - 1 else (k % 2 ^ 32).toNat

theorem vcvt_to_int (hty : o.ty = 0) (ht : vcFn o.x % 8 = 3) :
    (o.vcvt i).bits = toInt32 (if vcRnd o.x = 1 then (o.fa i).trunc else (o.fa i).rint) (o.fa i) := by
  unfold vcvt
  rw [hty]
  dsimp only
  rw [if_pos ht]
  generalize o.fa i = v
  cases v with
  | nan => rfl
  | inf g => rfl
  | fin g m e =>
    dsimp only [toInt32]
    generalize (if vcRnd o.x = 1 then (Num.fin g m e).trunc else (Num.fin g m e).rint) = k
    split_ifs <;> rfl

/-! ### Reductions (R152) -/

/-- A sum is rounded once. -/
theorem reduce_of_reduceTable : ∀ row ∈ reduceTable, vcOp o.x = row.2.1 →
    o.reduce.bits = (narrow o.ty (o.mode 0) o.ftz (row.2.2 ((List.range (vcN o.x)).map o.fa))).bits := by
  simp only [reduceTable, List.forall_mem_cons, List.not_mem_nil, false_implies, implies_true, and_true]
  unfold reduce
  exact ⟨fun h => by rw [h]; rfl, fun h => by rw [h]; rfl⟩

/-- An extreme runs over the elements from the first on. -/
theorem reduce_of_extremeTable : ∀ row ∈ extremeTable, vcOp o.x = row.2.1 →
    o.reduce.bits = (tyFmt o.ty).rne (((List.range (vcN o.x - 1)).map fun i => o.fa (i + 1)).foldl row.2.2 (o.fa 0)) := by
  have hl : (List.range (vcN o.x)).map o.fa = o.fa 0 :: (List.range (vcN o.x - 1)).map fun i => o.fa (i + 1) := by
    rw [show vcN o.x = vcN o.x - 1 + 1 from rfl, List.range_succ_eq_map, List.map_cons, List.map_map]
    rfl
  simp only [extremeTable, List.forall_mem_cons, List.not_mem_nil, false_implies, implies_true, and_true]
  unfold reduce
  rw [hl]
  exact ⟨fun h => by rw [h]; rfl, fun h => by rw [h]; rfl⟩

end VOp

theorem reduceTable_starts : ∀ row ∈ reduceTable, StartsVector row.1 row.2.1 := by
  simp only [reduceTable, List.forall_mem_cons]
  exact ⟨fun _ _ => rfl, fun _ _ => rfl, List.forall_mem_nil _⟩

theorem extremeTable_starts : ∀ row ∈ extremeTable, StartsVector row.1 row.2.1 := by
  simp only [extremeTable, List.forall_mem_cons]
  exact ⟨fun _ _ => rfl, fun _ _ => rfl, List.forall_mem_nil _⟩

end Sys2Proof.Machine

namespace Sys2Proof.Safety

open Sys2Proof.Machine

section Compares

variable {s : State} {n : Nat} {q : QCmd} {rest : List QCmd} {op : Nat} {f : Nat → Nat}

theorem VecHead.vcmp_writes (h : VecHead s n 0x0B q rest) (hf : ∀ i, ((headOp s n q).vcmp i).bits = f i) : VecWrites s (s.vector n 0x0B) n q rest 4 (vcN q.slot) f :=
  h.wide_writes (VOp.run_vcmp h.opcode) hf (by decide) (by simp [vcWide, h.opcode])

/-- Only FP32 converts to another type than FP32. -/
theorem VecHead.fp32_of_target (h : VecHead s n 0x13 q rest) (ht : vcFn q.slot % 8 ≠ 0) : vcTy q.slot = 0 := by
  have := cvtLegal_pair (cvtLegal_of_vcLegal h.legal h.opcode)
  omega

theorem VecHead.narrow_of_fp32_target (h : VecHead s n 0x13 q rest) (ht : vcFn q.slot % 8 = 0) (hfp : tyIsFp (vcTy q.slot) = true) :
    vcTy q.slot = 1 ∨ vcTy q.slot = 4 := by
  have := cvtLegal_pair (cvtLegal_of_vcLegal h.legal h.opcode)
  rw [tyIsFp_iff] at hfp
  omega

theorem VecHead.int_of_fp32_target (h : VecHead s n 0x13 q rest) (ht : vcFn q.slot % 8 = 0) (hint : tyIsFp (vcTy q.slot) = false) :
    vcTy q.slot = 2 ∨ vcTy q.slot = 3 := by
  have := cvtLegal_pair (cvtLegal_of_vcLegal h.legal h.opcode)
  rw [← Bool.not_eq_true, tyIsFp_iff] at hint
  omega

/-- A conversion to a narrow format writes elements of 2 bytes. -/
theorem VecHead.vcvt_writes_narrow (h : VecHead s n 0x13 q rest) (ht : vcFn q.slot % 8 = 1 ∨ vcFn q.slot % 8 = 2)
    (hf : ∀ i, ((headOp s n q).vcvt i).bits = f i) : VecWrites s (s.vector n 0x13) n q rest 2 (vcN q.slot) f := by
  have hrun := VOp.run_vcvt (o := headOp s n q) h.opcode
  rw [if_pos ht] at hrun
  exact h.each_writes hrun hf (by decide) (Nat.mul_le_mul_right 2 (vcN_le q.slot))

/-- Every other conversion writes elements of 4 bytes. -/
theorem VecHead.vcvt_writes_wide (h : VecHead s n 0x13 q rest) (ht : ¬ (vcFn q.slot % 8 = 1 ∨ vcFn q.slot % 8 = 2))
    (hf : ∀ i, ((headOp s n q).vcvt i).bits = f i) : VecWrites s (s.vector n 0x13) n q rest 4 (vcN q.slot) f := by
  have hrun := VOp.run_vcvt (o := headOp s n q) h.opcode
  rw [if_neg ht] at hrun
  exact h.wide_writes hrun hf (by decide) (by simpa [vcWide, h.opcode] using Or.inr (not_or.mp ht))

/-- A reduction writes its one result into element 0, or into all N. -/
theorem VecHead.reduce_writes (h : VecHead s n op q rest) (hop : op ∈ [0x30, 0x31, 0x32, 0x33]) {b : Nat} (hb : (headOp s n q).reduce.bits = b) :
    VecWrites s (s.vector n op) n q rest (headOp s n q).w (if vcFn q.slot % 2 = 1 then vcN q.slot else 1) fun _ => b := by
  obtain ⟨hne, h0⟩ : op ∉ [0x40, 0x41, 0x42] ∧ op ≠ 0 := (by decide : ∀ op ∈ [0x30, 0x31, 0x32, 0x33], op ∉ [0x40, 0x41, 0x42] ∧ op ≠ 0) op hop
  have hst := vector_started h hne
  rw [VOp.run_reduce (h.opcode ▸ hop), hb] at hst
  refine hst.vecWrites (Nat.le_trans (Nat.mul_le_mul_right _ ?_) (vcN_mul_tyBytes_le h.legal (h.opcode ▸ h0)))
  split
  · exact Nat.le_refl _
  · exact Nat.le_add_left 1 _

/-- Random values are FP32. -/
theorem VecHead.random_writes (h : VecHead s n op q rest) (hop : op = 0x49 ∨ op = 0x4A) {g : Nat → FRes} (hrun : (headOp s n q).run = (headOp s n q).each 4 g) :
    VecWrites s (s.vector n op) n q rest 4 (vcN q.slot) fun i => (g i).bits := by
  have hrow : vcRow (vcOp q.slot) = some (.r, [0], false) := by
    rw [h.opcode]
    obtain rfl | rfl := hop <;> rfl
  have h0 : op ∉ [0, 0x40, 0x41, 0x42] := by
    obtain rfl | rfl := hop <;> decide
  obtain ⟨hty, -⟩ := vcLegal_row h.legal (fun e => by rw [e] at hrow; cases hrow) hrow
  exact h.wide_writes hrun (fun _ => rfl) h0 (by simp [vcWide, List.mem_singleton.mp hty])

end Compares

/-- Settles O14: each operation at the head of the queue writes what its row of R148 gives, whatever pair a conversion names and however many elements a reduction fills. -/
theorem vectorComparesConvertsReduces : Obligations.VectorComparesConvertsReduces := by
  unfold Obligations.VectorComparesConvertsReduces
  intro n s q rest o cnt
  refine ⟨fun h => ⟨_, rfl, ?_⟩, fun h ht => ⟨_, rfl, ?_⟩, fun h ht hfp => ⟨_, rfl, ?_⟩, fun h ht hint => ⟨_, rfl, ?_⟩, fun h ht => ⟨_, rfl, ?_⟩,
    fun row hm h => ⟨_, reduceTable_starts row hm n s, ?_⟩, fun row hm h => ⟨_, extremeTable_starts row hm n s, ?_⟩, fun h => ⟨_, rfl, ?_⟩, fun h => ⟨_, rfl, ?_⟩⟩
  · exact h.vcmp_writes (VOp.vcmp_bits o)
  · have hty : o.ty = 0 := h.fp32_of_target (by omega)
    exact h.vcvt_writes_narrow ht fun i => VOp.vcvt_narrow i hty ht
  · have hty : o.ty = 1 ∨ o.ty = 4 := h.narrow_of_fp32_target ht hfp
    exact h.vcvt_writes_wide (by omega) fun i => VOp.vcvt_widen i hty
  · have hty : o.ty = 2 ∨ o.ty = 3 := h.int_of_fp32_target ht hint
    exact h.vcvt_writes_wide (by omega) fun i => VOp.vcvt_of_int i hty
  · have hty : o.ty = 0 := h.fp32_of_target (by omega)
    refine h.vcvt_writes_wide (by omega) fun i => (VOp.vcvt_to_int i hty ht).trans ?_
    dsimp only
    cases o.fa i <;> rfl
  · exact h.reduce_writes ((by decide : ∀ row ∈ reduceTable, row.2.1 ∈ [0x30, 0x31, 0x32, 0x33]) row hm) (VOp.reduce_of_reduceTable row hm h.opcode)
  · exact h.reduce_writes ((by decide : ∀ row ∈ extremeTable, row.2.1 ∈ [0x30, 0x31, 0x32, 0x33]) row hm) (VOp.reduce_of_extremeTable row hm h.opcode)
  · exact h.random_writes (.inl rfl) (VOp.run_vurand h.opcode)
  · exact h.random_writes (.inr rfl) (VOp.run_vnrand h.opcode)

end Sys2Proof.Safety
end

section
/-! O15: transcendental functions (R151): the special cases of each row, and elsewhere a free value that stands only within the row's bound. -/

namespace Sys2Proof.Machine

open Sys2Proof.Safety

/-! ### A free value within its bound -/

/-- A finite value lies within a distance of finite values alone. -/
theorem isFin_of_within {a b : Num} {m : Nat} {e : Int} (ha : a.isFin = true) (h : within a b m e = true) : ∃ u k j, b = .fin u k j := by
  cases b with
  | fin u k j => exact ⟨u, k, j, rfl⟩
  | nan => cases a <;> simp [within, Num.sub, Num.neg, Num.add, Num.abs, Num.le, Num.lt, Num.eqv] at h
  | inf g => cases a <;> simp [Num.isFin] at ha; simp [within, Num.sub, Num.neg, Num.add, Num.abs, Num.le, Num.lt, Num.eqv] at h

/-- A free value stands where it lies within the bound, else the nearest pattern stands. -/
theorem freeFn_transBound (op : Nat) (g : Bool) (m : Nat) (e : Int) : TransBound op g m e (freeFn op (.fin g m e)) := by
  unfold freeFn
  dsimp only [boundedFp32]
  split_ifs with _ hc
  · exact .inl rfl
  · obtain ⟨hfin, hw⟩ := Bool.and_eq_true_iff.mp hc
    obtain ⟨u, k, j, hv⟩ := isFin_of_within hfin hw
    refine .inr ⟨fmtFP32.quantum k j, ⟨u, k, j, hv, rfl⟩, ?_⟩
    rw [hv] at hw ⊢
    exact hw
  · exact .inl rfl

/-! ### The rows of R151 -/

section Rows

variable {op : Nat} {g : Bool} {m : Nat} {e : Int}

theorem transFn_special : ∀ p ∈ transSpecial, (transFn p.1 p.2.1).bits = p.2.2 := by decide

theorem transFn_log_zero (h : op = 0x22 ∨ op = 0x23) : (transFn op (.fin g 0 e)).bits = fmtFP32.infBits true := by
  obtain rfl | rfl := h <;> rfl

theorem transFn_reciprocal_zero (h : op = 0x24 ∨ op = 0x25) : (transFn op (.fin g 0 e)).bits = fmtFP32.infBits g := by
  obtain rfl | rfl := h <;> rfl

theorem transFn_odd_zero (h : op = 0x26 ∨ op = 0x28 ∨ op = 0x2A) : (transFn op (.fin g 0 e)).bits = fmtFP32.signBit g := by
  obtain rfl | rfl | rfl := h <;> rfl

theorem transFn_vexp (h : Num.lt (Num.ofInt 89) (.fin g m e) = false) : (transFn 0x20 (.fin g m e)).bits = freeFn 0x20 (.fin g m e) := by
  simp [transFn, h, ovf]

theorem transFn_vexp2 (h : Num.le (Num.ofInt 128) (.fin g m e) = false) (ht : Num.eqv (Num.ofInt (Num.fin g m e).trunc) (.fin g m e) = false) :
    (transFn 0x21 (.fin g m e)).bits = freeFn 0x21 (.fin g m e) := by
  simp [transFn, h, ht, ovf]

theorem transFn_vexp2_integer (h : Num.le (Num.ofInt 128) (.fin g m e) = false) (ht : Num.eqv (Num.ofInt (Num.fin g m e).trunc) (.fin g m e) = true)
    (hk : -149 ≤ (Num.fin g m e).trunc) : (transFn 0x21 (.fin g m e)).bits = fmtFP32.rne (.fin false 1 (Num.fin g m e).trunc) := by
  simp [transFn, h, ht, hk]

variable (hm : m ≠ 0)
include hm

theorem transFn_negative (h : op = 0x22 ∨ op = 0x23 ∨ op = 0x25) : (transFn op (.fin true m e)).bits = fmtFP32.canonNan := by
  obtain rfl | rfl | rfl := h <;> simp [transFn, hm]

theorem transFn_vrcp : (transFn 0x24 (.fin g m e)).bits = fmtFP32.rne (Num.div (.fin false 1 0) (.fin g m e)) := by
  simp [transFn, hm]
  rfl

theorem transFn_vlog (h : Num.eqv (.fin false m e) (Num.ofInt 1) = false) : (transFn 0x22 (.fin false m e)).bits = freeFn 0x22 (.fin false m e) := by
  simp [transFn, hm, h]

theorem transFn_vlog_one (h : Num.eqv (.fin false m e) (Num.ofInt 1) = true) : (transFn 0x22 (.fin false m e)).bits = 0 := by
  simp [transFn, hm, h]

theorem transFn_vlog2 (h : m ≠ 2 ^ Nat.log2 m) : (transFn 0x23 (.fin false m e)).bits = freeFn 0x23 (.fin false m e) := by
  simp [transFn, hm, pow2Exp, h]

theorem transFn_vlog2_power (h : m = 2 ^ Nat.log2 m) : (transFn 0x23 (.fin false m e)).bits = fmtFP32.rne (Num.ofInt (numExp m e)) := by
  simp [transFn, hm, pow2Exp, ← h]

theorem transFn_vrsqrt : (transFn 0x25 (.fin false m e)).bits = freeFn 0x25 (.fin false m e) := by
  simp [transFn, hm]

/-- From VTANH on every row is free within its bound. -/
theorem transFn_free (h : 0x26 ≤ op) (h' : op ≤ 0x2D) : (transFn op (.fin g m e)).bits = freeFn op (.fin g m e) := by
  interval_cases op <;> simp [transFn, hm]

end Rows

/-- An element of TYPE FP32 without FTZ is the FP32 result. -/
theorem VOp.trans_fp32 {o : VOp} (hty : o.ty = 0) (hftz : o.ftz = false) (i : Nat) : (o.trans i).bits = (transFn (vcOp o.x) (o.fa i)).bits := by
  unfold trans
  simp [hty, hftz]

theorem transTable_starts : ∀ row ∈ transTable, StartsVector row.1 row.2 := by
  simp only [transTable, List.forall_mem_cons]
  exact ⟨fun _ _ => rfl, fun _ _ => rfl, fun _ _ => rfl, fun _ _ => rfl, fun _ _ => rfl, fun _ _ => rfl, fun _ _ => rfl, fun _ _ => rfl, fun _ _ => rfl,
    fun _ _ => rfl, fun _ _ => rfl, fun _ _ => rfl, fun _ _ => rfl, fun _ _ => rfl, List.forall_mem_nil _⟩

end Sys2Proof.Machine

namespace Sys2Proof.Safety

open Sys2Proof.Machine

/-- A transcendental operation writes its elements in its destination. -/
theorem VecHead.trans_writes {s : State} {n : Nat} {q : QCmd} {rest : List QCmd} {row : (Fin 384 → Instr) × Nat} (hm : row ∈ transTable) (h : VecHead s n row.2 q rest) :
    VecWrites s (s.vector n row.2) n q rest (headOp s n q).w (vcN q.slot) fun i => ((headOp s n q).trans i).bits := by
  obtain ⟨hrange, hop⟩ := (by decide : ∀ row ∈ transTable, (0x20 ≤ row.2 ∧ row.2 ≤ 0x2D) ∧ row.2 ∉ [0, 0x40, 0x41, 0x42]) row hm
  exact h.typed_writes (VOp.run_trans (h.opcode ▸ hrange)) (fun _ => rfl) hop

/-- Settles O15: an FP32 element is what the row of R151 states, or the free value of its operand, which stands only within the bound. -/
theorem vectorTranscendentalsWithinBounds : Obligations.VectorTranscendentalsWithinBounds := by
  unfold Obligations.VectorTranscendentalsWithinBounds
  intro row hm n s q rest h o
  refine ⟨_, _, transTable_starts row hm n s, h.trans_writes hm, fun hty hftz i _ => ?_⟩
  have hbits : (o.trans i).bits = (transFn row.2 (o.fa i)).bits := (VOp.trans_fp32 (o := o) hty hftz i).trans (by rw [h.opcode])
  rw [hbits]
  have hle : row.2 ≤ 0x2D := (by decide : ∀ row ∈ transTable, row.2 ≤ 0x2D) row hm
  generalize row.2 = op at hle ⊢
  refine ⟨fun hx => ?_, fun p hp ho hx => ?_, fun g e hx => ?_, fun g m e hx h0 => ?_⟩
  · rw [hx]
    rfl
  · rw [← ho, hx]
    exact transFn_special p hp
  · rw [hx]
    exact ⟨transFn_log_zero, transFn_reciprocal_zero, transFn_odd_zero⟩
  · rw [hx]
    refine ⟨?_, ?_, ?_, ?_, ?_, ?_, ?_⟩
    · rintro rfl ho
      exact transFn_negative h0 ho
    · rintro rfl
      exact transFn_vrcp h0
    · rintro rfl hlt
      rw [transFn_vexp hlt]
      exact freeFn_transBound ..
    · rintro rfl hx
      refine ⟨fun ht => ?_, fun ht hk => transFn_vexp2_integer hx ht hk⟩
      rw [transFn_vexp2 hx ht]
      exact freeFn_transBound ..
    · rintro rfl rfl
      refine ⟨fun ht => ?_, fun ht => transFn_vlog_one h0 ht⟩
      rw [transFn_vlog h0 ht]
      exact freeFn_transBound ..
    · rintro rfl rfl
      refine ⟨fun ht => ?_, fun ht => transFn_vlog2_power h0 ht⟩
      rw [transFn_vlog2 h0 ht]
      exact freeFn_transBound ..
    · rintro (hge | ⟨rfl, rfl⟩)
      · rw [transFn_free h0 hge hle]
        exact freeFn_transBound ..
      · rw [transFn_vrsqrt h0]
        exact freeFn_transBound ..

end Sys2Proof.Safety
end

section
/-! O16: gather and scatter (R153): elements move between a vector register and the scratchpad once every address is checked. -/

namespace Sys2Proof.Machine

open Sys2Proof.Safety

/-! ### Elements written to a scratchpad one after another -/

/-- Elements of `w` bytes are stored at `addr 0`, `addr 1`, …, each a function of what stood there. -/
def State.putEach (s : State) (n : Nat) (addr : Nat → Nat) (w : Nat) (f : Nat → Nat → Nat) (k : Nat) : State :=
  (List.range k).foldl (fun s i => s.spmPut n (addr i) (leBytes w (f i (s.spmLE n (addr i) w)))) s

theorem getByte_spmPut_outside (s : State) (n off : Nat) (d : Bytes) {x : Nat} (h : outside [(spmAddr n off, d.length)] x) :
    (s.spmPut n off d).getByte x = s.getByte x := by
  have hA := spmAddr_ge n off
  have hx := h _ (List.mem_singleton_self _)
  exact State.getByte_setBytes_ne d s _ fun i hi => State.memKey_ne_of_spm s (by omega) (by dsimp only at hx; omega)

theorem spmLE_spmPut_apart (s : State) (n : Nat) {a b w : Nat} (v : Nat) (h : apart a b w) : (s.spmPut n b (leBytes w v)).spmLE n a w = s.spmLE n a w :=
  (spmPut_kept s n b _ (length_leBytes w v)).spmLE fun _ hc => outside_of_apart hc (rangesMeet_eq_false.mpr h.symm)

/-- Elements at distinct aligned addresses share no byte. -/
theorem apart_of_aligned {a b w : Nat} (ha : a % w = 0) (hb : b % w = 0) (h : a ≠ b) : apart a b w := by
  obtain ⟨x, rfl⟩ := Nat.dvd_of_mod_eq_zero ha
  obtain ⟨y, rfl⟩ := Nat.dvd_of_mod_eq_zero hb
  obtain hxy | hxy := Nat.lt_or_gt_of_ne fun e : x = y => h (by rw [e])
  · exact .inl (Nat.mul_le_mul_left w hxy)
  · exact .inr (Nat.mul_le_mul_left w hxy)

section PutEach

variable (s : State) (n : Nat) (addr : Nat → Nat) (w : Nat) (f : Nat → Nat → Nat)

theorem putEach_succ (k : Nat) : s.putEach n addr w f (k + 1) =
    (s.putEach n addr w f k).spmPut n (addr k) (leBytes w (f k ((s.putEach n addr w f k).spmLE n (addr k) w))) := by
  unfold State.putEach
  rw [List.range_succ, List.foldl_append, List.foldl_cons, List.foldl_nil]

theorem putEach_eq (k : Nat) : ∃ m, s.putEach n addr w f k = { s with mem := m } := by
  induction k with
  | zero => exact ⟨_, rfl⟩
  | succ k ih =>
    obtain ⟨m, hm⟩ := ih
    rw [putEach_succ, State.spmPut, State.setBytes_eq, hm]
    exact ⟨_, rfl⟩

theorem putEach_core (k m : Nat) : (s.putEach n addr w f k).core m = s.core m := by
  obtain ⟨_, h⟩ := putEach_eq s n addr w f k
  rw [h]
  rfl

theorem getByte_putEach {k x : Nat} (h : outside ((List.range k).map fun i => (spmAddr n (addr i), w)) x) : (s.putEach n addr w f k).getByte x = s.getByte x := by
  induction k with
  | zero => rfl
  | succ k ih =>
    have hk : outside [(spmAddr n (addr k), w)] x :=
      List.forall_mem_singleton.mpr (h _ (List.mem_map_of_mem (List.mem_range.mpr (Nat.lt_succ_self k))))
    rw [putEach_succ, getByte_spmPut_outside _ _ _ _ (by rwa [length_leBytes])]
    exact ih fun r hr => h r (List.map_subset _ (List.range_subset.mpr (Nat.le_succ k)) hr)

variable {addr w}

/-- What no element names stands. -/
theorem spmLE_putEach_ne {k a : Nat} (ha : a % w = 0) (hal : ∀ j, j < k → addr j % w = 0) (h : ∀ j, j < k → addr j ≠ a) :
    (s.putEach n addr w f k).spmLE n a w = s.spmLE n a w := by
  induction k with
  | zero => rfl
  | succ k ih =>
    rw [putEach_succ, spmLE_spmPut_apart _ _ _ (apart_of_aligned ha (hal k (Nat.lt_succ_self k)) (h k (Nat.lt_succ_self k)).symm)]
    exact ih (fun j hj => hal j (Nat.lt_succ_of_lt hj)) fun j hj => h j (Nat.lt_succ_of_lt hj)

/-- The last element that names an address decides what it holds. -/
theorem spmLE_putEach_last {k i : Nat} (hi : i < k) (hal : ∀ j, j < k → addr j % w = 0) (h : ∀ j, i < j → j < k → addr j ≠ addr i) :
    (s.putEach n addr w f k).spmLE n (addr i) w = f i ((s.putEach n addr w f i).spmLE n (addr i) w) % 256 ^ w := by
  induction k with
  | zero => cases hi
  | succ k ih =>
    rw [putEach_succ]
    obtain rfl | hlt := Nat.eq_or_lt_of_le (Nat.le_of_lt_succ hi)
    · exact spmLE_spmPut_leBytes ..
    · rw [spmLE_spmPut_apart _ _ _ (apart_of_aligned (hal i hi) (hal k (Nat.lt_succ_self k)) (h k hlt (Nat.lt_succ_self k)).symm)]
      exact ih hlt (fun j hj => hal j (Nat.lt_succ_of_lt hj)) fun j hij hj => h j hij (Nat.lt_succ_of_lt hj)

end PutEach

/-! ### The operation before its elements move (R156, R157, R171) -/

/-- The banks decide on the lines of each group of 64 elements. -/
def State.bankGroups (s : State) (n : Nat) (o : VOp) : State :=
  (List.range (ceilDiv (vcN o.x) 64)).foldl (fun s g => (o.groupLines o.w g).foldl (fun s l => s.bankLines n 4 (64 * l) 1) s) s

theorem bankGroups_eq (s : State) (n : Fin 384) (o : VOp) : ∃ a, s.bankGroups n o = { s with arbs := a } := by
  have hbank : ∀ t : State, (∃ a, t = { s with arbs := a }) → ∀ l, ∃ a, t.bankLines n 4 (64 * l) 1 = { s with arbs := a } := by
    rintro _ ⟨a, rfl⟩ l
    obtain ⟨⟨b, h⟩, -⟩ := State.bankLines_banks { s with arbs := a } n 4 (64 * l) 1
    exact ⟨b, h⟩
  exact List.foldlRecOn (motive := fun t : State => ∃ a, t = { s with arbs := a }) _ _ ⟨_, rfl⟩ fun t ht g _ =>
    List.foldlRecOn (motive := fun t : State => ∃ a, t = { s with arbs := a }) _ _ ht fun t ht l _ => hbank t ht l

/-- The conflict cycles are counted, and the banks decide. -/
def State.vmemAsked (s : State) (n : Nat) (o : VOp) : State := (s.fsat (F.vxePerf_CONFLICT n) (o.conflicts o.w)).bankGroups n o

theorem vxePerf_not_map (n : Fin 384) : Reg.memMap.off ∉ [(Reg.vxePerf n).off] ∧ ∀ i < 12, (Reg.memLive i).off ∉ [(Reg.vxePerf n).off] := by
  have := n.isLt
  refine ⟨?_, fun i hi => ?_⟩ <;> simp only [List.mem_singleton, Reg.off] <;> omega

theorem vxeFlags_not_map (n : Fin 384) : Reg.memMap.off ∉ [(Reg.vxeFlags n).off] ∧ ∀ i < 12, (Reg.memLive i).off ∉ [(Reg.vxeFlags n).off] := by
  have := n.isLt
  refine ⟨?_, fun i hi => ?_⟩ <;> simp only [List.mem_singleton, Reg.off] <;> omega

theorem spmLE_lt (s : State) (n off len : Nat) : s.spmLE n off len < 2 ^ (8 * len) := by
  have h := leVal_lt (s.spm n off len)
  rwa [show (s.spm n off len).length = len from length_getBytes .., show 256 = 2 ^ 8 from rfl, ← Nat.pow_mul] at h

/-- The operation leaves its queue, and Tail sees it start. -/
def State.vecLeft (s : State) (n : Nat) (q : QCmd) (rest : List QCmd) : State :=
  (s.tailCore n 2 0x20 (vcOp q.slot + (vcN q.slot - 1) * 256)).modCore n (·.vstart q rest)

/-- The state in which the elements of the operation at the head of the queue move. -/
def State.memHead (s : State) (n : Nat) (q : QCmd) (rest : List QCmd) : State := (s.vecLeft n q rest).vmemAsked n (headOp s n q)

/-- From `s` to `t` the operation `q` has left its queue on core `n`, and no byte of memory has changed. -/
structure MemStarted (s t : State) (n : Nat) (q : QCmd) (rest : List QCmd) : Prop where
  core : t.core n = (s.core n).vstart q rest
  coresBut : CoresBut s t n
  mem : t.mem = s.mem
  byte : ∀ x, t.getByte x = s.getByte x

namespace MemStarted

variable {s t u : State} {n : Nat} {q : QCmd} {rest : List QCmd}

theorem spmLE (h : MemStarted s t n q rest) (off len : Nat) : t.spmLE n off len = s.spmLE n off len :=
  congrArg leVal (getBytes_congr fun _ _ => h.byte _)

theorem vq (h : MemStarted s t n q rest) : (t.core n).vq = rest := by
  rw [h.core]
  rfl

theorem vr (h : MemStarted s t n q rest) : (t.core n).vr = (s.core n).vr := by
  rw [h.core]
  rfl

/-- Registers that place no byte may change. -/
theorem of_regs {offs : List Nat} (h : MemStarted s t n q rest) (hc : ∀ m, u.core m = t.core m) (hm : u.mem = t.mem) (hr : RegsBut t u offs)
    (hmap : Reg.memMap.off ∉ offs ∧ ∀ i < 12, (Reg.memLive i).off ∉ offs) : MemStarted s u n q rest where
  core := (hc n).trans h.core
  coresBut m hne := (hc m).trans (h.coresBut m hne)
  mem := hm.trans h.mem
  byte x := (getByte_congr hr hmap.1 hmap.2 hm x).trans (h.byte x)

theorem bankGroups {n : Fin 384} (h : MemStarted s t n q rest) (o : VOp) : MemStarted s (t.bankGroups n o) n q rest := by
  obtain ⟨a, ha⟩ := bankGroups_eq t n o
  rw [ha]
  exact ⟨h.core, h.coresBut, h.mem, h.byte⟩

theorem of_vecLeft (s : State) (n : Nat) (q : QCmd) (rest : List QCmd) : MemStarted s (s.vecLeft n q rest) n q rest := by
  have hseen := s.seen_tailCore n 2 0x20 (vcOp q.slot + (vcN q.slot - 1) * 256)
  unfold State.vecLeft
  refine ⟨?_, fun m hne => ?_, hseen.mem, fun x => getByte_congr hseen.1 lossOffs_not_map.1 lossOffs_not_map.2 hseen.mem x⟩
  · rw [State.core_modCore_self, hseen.core]
  · rw [State.core_modCore_ne _ _ hne, hseen.core]

theorem of_memHead (s : State) (n : Fin 384) (q : QCmd) (rest : List QCmd) : MemStarted s (s.memHead n q rest) n q rest :=
  ((of_vecLeft s n q rest).of_regs (fun _ => State.core_fsat ..) rfl (regsBut_fsat _ (F.vxePerf_CONFLICT n) _) (vxePerf_not_map n)).bankGroups _

end MemStarted

theorem vector_of_mem_head {s : State} {n op : Nat} {q : QCmd} {rest : List QCmd} (h : VecHead s n op q rest) (hop : op ∈ [0x40, 0x41, 0x42]) :
    s.vector n op = (s.vecLeft n q rest).vmem n (headOp s n q) := by
  obtain ⟨hq, rfl, -, hi, hf, hu⟩ := h
  simp only [List.mem_cons, List.not_mem_nil, or_false] at hop
  unfold State.vector
  simp only [hq, hi, hf, hu, Option.isNone_none, and_self, if_true, if_pos hop]
  rfl

/-! ### The three operations (R153) -/

section Ops

variable {s : State} {n : Nat} {o : VOp}

theorem vmem_vgather (hg : o.gok o.w = true) (h : vcOp o.x = 0x40) : s.vmem n o =
    (s.vmemAsked n o).vwrite n ⟨[(vcVd o.x, o.w, (List.range (vcN o.x)).map fun i => (s.vmemAsked n o).spmLE n (o.gaddr o.w i) o.w)], 0⟩ := by
  unfold State.vmem
  dsimp only
  rw [hg, h]
  rfl

theorem vmem_vscatter (hg : o.gok o.w = true) (h : vcOp o.x = 0x41) :
    s.vmem n o = (s.vmemAsked n o).putEach n (o.gaddr o.w) o.w (fun i _ => o.b i) (vcN o.x) := by
  unfold State.vmem
  dsimp only
  rw [hg, h]
  rfl

/-- An addition of VSCADD: the value that stands at an address, and an element of VB. -/
def VOp.scadd (o : VOp) (i old : Nat) : Nat := (narrow o.ty (o.mode i) o.ftz (Num.add (ftzDec fmtFP32 o.ftz old) (o.fb i))).bits

theorem vmem_vscadd (hg : o.gok o.w = true) (h : vcOp o.x = 0x42) :
    ∃ fl, s.vmem n o = ((s.vmemAsked n o).putEach n (o.gaddr 4) 4 o.scadd (vcN o.x)).raise n fl := by
  unfold State.vmem
  dsimp only
  rw [hg, h]
  refine ⟨_, congrArg (State.raise · n _) ?_⟩
  exact (List.foldl_hom Prod.fst fun _ _ => rfl).symm

end Ops

/-- Every address of a checked operation is aligned. -/
theorem VOp.gaddr_aligned {o : VOp} {w : Nat} (h : o.gok w = true) {i : Nat} (hi : i < vcN o.x) : o.gaddr w i % w = 0 := by
  have := List.all_eq_true.mp h i (List.mem_range.mpr hi)
  simp only [Bool.and_eq_true, decide_eq_true_eq] at this
  exact this.1

/-! Results and flags change the core that writes them, and no memory. -/

/-- The flags of an operation come after its results. -/
theorem vwrite_eq (s : State) (n : Nat) (v : VOut) : ∃ t r f, CoreBecomes s t n (v.into (s.core n)) ∧ s.vwrite n v = { t with regs := r, free := f } := by
  obtain ⟨-, r, f, he⟩ := (v.regs.foldl (fun s r => s.modCore n (·.setVbytes r.1 0 (r.2.2.map (leBytes r.2.1)).flatten)) s).raiseOpen_frame n v.fl
  exact ⟨_, r, f, coreBecomes_foldl s n (fun (r : Nat × Nat × List Nat) c => c.setVbytes r.1 0 (r.2.2.map (leBytes r.2.1)).flatten) v.regs
    ⟨rfl, fun _ _ => rfl, rfl⟩, he⟩

theorem vwrite_core (s : State) (n : Nat) (v : VOut) : (s.vwrite n v).core n = v.into (s.core n) := by
  obtain ⟨t, r, f, ⟨hself, -, -⟩, he⟩ := vwrite_eq s n v
  rw [he]
  exact hself

theorem vwrite_coresBut (s : State) (n : Nat) (v : VOut) : CoresBut s (s.vwrite n v) n := by
  obtain ⟨t, r, f, ⟨-, hbut, -⟩, he⟩ := vwrite_eq s n v
  rw [he]
  exact hbut

theorem vwrite_mem (s : State) (n : Nat) (v : VOut) : (s.vwrite n v).mem = s.mem := by
  obtain ⟨t, r, f, ⟨-, -, hrest⟩, he⟩ := vwrite_eq s n v
  rw [he]
  exact (congrArg State.mem hrest :)

theorem getByte_raise (s : State) (n : Fin 384) (fl x : Nat) : (s.raise n fl).getByte x = s.getByte x :=
  have ⟨hm, hl⟩ := vxeFlags_not_map n
  getByte_congr (regsBut_setReg s (.vxeFlags n) _) hm hl rfl x

theorem spmLE_raise (s : State) (n : Fin 384) (fl m off len : Nat) : (s.raise n fl).spmLE m off len = s.spmLE m off len :=
  congrArg leVal (getBytes_congr fun _ _ => getByte_raise ..)

end Sys2Proof.Machine

namespace Sys2Proof.Safety

open Sys2Proof.Machine

section GatherScatter

variable {s : State} {n : Fin 384} {q : QCmd} {rest : List QCmd}

theorem VecHead.vgather_eq (h : VecHead s n 0x40 q rest) (hg : (headOp s n q).gok (headOp s n q).w = true) :
    s.vector n 0x40 = (s.memHead n q rest).vwrite n ⟨[(vcVd q.slot, (headOp s n q).w, (List.range (vcN q.slot)).map fun i =>
      (s.memHead n q rest).spmLE n ((headOp s n q).gaddr (headOp s n q).w i) (headOp s n q).w)], 0⟩ :=
  (vector_of_mem_head h (by decide)).trans (vmem_vgather hg h.opcode)

theorem VecHead.vscatter_eq (h : VecHead s n 0x41 q rest) (hg : (headOp s n q).gok (headOp s n q).w = true) :
    s.vector n 0x41 = (s.memHead n q rest).putEach n ((headOp s n q).gaddr (headOp s n q).w) (headOp s n q).w (fun i _ => (headOp s n q).b i) (vcN q.slot) :=
  (vector_of_mem_head h (by decide)).trans (vmem_vscatter hg h.opcode)

theorem VecHead.vscadd_eq (h : VecHead s n 0x42 q rest) (hg : (headOp s n q).gok (headOp s n q).w = true) :
    ∃ fl, s.vector n 0x42 = ((s.memHead n q rest).putEach n ((headOp s n q).gaddr 4) 4 (headOp s n q).scadd (vcN q.slot)).raise n fl := by
  obtain ⟨fl, hfl⟩ := vmem_vscadd (s := s.vecLeft n q rest) (n := n) hg h.opcode
  exact ⟨fl, (vector_of_mem_head h (by decide)).trans hfl⟩

/-- VSCADD is of TYPE FP32. -/
theorem VecHead.vscadd_fp32 (h : VecHead s n 0x42 q rest) : vcTy q.slot = 0 := by
  have hrow : vcRow (vcOp q.slot) = some (.a, [0], true) := by rw [h.opcode]; rfl
  obtain ⟨hty, -⟩ := vcLegal_row h.legal (by rw [h.opcode]; decide) hrow
  exact List.mem_singleton.mp hty

end GatherScatter

/-- Settles O16: once every address is checked, VGATHER loads from bytes that stand; the stores of VSCATTER and VSCADD run in ascending order, and elements at distinct aligned addresses share no byte. -/
theorem vectorGatherScatter : Obligations.VectorGatherScatter := by
  unfold Obligations.VectorGatherScatter
  intro n s q rest o es hg
  have hst := MemStarted.of_memHead s n q rest
  refine ⟨fun h => ⟨_, congrArg Host.Outcome.next (h.vgather_eq hg), ?_⟩, fun h => ⟨_, congrArg Host.Outcome.next (h.vscatter_eq hg), ?_⟩, fun h => ?_⟩
  · refine ⟨?_, fun m hm => (vwrite_coresBut _ _ _ m hm).trans (hst.coresBut m hm), (vwrite_mem _ _ _).trans hst.mem, fun i hi => ?_⟩
    · rw [vwrite_core]
      exact hst.vq
    · rw [vwrite_core, VOut.into, List.foldl_cons, List.foldl_nil, CoreS.velem_setVbytes_self _ _ _ _ (by simpa using hi), List.getElem_map, List.getElem_range,
        hst.spmLE, Nat.mod_eq_of_lt (spmLE_lt ..)]
  · refine ⟨?_, fun m hm => ?_, ?_, fun i hi hlast => ?_, fun x hx => ?_⟩
    · rw [putEach_core]
      exact hst.vq
    · rw [putEach_core]
      exact hst.coresBut m hm
    · rw [putEach_core]
      exact hst.vr
    · rw [spmLE_putEach_last _ _ _ hi (fun j hj => VOp.gaddr_aligned hg hj) hlast]
      exact Nat.mod_eq_of_lt (by rw [show 256 = 2 ^ 8 from rfl, ← Nat.pow_mul]; exact VOp.b_lt o i)
    · exact (getByte_putEach _ _ _ _ _ hx).trans (hst.byte x)
  · obtain ⟨fl, ht⟩ := h.vscadd_eq hg
    have hty : o.ty = 0 := h.vscadd_fp32
    have hw : o.w = 4 := congrArg tyBytes hty
    rw [hw] at hg
    refine ⟨_, congrArg Host.Outcome.next ht, ?_, fun m hm => ?_, ?_, fun i hi hone => ?_, fun x hx => ?_⟩
    · exact (congrArg CoreS.vq (putEach_core ..)).trans hst.vq
    · exact (putEach_core ..).trans (hst.coresBut m hm)
    · exact (congrArg CoreS.vr (putEach_core ..)).trans hst.vr
    · have hal : ∀ j, j < vcN q.slot → o.gaddr 4 j % 4 = 0 := fun j hj => VOp.gaddr_aligned hg hj
      rw [spmLE_raise, spmLE_putEach_last _ _ _ hi hal (fun j hij hj => hone j (Nat.ne_of_gt hij) hj),
        spmLE_putEach_ne _ _ _ (hal i hi) (fun j hj => hal j (hj.trans hi)) (fun j hj => hone j (Nat.ne_of_lt hj) (hj.trans hi)), hst.spmLE]
      unfold VOp.scadd
      rw [hty]
      rfl
    · rw [getByte_raise]
      exact (getByte_putEach _ _ _ _ _ hx).trans (hst.byte x)

end Sys2Proof.Safety
end

section
/-! SUPPORT. The register table the other way: the offset of a register that exists decodes to it (R162, R497). -/

namespace Sys2Proof.Machine

/-- The blocks of the register space: first offset, length, decoder of the offsets within the block (R497). -/
def Reg.blocks : List (Nat × Nat × (Nat → Option Reg)) :=
  [(0x0, 0x800000, Reg.ofStr), (0x800000, 0x800000, Reg.ofCnt), (0x1000000, 0x200000, Reg.ofCore), (0x1200000, 0x200000, Reg.ofMxe),
   (0x1400000, 0x200000, Reg.ofVxe), (0x1600000, 0x200000, Reg.ofSpm), (0x1800000, 0x200000, Reg.ofRte), (0x1a00000, 0x200000, Reg.ofPrt),
   (0x1c00000, 0x100000, Reg.ofMgt), (0x1d00000, 0x20000, Reg.ofMem), (0x1e00000, 0x10000, Reg.ofNoc), (0x1e10000, 0x10000, Reg.ofLlc),
   (0x1e20000, 0x10000, Reg.ofLnk), (0x1e30000, 0x10000, Reg.ofCol), (0x1e40000, 0x10000, Reg.ofHst), (0x1e50000, 0x10000, Reg.ofEth),
   (0x1e60000, 0x10000, Reg.ofSaf), (0x1e70000, 0x10000, Reg.ofSec), (0x1e80000, 0x10000, Reg.ofTrc), (0x1e90000, 0x10000, Reg.ofPwr),
   (0x1ea0000, 0x10000, Reg.ofRst), (0x1eb0000, 0x10000, Reg.ofBoot), (0x1ec0000, 0x10000, Reg.ofArb), (0x1ed0000, 0x10000, Reg.ofUmb)]

theorem Reg.blocks_aligned : ∀ b ∈ Reg.blocks, b.1 % 8 = 0 := by decide

/-- An aligned offset of a block is decoded by the block's decoder. -/
theorem Reg.ofOff_block : ∀ b ∈ Reg.blocks, ∀ x, x % 8 = 0 → x < b.2.1 → Reg.ofOff (b.1 + x) = b.2.2 x := by
  simp only [Reg.blocks, List.forall_mem_cons, List.not_mem_nil, false_implies, implies_true, and_true]
  and_intros
  all_goals
    intro x h8 hx
    refine (if_neg (by omega)).trans ?_
    repeat refine (if_neg (by omega)).trans ?_
    exact (if_pos (by omega)).trans (congrArg _ (Nat.add_sub_cancel_left ..))

/-- A register of block `i` is decoded when the block's decoder gives it at its offset within the block. -/
theorem Reg.ofOff_of_block (i : Nat) {b : Nat × Nat × (Nat → Option Reg)} (hb : Reg.blocks[i]? = some b) {r : Reg}
    (hlo : b.1 ≤ r.off) (hhi : r.off < b.1 + b.2.1) (h8 : r.off % 8 = 0) (h : ∀ x, r.off = b.1 + x → b.2.2 x = some r) : Reg.ofOff r.off = some r := by
  have hmem := List.mem_of_getElem? hb
  have hlo8 : b.1 % 8 = 0 := Reg.blocks_aligned b hmem
  obtain ⟨x, hx⟩ := Nat.exists_eq_add_of_le hlo
  rw [hx, Reg.ofOff_block b hmem x (by omega) (by omega), h x hx]

/-- The registers of the cores, streams, counters, routes, partitions and management. Within a block the numbers of every entry before the register's own do not fit its offset. -/
theorem Reg.ofOff_off_below_mem (r : Reg) (h : r.inRange = true) (hr : r.off < 0x1d00000) : Reg.ofOff r.off = some r := by
  cases r
  case' strRing | strCq | strCtl | strCqhead | strStat | strHead | strScnt | strCtx | strDb => refine Reg.ofOff_of_block 0 rfl ?_ ?_ ?_ fun x hx => ?_
  case' cntScfg | cntSbase | cntSlist | cntShead | cntSstat | cntCtag | cntCbund | cntCstall | cntCrows | cntNw | cntTrap | cntTrapst | cntNwclr =>
    refine Reg.ofOff_of_block 1 rfl ?_ ?_ ?_ fun x hx => ?_
  case' coreStatus | coreErr | coreFence | coreDbg | coreBkpt | coreDreg | coreVcfg | coreVmap => refine Reg.ofOff_of_block 2 rfl ?_ ?_ ?_ fun x hx => ?_
  case' mxeCtl | mxeStat | mxeCkctl | mxeCkcnt | mxeCklast | mxePerf => refine Reg.ofOff_of_block 3 rfl ?_ ?_ ?_ fun x hx => ?_
  case' vxeStat | vxeFlags | vxePerf => refine Reg.ofOff_of_block 4 rfl ?_ ?_ ?_ fun x hx => ?_
  case' spmEcc => refine Reg.ofOff_of_block 5 rfl ?_ ?_ ?_ fun x hx => ?_
  case' rteCfg | rteShape | rtePrimary | rteDetour | rteEntc => refine Reg.ofOff_of_block 6 rfl ?_ ?_ ?_ fun x hx => ?_
  case' prtCfg | prtStat | prtCmd | prtCmdarg | prtRgnA | prtRgnB => refine Reg.ofOff_of_block 7 rfl ?_ ?_ ?_ fun x hx => ?_
  case' mgtFwstat | mgtFwcmd | mgtFwarg | mgtFwarea | mgtRollback | mgtLimits | mgtCapstat | mgtRcmd | mgtFwwin | mgtErrbase | mgtErrhead | mgtErrstat
      | mgtErrirq => refine Reg.ofOff_of_block 8 rfl ?_ ?_ ?_ fun x hx => ?_
  all_goals simp only [Reg.inRange, Bool.and_eq_true, decide_eq_true_eq] at h
  all_goals dsimp only [Reg.off] at *
  all_goals try omega
  all_goals
    repeat refine (if_neg (by omega)).trans ?_
    refine (if_pos (by omega)).trans ?_
    congr <;> omega

theorem Reg.ofOff_off_arbCls {d t j : Nat} (h : (Reg.arbCls d t j).inRange = true) : Reg.ofOff (Reg.arbCls d t j).off = some (.arbCls d t j) := by
  simp only [Reg.inRange, Bool.and_eq_true, Bool.or_eq_true, decide_eq_true_eq] at h
  obtain ⟨⟨⟨hd, ht⟩, hj⟩, hp⟩ := h
  refine Reg.ofOff_of_block 22 rfl ?_ ?_ ?_ fun x hx => ?_
  all_goals dsimp only [Reg.off] at *
  iterate 3 omega
  have hd' : (x - 0x100) / 0x1000 = d := by omega
  have ht' : (x - 0x100) % 0x1000 / 0x10 = t := by omega
  have hj' : (x - 0x100) % 0x1000 % 0x10 / 0x8 = j := by omega
  refine (if_neg (by omega)).trans ((if_pos ?_).trans (by rw [hd', ht', hj']))
  rw [hd', ht', hj']
  exact ⟨by omega, hd, ht, by omega, by omega, by omega, hp⟩

theorem Reg.ofOff_off_arbMaxwait {d t : Nat} (h : (Reg.arbMaxwait d t).inRange = true) : Reg.ofOff (Reg.arbMaxwait d t).off = some (.arbMaxwait d t) := by
  simp only [Reg.inRange, Bool.and_eq_true, decide_eq_true_eq] at h
  obtain ⟨⟨hd, ht⟩, hp⟩ := h
  refine Reg.ofOff_of_block 22 rfl ?_ ?_ ?_ fun x hx => ?_
  all_goals dsimp only [Reg.off] at *
  iterate 3 omega
  have hd' : (x - 0x200) / 0x1000 = d := by omega
  have ht' : (x - 0x200) % 0x1000 / 0x8 = t := by omega
  refine (if_neg (by omega)).trans ((if_neg (by omega)).trans ((if_pos ?_).trans (by rw [hd', ht'])))
  rw [hd', ht']
  exact ⟨by omega, hd, ht, by omega, hp⟩

/-- The registers from the MCHs' on. -/
theorem Reg.ofOff_off_from_mem (r : Reg) (h : r.inRange = true) (hr : 0x1d00000 ≤ r.off) : Reg.ofOff r.off = some r := by
  cases r
  case arbCls => exact Reg.ofOff_off_arbCls h
  case arbMaxwait => exact Reg.ofOff_off_arbMaxwait h
  case' memMchStat | memMchEcc | memMchPin | memCfg | memRetrain | memRetire | memMap | memLive | memStack => refine Reg.ofOff_of_block 9 rfl ?_ ?_ ?_ fun x hx => ?_
  case' nocXstat => refine Reg.ofOff_of_block 10 rfl ?_ ?_ ?_ fun x hx => ?_
  case' llcGrp | llcCommit => refine Reg.ofOff_of_block 11 rfl ?_ ?_ ?_ fun x hx => ?_
  case' lnkCfg | lnkStat | lnkPeerId | lnkPeerInfo | lnkExpect | lnkCnt | lnkFec | lnkMap | lnkEcl => refine Reg.ofOff_of_block 12 rfl ?_ ?_ ?_ fun x hx => ?_
  case' colCfg | colPool | colPriv | colPoolstat | colStat | colGcmd | colGdata0 | colGdata1 | colGdata2 | colGdata3 | colChcfg | colChcnt | colChdrop =>
    refine Reg.ofOff_of_block 13 rfl ?_ ?_ ?_ fun x hx => ?_
  case' hstHb | hstHbcfg | hstAttach | hstFstat | hstHdm | hstId0 | hstId1 => refine Reg.ofOff_of_block 14 rfl ?_ ?_ ?_ fun x hx => ?_
  case' ethCfg | ethStat => refine Reg.ofOff_of_block 15 rfl ?_ ?_ ?_ fun x hx => ?_
  case' safStat | safAlert | safThr0 | safThr1 | safProp0 | safProp1 | safReq | safLaser | safStore => refine Reg.ofOff_of_block 16 rfl ?_ ?_ ?_ fun x hx => ?_
  case' secStat | secSealpol | secZeroize | secMsess | secOpauth | mbxCmd | mbxArg => refine Reg.ofOff_of_block 17 rfl ?_ ?_ ?_ fun x hx => ?_
  case' trcBcfg | trcBbase | trcBctl | trcBstat | trcBtrig | trcBloss | trcTrig | trcSrcen | trcMkr | trcRdpos | trcRdwin => refine Reg.ofOff_of_block 18 rfl ?_ ?_ ?_ fun x hx => ?_
  case' pwrSp | pwrStat | pwrTel | pwrGov | pwrTen | pwrRail | pwrVf => refine Reg.ofOff_of_block 19 rfl ?_ ?_ ?_ fun x hx => ?_
  case' rstCmd | rstStat => refine Reg.ofOff_of_block 20 rfl ?_ ?_ ?_ fun x hx => ?_
  case' bootStatus | bootCtl | bootReport | bootFloorplan | bootFdr => refine Reg.ofOff_of_block 21 rfl ?_ ?_ ?_ fun x hx => ?_
  case' arbCommit => refine Reg.ofOff_of_block 22 rfl ?_ ?_ ?_ fun x hx => ?_
  case' umbSet | umbProt | umbRows | umbPar | umbWin | umbStat | umbCmd | umbRange => refine Reg.ofOff_of_block 23 rfl ?_ ?_ ?_ fun x hx => ?_
  all_goals simp only [Reg.inRange, Bool.and_eq_true, decide_eq_true_eq] at h
  all_goals dsimp only [Reg.off] at *
  all_goals try omega
  all_goals
    repeat refine (if_neg (by omega)).trans ?_
    refine (if_pos (by omega)).trans ?_
    congr <;> omega

/-- The offset of a register that exists decodes to that register. -/
theorem Reg.ofOff_off (r : Reg) (h : r.inRange = true) : Reg.ofOff r.off = some r :=
  (Nat.lt_or_ge r.off 0x1d00000).elim (r.ofOff_off_below_mem h) (r.ofOff_off_from_mem h)

end Sys2Proof.Machine
end

section
/-! O57: the state after reset (R12, R494; log entries 1 and 3). Each assigned register reads its Reset column, because its offset decodes to it and the fields of a layout are apart. -/

namespace Sys2Proof.Machine

/-- A register that exists reads its reset word. -/
theorem State.reg_reset {r : Reg} (h : r.inRange = true) : State.reset.reg r = r.resetWord.toNat := by
  show (regReset r.off).toNat = _
  rw [regReset, r.ofOff_off h]

/-- The reset word of `r` is the sum of its layout's reset values: the registers whose Reset column names no one value are others. -/
def Reg.ByColumn (r : Reg) : Prop := (∀ x, r ≠ .nocXstat x) ∧ (∀ l, r ≠ .lnkMap l) ∧ (∀ c, r ≠ .colChcfg c) ∧ ∀ d t j, r ≠ .arbCls d t j

theorem Reg.ByColumn.resetWord {r : Reg} (h : r.ByColumn) : r.resetWord = BitVec.ofNat 64 (layoutReset r.layout) := by
  obtain ⟨hx, hl, hc, ha⟩ := h
  unfold Reg.resetWord
  split
  · exact absurd rfl (hx _)
  · exact absurd rfl (hl _)
  · exact absurd rfl (hc _)
  · exact absurd rfl (ha _ _ _)
  · rfl

/-- A layout's reset values fit their fields: the sum of a layout is a word, and each field of it reads its own value. -/
theorem Reg.ByColumn.layoutReset_fields {r : Reg} (h : r.ByColumn) :
    layoutReset r.layout < 2 ^ 64 ∧ ∀ f ∈ r.layout, bitsOf (layoutReset r.layout) f.hi f.lo = f.rst := by
  obtain ⟨-, -, -, ha⟩ := h
  cases r with
  | arbCls d t j => exact absurd rfl (ha d t j)
  | _ => simp only [Reg.layout]; decide

theorem State.bitsOf_reset {r : Reg} (hr : r.inRange = true) (h : r.ByColumn) {f : FldSpec} (hf : f ∈ r.layout) :
    bitsOf (State.reset.reg r) f.hi f.lo = f.rst := by
  obtain ⟨hlt, hfields⟩ := h.layoutReset_fields
  rw [State.reg_reset hr, h.resetWord, BitVec.toNat_ofNat, Nat.mod_eq_of_lt hlt, hfields f hf]

theorem State.reset_modules {x : Nat} (hx : x < 12) : State.reset.fget (F.nocXstat_MODULES x) = if x < 4 then 40 else if x < 8 then 24 else 12 := by
  show bitsOf (State.reset.reg (.nocXstat x)) 5 0 = _
  rw [State.reg_reset (r := .nocXstat x) (decide_eq_true hx), Reg.resetWord]
  split
  · decide
  · split <;> decide

theorem State.reset_phys {l : Nat} (hl : l < 64) : State.reset.fget (F.lnkMap_PHYS l) = l := by
  show State.reset.reg (.lnkMap l) / 2 ^ 0 % 2 ^ 6 = l
  rw [State.reg_reset (r := .lnkMap l) (decide_eq_true hl), Reg.resetWord, BitVec.toNat_ofNat]
  omega

theorem State.reset_linkState {l : Nat} (hl : l < 64) : State.reset.linkState l = 0 :=
  State.bitsOf_reset (r := .lnkStat l) (f := ⟨63, 61, .ro, .ro, 0⟩) (decide_eq_true hl) ⟨nofun, nofun, nofun, nofun⟩ List.mem_cons_self

/-- With no command waiting a step is a tick (log entry 1). -/
theorem step_of_pending_nil {s : State} (h : s.pending = []) : Machine.step s = .next s.tick := by
  unfold step
  rw [h]

theorem State.tick_frame (s : State) : { s.tick with time := s.time } = s := by
  unfold State.tick
  split <;> rfl

end Sys2Proof.Machine

namespace Sys2Proof.Safety

open Sys2Proof.Machine

/-- Settles O57: the registers by their Reset columns, the rest of the state as reset lists it, and an idle step as a tick. -/
theorem resetState : Obligations.ResetState := by
  unfold Obligations.ResetState
  refine ⟨fun r hr hx hl hc ha f hf => State.bitsOf_reset hr ⟨hx, hl, hc, ha⟩ hf, fun x hx => State.reset_modules hx, fun l hl => State.reset_phys hl,
    rfl, rfl, fun _ => rfl, ⟨?_, ?_, ?_⟩, fun l hl => State.reset_linkState hl, rfl, fun _ => rfl, rfl, ?_, ?_,
    fun s hs => ⟨_, step_of_pending_nil hs, s.tick_frame⟩⟩
  all_goals decide

end Sys2Proof.Safety
end

section
/-! O24: a stack sensor below -40 °C has failed (R434), and its controller refreshes at 4× (R203): the statement asks for rate 0 of every reading up to 83 °C. -/

namespace Sys2Proof.Machine

open Sys2Proof.Safety

/-- Setting a field leaves a field of the same register that shares no bit with it alone. -/
theorem State.fget_fset_of_disjoint (s : State) {f g : Fld} (v : Nat) (hr : g.reg = f.reg) (hf : f.hi < 64) (hd : g.hi < f.lo ∨ f.hi < g.lo) :
    (s.fset f v).fget g = s.fget g := by
  unfold State.fset State.fget
  rw [hr, State.reg_setReg_of_lt _ _ (setBits_lt _ _ (s.reg_lt _) hf), bitsOf_setBits_of_disjoint _ _ hd]

/-- A trigger joins the queue and touches no register (R208). -/
theorem State.rtTrigger_regs (s : State) (ms : List Nat) (req : Bool) : (s.rtTrigger ms req).regs = s.regs := by
  unfold State.rtTrigger
  dsimp only
  split
  · rfl
  · split
    · split <;> rfl
    · rfl

/-- The rate after a reading is the one that R203 gives from the rate in force. -/
theorem State.rate_stackTemp (s : State) (k : Nat) (t : Int) :
    (s.stackTemp k t).fget (F.memStack_RATE k) = refreshRate (s.fget (F.memStack_RATE k)) t % 4 := by
  unfold State.stackTemp
  dsimp only
  rw [(regsBut_foldl _ _ _ [] fun u i _ => RegsBut.of_regs_eq _ ?_).fget_eq List.not_mem_nil]
  · rw [State.fget_fset_of_disjoint (f := F.memStack_TEMP k) (g := F.memStack_RATE k) _ _ rfl (by decide : 15 < 64) (.inl (by decide : 1 < 8)),
      State.fget_fset_self _ (F.memStack_RATE k) _ (by decide : 1 < 64)]
    rfl
  · split
    · exact u.rtTrigger_regs _ _
    · rfl

/-- A failed sensor's stack is refreshed at 4× whatever its rate was. -/
theorem refreshRate_of_failed {t : Int} (h : t < -40) (old : Nat) : refreshRate old t = 2 := by
  have h83 : t ≤ 83 := by omega
  simp [refreshRate, h, h83]

end Sys2Proof.Machine

namespace Sys2Proof.Safety

open Sys2Proof.Machine

/-- Refutes O24: a reading of -41 °C on stack 0 of a device after reset lies below 83 °C and sets RATE 2, the 4× that R434 asks of a failed stack sensor, where the statement asks for 0. -/
theorem not_retrainingAndRetirement : ¬ Obligations.RetrainingAndRetirement := by
  unfold Obligations.RetrainingAndRetirement
  intro h
  obtain ⟨hread, -⟩ := h State.reset
  obtain ⟨t, hexec, -, -, hrate, -⟩ := hread 0 (-41) (by decide) (by decide)
  obtain rfl : State.reset.stackTemp 0 (-41) = t := Host.Outcome.next.inj hexec
  have h4 : (State.reset.stackTemp 0 (-41)).fget (F.memStack_RATE 0) = 2 := by
    rw [State.rate_stackTemp, refreshRate_of_failed (by decide)]
  exact absurd (h4.symm.trans (hrate (by decide))) (by decide)

end Sys2Proof.Safety
end

section
/-! SUPPORT/BURSTS. The word of a burst as it is written and decoded (R197, R199, R200), the bytes that a burst put holds, what its slot leaves alone (R340), and what a counted correction or failure writes (R215). -/

namespace Sys2Proof.Machine

open Sys2Proof.Safety

/-! ### The word of a burst -/

theorem length_rsCheck (d : List Nat) : (rsCheck d).length = 8 := by
  have hgen : rsGen.length = 8 := by decide
  unfold rsCheck
  refine List.foldlRecOn (motive := fun r : List Nat => r.length = 8) d _ rfl fun r hr c _ => ?_
  simp [hr, hgen]

/-- Data symbols 0x00 have check symbols 0x00. -/
theorem rsCheck_zeros (n : Nat) : rsCheck (List.replicate n 0) = List.replicate 8 0 := by
  have hstep : List.zipWith (· ^^^ ·) ((List.replicate 8 0).tail ++ [0]) (rsGen.map (gfMul (0 ^^^ (List.replicate 8 0).headD 0))) = List.replicate 8 0 := by decide
  unfold rsCheck
  refine List.foldlRecOn (motive := (· = List.replicate 8 0)) _ _ rfl fun r hr c hc => ?_
  rw [hr, (List.mem_replicate.mp hc).2]
  exact hstep

/-- No data has the poison word for its own: its check symbols are not those of zeros (R200). -/
theorem append_rsCheck_ne_poisonWord {d : List Nat} (hd : d.length = 64) : d ++ rsCheck d ≠ poisonWord := fun h => by
  obtain ⟨hzero, hcheck⟩ := List.append_inj h (by rw [hd, List.length_replicate])
  rw [hzero, rsCheck_zeros] at hcheck
  exact absurd hcheck (by decide)

theorem State.length_burstBytes (s : State) (m b : Nat) : (s.burstBytes m b).length = 64 := by simp [State.burstBytes]

theorem State.burstWord_of_poison {s : State} {m b : Nat} (h : Sparse.getD (fun _ => false) s.poison (m * 2 ^ 24 + b) = true) :
    s.burstWord m b = poisonWord := if_pos h

theorem State.burstWord_of_clean {s : State} {m b : Nat} (h : Sparse.getD (fun _ => false) s.poison (m * 2 ^ 24 + b) = false) :
    s.burstWord m b = (s.burstBytes m b).map (·.toNat) ++ rsCheck ((s.burstBytes m b).map (·.toNat)) := if_neg (by rw [h]; decide)

theorem State.length_burstWord (s : State) (m b : Nat) : (s.burstWord m b).length = 72 := by
  unfold State.burstWord
  split
  · rfl
  · simp [length_rsCheck, s.length_burstBytes]

/-- The word of no errors changes no symbol. -/
theorem zipWith_errWord_nil {l : List Nat} (h : l.length = 72) : List.zipWith (· ^^^ ·) l (errWord []) = l := by
  rw [show errWord [] = List.replicate l.length 0 by rw [h]; rfl]
  exact List.ext_getElem (by simp) (by simp)

/-- A poisoned burst without errors shows its poison. -/
theorem State.decodeBurst_of_poison {s : State} {m b : Nat} (h : Sparse.getD (fun _ => false) s.poison (m * 2 ^ 24 + b) = true) :
    s.decodeBurst m b [] = .poisoned := by
  unfold State.decodeBurst
  exact if_pos (by rw [zipWith_errWord_nil (s.length_burstWord m b), State.burstWord_of_poison h])

/-- A burst without poison or errors is good. -/
theorem State.decodeBurst_of_clean {s : State} {m b : Nat} (h : Sparse.getD (fun _ => false) s.poison (m * 2 ^ 24 + b) = false) :
    s.decodeBurst m b [] = .good := by
  have hword : s.burstWord m b ≠ poisonWord := by
    rw [State.burstWord_of_clean h]
    exact append_rsCheck_ne_poisonWord (by rw [List.length_map, s.length_burstBytes])
  have hzero : (errWord []).all (· = 0) = true := by decide
  unfold State.decodeBurst
  dsimp only
  rw [zipWith_errWord_nil (s.length_burstWord m b), if_neg hword, h, if_neg Bool.false_ne_true, if_pos hzero]

/-! ### A burst put -/

/-- A byte of the burst put is the byte given, 0x00 where it is poisoned. -/
theorem State.mem_putBurst (s : State) (m b : Nat) (d : Bytes) (p : Bool) {i : Nat} (hi : i < 64) :
    Sparse.getD memDflt (s.putBurst m b d p).mem (burstKey m b + i) = if p then 0 else d.getD i 0 :=
  Sparse.getD_foldl_setD memDflt (burstKey m b + ·) (fun i => if p then 0 else d.getD i 0) s.mem hi fun _ _ h => Nat.add_left_cancel h

theorem State.mem_putBurst_ne (s : State) (m b : Nat) (d : Bytes) (p : Bool) {k : Nat} (hk : k < burstKey m b ∨ burstKey m b + 64 ≤ k) :
    Sparse.getD memDflt (s.putBurst m b d p).mem k = Sparse.getD memDflt s.mem k :=
  Sparse.getD_foldl_setD_ne memDflt (burstKey m b + ·) (fun i => if p then 0 else d.getD i 0) k _ s.mem fun i hi => by
    have := List.mem_range.mp hi
    omega

theorem State.burstBytes_putBurst (s : State) (m b : Nat) {d : Bytes} (p : Bool) (hd : d.length = 64) :
    (s.putBurst m b d p).burstBytes m b = if p then List.replicate 64 0 else d := by
  refine List.ext_getElem (by cases p <;> simp [State.length_burstBytes, hd]) fun i h1 h2 => ?_
  have hi : i < 64 := by rwa [State.length_burstBytes] at h1
  calc ((s.putBurst m b d p).burstBytes m b)[i] = Sparse.getD memDflt (s.putBurst m b d p).mem (burstKey m b + i) := by simp [State.burstBytes]
    _ = if p then 0 else d.getD i 0 := s.mem_putBurst m b d p hi
    _ = (if p then List.replicate 64 0 else d)[i] := by
      cases p
      · simp [hd, hi]
      · exact (List.getElem_replicate (a := (0 : Byte)) (n := 64) (by rwa [List.length_replicate])).symm

theorem State.poison_putBurst (s : State) (m b : Nat) (d : Bytes) (p : Bool) (k : Nat) :
    Sparse.getD (fun _ => false) (s.putBurst m b d p).poison k = if k = m * 2 ^ 24 + b then p else Sparse.getD (fun _ => false) s.poison k :=
  Sparse.getD_setD _ _ _ _ _

@[simp] theorem State.fget_putBurst (s : State) (m b : Nat) (d : Bytes) (p : Bool) (f : Fld) : (s.putBurst m b d p).fget f = s.fget f := rfl

/-! ### Counted reads -/

/-- Records and packets poison no burst. -/
theorem poison_of_reports {s t : State} (h : Reports s t) : t.poison = s.poison := by
  obtain ⟨-, -, _, _, _, _, _, _, rfl⟩ := h
  rfl

/-- The error counters of an MCH lie between the registers that records and packets write. -/
theorem memMchEcc_not_report (m : Fin 768) : (Reg.memMchEcc m).off ∉ reportOffs := fun h => by
  have hout : ∀ o ∈ reportOffs, o < 0x1d00000 ∨ 0x1e00000 ≤ o := by decide
  have hm := m.isLt
  have := hout _ h
  simp only [Reg.off] at this
  omega

/-- A step that writes registers of errors and pins alone enables no error ring. -/
theorem ringsOff_of_regsBut_memMch {s u : State} {m : Nat} (h : RegsBut s u [(Reg.memMchEcc m).off, (Reg.memMchPin m).off]) (hs : RingsOff s) :
    RingsOff u := fun r hr => by
  have hout : (F.mgtErrbase_EN r).reg.off ∉ [(Reg.memMchEcc m).off, (Reg.memMchPin m).off] := by
    simp only [F.mgtErrbase_EN, Reg.off, List.mem_cons, List.not_mem_nil, or_false]
    omega
  rw [← hs r hr]
  unfold State.fbit
  rw [h.fget_eq hout]

@[simp] theorem State.modMch_regs (s : State) (m : Nat) (g : Mch → Mch) : (s.modMch m g).regs = s.regs := rfl

@[simp] theorem State.modMch_mem (s : State) (m : Nat) (g : Mch → Mch) : (s.modMch m g).mem = s.mem := rfl

@[simp] theorem State.modMch_poison (s : State) (m : Nat) (g : Mch → Mch) : (s.modMch m g).poison = s.poison := rfl

@[simp] theorem State.mchSecond_regs (s : State) (m : Nat) : (s.mchSecond m).regs = s.regs := State.modMch_regs _ _ _

@[simp] theorem State.mchSecond_mem (s : State) (m : Nat) : (s.mchSecond m).mem = s.mem := State.modMch_mem _ _ _

@[simp] theorem State.mchSecond_poison (s : State) (m : Nat) : (s.mchSecond m).poison = s.poison := State.modMch_poison _ _ _

/-- A counter counts from the registers alone. -/
theorem State.fsat_regs_of_regs_eq {s u : State} (h : u.regs = s.regs) (f : Fld) (n : Nat) : (u.fsat f n).regs = (s.fsat f n).regs := by
  simp only [State.fsat, State.fset, State.setReg, State.fget, State.reg, h]

/-- A corrected burst counted, its symbols with their pins (R199, R214, R215). -/
def State.mchCounted (s : State) (who : Asker) (m addr : Nat) (pat : List (Nat × Nat)) : State :=
  ((s.mchSecond m).fsat (F.memMchEcc_CE m) 1).modMch m fun c =>
    { c with pinCnt := pat.foldl (fun l p => countAt l (p.1 / 2) 1) c.pinCnt
             hits := c.hits ++ pat.map fun p => ⟨((s.mchSecond m).fsat (F.memMchEcc_CE m) 1).now (dieOfUnit (unitMch m)), p.1 / 2, addr, who⟩ }

/-- MEM_MCH_PIN names the pin with the most corrected symbols (R215). -/
def State.topPinNamed (s : State) (m : Nat) : State :=
  (s.fset (F.memMchPin_PIN m) (topPin (s.mch m).pinCnt).1).fset (F.memMchPin_COUNT m) (min (topPin (s.mch m).pinCnt).2 (2 ^ 32 - 1))

theorem State.mchCorrected_eq (s : State) (who : Asker) (m addr : Nat) (pat : List (Nat × Nat)) :
    s.mchCorrected who m addr pat = ((s.mchCounted who m addr pat).topPinNamed m).error
      { unit := unitMch m, code := 0x40, cls := 0, addr := addr, stream := who.stream, seq := who.seq, every := oneSecond } := by
  unfold State.mchCorrected State.topPinNamed State.mchCounted
  rfl

theorem State.mchCounted_frame (s : State) (who : Asker) (m addr : Nat) (pat : List (Nat × Nat)) :
    (s.mchCounted who m addr pat).regs = (s.fsat (F.memMchEcc_CE m) 1).regs ∧ (s.mchCounted who m addr pat).mem = s.mem
      ∧ (s.mchCounted who m addr pat).poison = s.poison := by
  unfold State.mchCounted
  refine ⟨?_, ?_, ?_⟩
  · rw [State.modMch_regs, State.fsat_regs_of_regs_eq (s.mchSecond_regs m)]
  · rw [State.modMch_mem, State.fsat_mem, State.mchSecond_mem]
  · rw [State.modMch_poison, State.fsat_poison, State.mchSecond_poison]

theorem State.topPinNamed_frame (s : State) (m : Nat) :
    RegsBut s (s.topPinNamed m) [(Reg.memMchPin m).off] ∧ (s.topPinNamed m).mem = s.mem ∧ (s.topPinNamed m).poison = s.poison := by
  unfold State.topPinNamed
  refine ⟨(regsBut_fset s (F.memMchPin_PIN m) _).trans (regsBut_fset _ (F.memMchPin_COUNT m) _), ?_, ?_⟩
  · rw [State.fset_mem, State.fset_mem]
  · rw [State.fset_poison, State.fset_poison]

/-- A corrected burst is counted and named on its pin before its record is made (R199, R215). -/
theorem State.mchCorrected_cases (s : State) (who : Asker) (m addr : Nat) (pat : List (Nat × Nat)) :
    ∃ u, RegsBut (s.fsat (F.memMchEcc_CE m) 1) u [(Reg.memMchPin m).off] ∧ u.mem = s.mem ∧ u.poison = s.poison
      ∧ Reports u (s.mchCorrected who m addr pat) := by
  obtain ⟨hregs, hmem, hpoison⟩ := s.mchCounted_frame who m addr pat
  obtain ⟨hpin, hmem', hpoison'⟩ := (s.mchCounted who m addr pat).topPinNamed_frame m
  rw [State.mchCorrected_eq]
  exact ⟨_, (RegsBut.of_regs_eq _ hregs).trans hpin, hmem'.trans hmem, hpoison'.trans hpoison, State.reports_error _ _ nofun⟩

/-- What a corrected burst writes: its count, no memory where no ring is enabled, no poison. -/
theorem State.mchCorrected_effect (s : State) (who : Asker) (m : Fin 768) (addr : Nat) (pat : List (Nat × Nat)) :
    (s.mchCorrected who m addr pat).fget (F.memMchEcc_CE m) = min (s.fget (F.memMchEcc_CE m) + 1) (2 ^ 32 - 1)
    ∧ (RingsOff s → (s.mchCorrected who m addr pat).mem = s.mem) ∧ (s.mchCorrected who m addr pat).poison = s.poison := by
  obtain ⟨u, hpin, hmem, hpoison, hrep⟩ := s.mchCorrected_cases who m addr pat
  have hpoison' := poison_of_reports hrep
  obtain ⟨hrecord, hringMem, -⟩ := hrep
  have hne : (F.memMchEcc_CE m).reg.off ∉ [(Reg.memMchPin m).off] := by simp [F.memMchEcc_CE, Reg.off]
  have hregs : RegsBut s u [(Reg.memMchEcc m).off, (Reg.memMchPin m).off] :=
    ((regsBut_fsat s (F.memMchEcc_CE m) 1).mono (by simp [F.memMchEcc_CE])).trans (hpin.mono (by simp))
  refine ⟨?_, fun hr => (hringMem (ringsOff_of_regsBut_memMch hregs hr)).trans hmem, ?_⟩
  · rw [hrecord.fget_eq (memMchEcc_not_report m), hpin.fget_eq hne]
    exact s.fget_fsat_self (F.memMchEcc_CE m) 1 (by decide : 63 < 64)
  · exact hpoison'.trans hpoison

/-- An uncorrectable burst is counted (R215). -/
theorem State.mchUncorrectable_ue (s : State) (m : Nat) :
    (s.mchUncorrectable m).fget (F.memMchEcc_UE m) = min (s.fget (F.memMchEcc_UE m) + 1) (2 ^ 16 - 1) :=
  s.fget_fsat_self (F.memMchEcc_UE m) 1 (by decide : 31 < 64)

/-- A record made after a count in a slot, and an answer, beside what the slot moved. -/
theorem State.reported_slot_error (s : State) (m r : Nat) (f : Fld) (n : Nat) (e : ErrRec) (he : ∀ p, e.part = some p → p < 8) (st : Nat) (d : Bytes) :
    Reported ((s.fsat f n).answer st d) { (((s.mchSlot m r).fsat f n).error e).answer st d with arbs := s.arbs, mslots := s.mslots } := by
  have hcount : ((s.mchSlot m r).fsat f n).regs = ((s.fsat f n).answer st d).regs := State.fsat_regs_of_regs_eq rfl f n
  obtain ⟨hregs, hmem, r, x, er, o, q, t, herr⟩ := ((s.mchSlot m r).fsat f n).reports_error e he
  rw [herr] at hregs hmem ⊢
  exact ⟨(RegsBut.of_regs_eq _ hcount).trans hregs, fun hoff => hmem hoff, rfl⟩

/-- After an uncorrectable read its burst is poisoned and the failure counted (R200, R215). -/
theorem State.uncorrectable_effect (s : State) (m : Fin 768) (b : Nat) (e : ErrRec) (he : ∀ p, e.part = some p → p < 8) :
    Sparse.getD (fun _ => false) (((s.mchUncorrectable m).putBurst m b [] true).error e).poison (m * 2 ^ 24 + b) = true
    ∧ (((s.mchUncorrectable m).putBurst m b [] true).error e).fget (F.memMchEcc_UE m) = min (s.fget (F.memMchEcc_UE m) + 1) (2 ^ 16 - 1) := by
  have hrep := ((s.mchUncorrectable m).putBurst m b [] true).reports_error e he
  constructor
  · rw [poison_of_reports hrep, State.poison_putBurst, if_pos rfl]
  · rw [hrep.1.fget_eq (memMchEcc_not_report m), State.fget_putBurst, State.mchUncorrectable_ue]

/-! ### Slots -/

theorem State.decodeBurst_mchSlot (s : State) (m r b : Nat) (e : SymErrs) : (s.mchSlot m r).decodeBurst m b e = s.decodeBurst m b e := by
  unfold State.decodeBurst State.burstWord State.burstBytes State.erasedPin
  rfl

@[simp] theorem State.mch_modMch_self (s : State) (m : Nat) (g : Mch → Mch) : (s.modMch m g).mch m = g (s.mch m) := Sparse.getD_setD_self _ _ _ _

theorem State.mch_modMch_ne (s : State) {m k : Nat} (g : Mch → Mch) (h : k ≠ m) : (s.modMch m g).mch k = s.mch k := Sparse.getD_setD_ne _ _ _ h

@[simp] theorem State.mslot_setMslot_self (s : State) (m : Nat) (x : MchSlot) : (s.setMslot m x).mslot m = x := Sparse.getD_setD_self _ _ _ _

theorem State.mslot_setMslot_ne (s : State) {m k : Nat} (x : MchSlot) (h : k ≠ m) : (s.setMslot m x).mslot k = s.mslot k := Sparse.getD_setD_ne _ _ _ h

/-- A refresh that falls due takes the next slots of its MCH and nothing else. -/
theorem State.refreshDue_effect (s : State) (m : Nat) :
    ((s.refreshDue m).mslot m).refresh = true ∧ (∀ k, k ≠ m → (s.refreshDue m).mslot k = s.mslot k) ∧ { s.refreshDue m with mslots := s.mslots } = s := by
  unfold State.refreshDue
  refine ⟨?_, fun k hk => s.mslot_setMslot_ne _ hk, rfl⟩
  rw [State.mslot_setMslot_self]

end Sys2Proof.Machine

namespace Sys2Proof.Safety

open Sys2Proof.Machine

section Serves

variable {s : State} {m : Nat}

/-- An MCH that serves reads in the slot that it grants. -/
theorem mchBurstRead_of_serves (h : mchState s m ≤ 1) (who : Asker) (b : Nat) (e : SymErrs) : s.mchBurstRead who m b e = (s.mchSlot m 0).mchRead who m b e := by
  unfold mchState at h
  unfold State.mchBurstRead State.mchServes
  rw [if_neg (by omega), if_pos (decide_eq_true h)]

theorem mchBurstWrite_of_serves (h : mchState s m ≤ 1) (b : Nat) (d : Bytes) (p : Bool) :
    s.mchBurstWrite m b d p = ((s.mchSlot m 0).putBurst m b d p).answer stOK [] := by
  unfold mchState at h
  unfold State.mchBurstWrite State.mchServes
  rw [if_neg (by omega), if_pos (decide_eq_true h)]

theorem mchBurstRead_of_retired (h : mchState s m = 3) (who : Asker) (b : Nat) (e : SymErrs) : s.mchBurstRead who m b e = s.answer stOutOfBounds [] := if_pos h

theorem mchBurstWrite_of_retired (h : mchState s m = 3) (b : Nat) (d : Bytes) (p : Bool) : s.mchBurstWrite m b d p = s.answer stOutOfBounds [] := if_pos h

/-- The scrubber passes a good burst and goes on (R204). -/
theorem scrub_of_good (h : mchState s m ≤ 1) {e : SymErrs} (hgood : s.decodeBurst m (s.mch m).scrub e = .good) :
    s.scrub m e = (s.mchSlot m 2).modMch m fun c => { c with scrub := ((s.mch m).scrub + 1) % 2 ^ 24 } := by
  have hserves : s.mchServes m = true := decide_eq_true h
  have hslot : (s.mchSlot m 2).decodeBurst m ((s.mchSlot m 2).mch m).scrub e = .good := (s.decodeBurst_mchSlot m 2 _ e).trans hgood
  unfold State.scrub
  dsimp only
  rw [hserves, hslot]
  rfl

end Serves

end Sys2Proof.Safety
end

section
/-! O22: bursts of stacked memory (R197-R212). -/

namespace Sys2Proof.Safety

open Sys2Proof.Machine

variable {s : State} {m : Fin 768}

/-- A burst written holds its bytes or zeros and its poison, and no other byte or burst changes. -/
theorem burst_written (h : mchState s m ≤ 1) (b : BitVec 24) (d : Bytes) (p : Bool) (hd : d.length = 64) :
    ∃ t, exec (.mchBurstWrite m b d p) s = .next t ∧ t.resp = ⟨stOK, []⟩
      ∧ t.burstBytes m b.toNat = (if p then List.replicate 64 0 else d) ∧ Sparse.getD (fun _ => false) t.poison (m * 2 ^ 24 + b.toNat) = p
      ∧ (∀ k, (k < burstKey m b.toNat ∨ burstKey m b.toNat + 64 ≤ k) → Sparse.getD memDflt t.mem k = Sparse.getD memDflt s.mem k)
      ∧ (∀ k, k ≠ m * 2 ^ 24 + b.toNat → Sparse.getD (fun _ => false) t.poison k = Sparse.getD (fun _ => false) s.poison k)
      ∧ { t with arbs := s.arbs, mslots := s.mslots, mem := s.mem, poison := s.poison, resp := s.resp } = s := by
  have hexec : exec (.mchBurstWrite m b d p) s = .next (s.mchBurstWrite m b.toNat d p) := if_pos hd
  rw [mchBurstWrite_of_serves h] at hexec
  have hpoison := (s.mchSlot m 0).poison_putBurst m b.toNat d p
  exact ⟨_, hexec, rfl, (s.mchSlot m 0).burstBytes_putBurst m b.toNat p hd, (hpoison _).trans (if_pos rfl),
    fun _ hk => (s.mchSlot m 0).mem_putBurst_ne m b.toNat d p hk, fun k hk => (hpoison k).trans (if_neg hk), rfl⟩

/-- A read of an MCH that serves runs in the slot granted, as the decoder says. -/
theorem exec_mchBurstRead (h : mchState s m ≤ 1) (w : ReqId) (b : BitVec 24) (e : SymErrs) :
    exec (.mchBurstRead m b ⟨w, e⟩) s = .next ((s.mchSlot m 0).mchRead (askerOf w) m b.toNat e) :=
  congrArg Host.Outcome.next (mchBurstRead_of_serves h (askerOf w) b.toNat e)

theorem clean_burst_read (h : mchState s m ≤ 1) (w : ReqId) (b : BitVec 24) (hp : Sparse.getD (fun _ => false) s.poison (m * 2 ^ 24 + b.toNat) = false) :
    ∃ t, exec (.mchBurstRead m b ⟨w, []⟩) s = .next t ∧ { t with arbs := s.arbs, mslots := s.mslots } = s.answer stOK (s.burstBytes m b.toNat) := by
  refine ⟨_, exec_mchBurstRead h w b [], ?_⟩
  unfold State.mchRead
  rw [State.decodeBurst_mchSlot, State.decodeBurst_of_clean hp]
  rfl

theorem poisoned_burst_read (h : mchState s m ≤ 1) (w : ReqId) (b : BitVec 24) (hp : Sparse.getD (fun _ => false) s.poison (m * 2 ^ 24 + b.toNat) = true) :
    ∃ t, exec (.mchBurstRead m b ⟨w, []⟩) s = .next t
      ∧ Reported ((s.fsat (F.memMchEcc_POISON m) 1).answer stPoison []) { t with arbs := s.arbs, mslots := s.mslots } := by
  refine ⟨_, exec_mchBurstRead h w b [], ?_⟩
  unfold State.mchRead
  rw [State.decodeBurst_mchSlot, State.decodeBurst_of_poison hp]
  refine s.reported_slot_error m 0 (F.memMchEcc_POISON m) 1 _ ?_ stPoison []
  nofun

theorem corrected_burst_read (h : mchState s m ≤ 1) (w : ReqId) (b : BitVec 24) {e : SymErrs} {pat : List (Nat × Nat)} {d : Bytes}
    (hdec : s.decodeBurst m b.toNat e = .corrected pat d) :
    ∃ t, exec (.mchBurstRead m b ⟨w, e⟩) s = .next t ∧ t.resp = ⟨stOK, d⟩
      ∧ t.fget (F.memMchEcc_CE m) = min (s.fget (F.memMchEcc_CE m) + 1) (2 ^ 32 - 1) ∧ (RingsOff s → t.mem = s.mem) ∧ t.poison = s.poison := by
  refine ⟨_, exec_mchBurstRead h w b e, ?_⟩
  unfold State.mchRead
  rw [State.decodeBurst_mchSlot, hdec]
  exact ⟨rfl, (s.mchSlot m 0).mchCorrected_effect (askerOf w) m _ pat⟩

theorem uncorrectable_burst_read (h : mchState s m ≤ 1) (w : ReqId) (b : BitVec 24) {e : SymErrs} (hdec : s.decodeBurst m b.toNat e = .uncorrectable) :
    ∃ t, exec (.mchBurstRead m b ⟨w, e⟩) s = .next t ∧ t.resp = ⟨stPoison, []⟩ ∧ Sparse.getD (fun _ => false) t.poison (m * 2 ^ 24 + b.toNat) = true
      ∧ t.fget (F.memMchEcc_UE m) = min (s.fget (F.memMchEcc_UE m) + 1) (2 ^ 16 - 1) := by
  refine ⟨_, exec_mchBurstRead h w b e, ?_⟩
  unfold State.mchRead
  rw [State.decodeBurst_mchSlot, hdec]
  refine ⟨rfl, (s.mchSlot m 0).uncorrectable_effect m b.toNat _ ?_⟩
  nofun

theorem clean_burst_scrubbed (h : mchState s m ≤ 1) (hpark : s.fget F.pwrStat_PARK = 0)
    (hp : Sparse.getD (fun _ => false) s.poison (m * 2 ^ 24 + (s.mch m).scrub) = false) :
    ∃ t, exec (.scrubRead m []) s = .next t ∧ t.mch m = { s.mch m with scrub := ((s.mch m).scrub + 1) % 2 ^ 24 } ∧ (∀ k, k ≠ m.val → t.mch k = s.mch k)
      ∧ { t with arbs := s.arbs, mslots := s.mslots, mchs := s.mchs } = s := by
  have hexec : exec (.scrubRead m []) s = .next (s.scrub m []) := congrArg Host.Outcome.next (if_pos hpark)
  rw [scrub_of_good h (State.decodeBurst_of_clean hp)] at hexec
  exact ⟨_, hexec, (s.mchSlot m 2).mch_modMch_self m _, fun k hk => (s.mchSlot m 2).mch_modMch_ne _ hk, rfl⟩

end Sys2Proof.Safety

namespace Sys2Proof.Safety

open Sys2Proof.Machine

/-- Settles O22, clause by clause: what the decoder makes of a burst decides a read, what is put decides a later one. -/
theorem stackedMemoryBursts : Obligations.StackedMemoryBursts := by
  unfold Obligations.StackedMemoryBursts
  intro w m b s
  refine ⟨⟨_, rfl, s.refreshDue_effect m⟩, fun h => ⟨burst_written h b, clean_burst_read h w b, poisoned_burst_read h w b,
    fun _ _ _ => corrected_burst_read h w b, fun _ => uncorrectable_burst_read h w b, clean_burst_scrubbed h⟩, fun hret => ⟨?_, fun d p hd => ?_⟩⟩
  · exact congrArg Host.Outcome.next (mchBurstRead_of_retired hret (askerOf w) b.toNat [])
  · have hexec : exec (.mchBurstWrite m b d p) s = .next (s.mchBurstWrite m b.toNat d p) := if_pos hd
    rw [hexec, mchBurstWrite_of_retired hret]

end Sys2Proof.Safety
end
